-- ==== Sys2Proof/Word.lean ====
section
/-! DEFINITION. The words of the machine: 32-bit register words (R16) and bytes. -/

namespace Sys2Proof

/-- A 32-bit register word. -/
abbrev Word := BitVec 32

/-- A byte of host memory, of a command entry or of a record. -/
abbrev Byte := BitVec 8

end Sys2Proof
end

