-- ==== Sys2Proof/Syntax.lean ====
section
/-! DEFINITION. The commands the block takes, with the operands each carries. An event of the part's surroundings
carries what the unit measured when it arose; quantities are in the units of R7 unless said otherwise (voltages in mV,
currents in mA, temperatures in 1/16 °C). -/

namespace Sys2Proof

/-- The initiators of R13. The supervisor in privileged state and outside it differ (R14, R359); both have identifier 0. -/
inductive Initiator where
  | supervisor | supervisorUser | application | host | ec | cascade | debug
  deriving DecidableEq, Repr

/-- The wake sources of R32. -/
inductive WakeSource where
  | button | attach | perst | twoWire | aonCompare | gpio | pgFall | cellOv | thermal | burst | packLow | shipRequest
  deriving DecidableEq, Repr

/-- A strap reading (R45): each code as decoded from its window, `none` for a multi-level reading outside every code
window. -/
structure StrapReading where
  role   : Bool
  idx    : Fin 4
  compat : Bool
  cell   : Option (Fin 8)
  vchg   : Option (Fin 8)
  ichg   : Option (Fin 8)
  vmin   : Option (Fin 8)
  db     : Fin 16
  deriving DecidableEq, Repr

/-- What the boot ROM finds in a firmware bank: the first failing check of R415 among 1 to 4 (0 for none), the SVN and
FW_VERSION of the header. -/
structure ImageCheck where
  check   : Nat
  svn     : Nat
  version : Nat
  deriving DecidableEq, Repr

/-- A record of a configuration image (R422): its TYPE and data bytes. -/
structure CfgRecord where
  typ  : Nat
  data : List Byte
  deriving DecidableEq, Repr

/-- What a phase measures at a carrier valley (R54, R59, R60): valley current, fitted slopes in 4 mA/µs (absent with
fewer than three usable samples), bus voltages, the period's length in 78.125 ps, the inductance estimate from the
fitted slopes in 10 nH, the four measured transition delays in 78.125 ps, and the refresh correction of R53. -/
structure ValleySample where
  iv      : Int
  mr      : Option Int
  mf      : Option Int
  vin     : Nat
  vsys    : Nat
  len     : Nat
  lEst    : Nat
  dARise  : Nat
  dAFall  : Nat
  dBRise  : Nat
  dBFall  : Nat
  refresh : Int
  deriving DecidableEq, Repr

/-- What a group measures at its reference valley (R62 to R65, R83 to R89), with the outputs of the loops and
corrections whose law the spec does not give: VIN loop, ICHG loop without feed-forward, VCHG loop, IIN correction. -/
structure GroupSample where
  vin     : Nat
  iin     : Int
  vsys    : Nat
  isys    : Int
  vbus    : Nat
  vinOut  : Int
  ichgOut : Int
  vchgOut : Int
  iinCorr : Int
  deriving DecidableEq, Repr

/-- What the charger reads at an evaluation (R103, R111, R114): filtered cell voltages, VBAT, battery current, pack
temperature, pack NTC open, shorted or suspect. -/
structure ChargeSample where
  cells    : List Nat
  vbat     : Nat
  ibat     : Int
  tpack    : Int
  ntcFault : Bool
  deriving DecidableEq, Repr

/-- An estimator fit of one second (R124 to R126): Rohm and Rct in 10 µΩ and τ in 0.1 ms per cell, cell voltages, the
current in mA, normalised variance in 0.1 %, perturbation data present, and whether ten seconds of new data agree
within 5 % (R127). -/
structure FitSample where
  rohm    : List Nat
  rct     : List Nat
  tau     : List Nat
  vcell   : List Nat
  cur     : Int
  var     : Nat
  perturb : Bool
  agree   : Bool
  deriving DecidableEq, Repr

/-- What the budget measures before a computation (R137, R138): VSYS, ISYS, the AUX rails' input power, VBAT, battery
current, and the power each source port delivers, in mW. -/
structure BudgetSample where
  vsys  : Nat
  isys  : Int
  paux  : Nat
  vbat  : Nat
  ibat  : Int
  deliv : List Nat
  deriving DecidableEq, Repr

/-- The messages of USB PD that the spec names (R183); `other` is a reserved or unknown type. -/
inductive MsgKind where
  | goodCrc | accept | reject | wait | psRdy | softReset | notSupported | ping | gotoMin
  | sourceCaps | request | sinkCaps | getSourceCap | getSinkCap
  | eprRequest | eprModeEnter | eprModeExit | eprSourceCaps | eprSinkCaps | eprGetSourceCap | eprGetSinkCap
  | eprKeepAlive | eprKeepAliveAck
  | prSwap | vconnSwap | frSwap | drSwap
  | getSourceCapExt | getSinkCapExt | getStatus | getPpsStatus | getSourceInfo | getRevision
  | sourceCapsExt | sinkCapsExt | status | ppsStatus | sourceInfo | revision | alert
  | getBatteryCap | getBatteryStatus | batteryCaps | batteryStatus | getManufacturerInfo | manufacturerInfo
  | vdmStructured | vdmNak | vdmUnstructured | discoverIdentity
  | vdmExtended | securityRequest | securityResponse | fwUpdateRequest | fwUpdateResponse
  | enterUsb | dataReset | dataResetComplete
  | getCountryCodes | getCountryInfo | countryCodes | countryInfo
  | bist | cableReset | other
  deriving DecidableEq, Repr

/-- A follower's part of the master slot (R324): its input and source strings by port and its throttle ceiling in mW, and
the part of each of its sink groups in mA. -/
structure Grant where
  strIn  : List Nat := []
  strSrc : List Nat := []
  ceil   : Nat := 0
  parts  : List Int := []
  deriving DecidableEq, Repr

/-- What the master slot carries (R324, R328, R333); `grants` by unit index. -/
structure MasterPart where
  frame     : Nat
  throt     : Bool
  relief    : Nat
  longPress : Bool
  sleep     : Bool
  excluded  : Nat
  target    : Nat
  vsys      : Nat
  grants    : List Grant
  deriving DecidableEq, Repr

/-- An intent that a follower forwards (R147, R148): ΔP in mW, start in TS, duration in µs. -/
structure IntentFwd where
  dP    : Nat
  start : Nat
  dur   : Nat
  deriving DecidableEq, Repr

/-- What a follower's slot carries (R324, R332, R333): the terms of R138 and the strings in mW by port, the input string that
each group may draw and its GRP_PMAX, the shortfall of its groups against their parts in mA (R325), sleep refusal; two bytes of its UDID; a forwarded intent; mean, minimum and maximum of a channel. -/
structure ReportPart where
  demand  : Nat := 0
  strSrc  : List Nat := []
  drw     : Nat := 0
  cReq    : Nat := 0
  strIn   : List Nat := []
  inGrp   : List Nat := []
  pmax    : List Nat := []
  short   : Nat := 0
  refuse  : Bool := false
  udid    : List Byte := []
  intent  : Option IntentFwd := none
  summary : Nat × Nat × Nat := (0, 0, 0)
  deriving DecidableEq, Repr

/-- The flags of every slot (R324, R334, R337): SAFE and its cause, retired phases, VDRV_UV, drop per bus, long press, mode,
PCIe link up, local fallback. -/
structure FlagPart where
  safe      : Bool := false
  cause     : Nat := 0
  retired   : Nat := 0
  vdrvUv    : Bool := false
  drop      : Nat := 0
  longPress : Bool := false
  mode      : Nat := 0
  linkUp    : Bool := false
  fallback  : Bool := false
  deriving DecidableEq, Repr

/-- The paralleled bus as its owner reports it (R324, R330): pair closed, V_EXP in mV, IIN_EFF in mA, IN_p in mW,
non-retired phases. -/
structure ParPart where
  closed : Bool
  vExp   : Nat
  iin    : Nat
  inP    : Nat
  phases : Nat
  deriving DecidableEq, Repr

/-- A tunnelled request or reply (R331, R338). -/
inductive Tunnel where
  | request (target : Fin 4) (isWrite : Bool) (addr : Nat) (value mask : Word)
  | reply (asker : Fin 4) (status diagOfs diagCode : Nat) (before after : Word)
  deriving DecidableEq, Repr

/-- A slot of the cascade frame (R323, R324). -/
structure Slot where
  sender : Fin 4
  master : Option MasterPart
  report : Option ReportPart
  flags  : FlagPart
  par    : Option ParPart
  tunnel : Option Tunnel
  deriving DecidableEq, Repr

/-- What a unit hears in a slot (R323, R328, R335): silence, a failed CRC with or without energy on the bus, a slot. -/
inductive SlotIn where
  | silent
  | bad (energy : Bool)
  | good (slot : Slot)
  deriving DecidableEq, Repr

/-- Samples of a capture stream taken one after another (R268): the frame count and the TS of the first, and each frame's
codes of the enabled channels in ascending channel number. -/
structure FrameRun where
  first  : Nat := 0
  ts     : Nat := 0
  frames : List (List Int) := []
  deriving DecidableEq, Repr

/-- What SELF_TEST finds (R371, R372): tests failed as the mask, MRAM words corrected and uncorrectable, the fast channel
with the largest analog deviation and that deviation in 0.1 % of its bound, the LPO error in ppm, Jack vectors failed. -/
structure SelfTestOutcome where
  failed  : Nat
  corr    : Nat
  uncorr  : Nat
  channel : Nat
  share   : Nat
  lpo     : Int
  vectors : Nat
  deriving DecidableEq, Repr

/-- An NTC input at a sample (R265, R341): its ratio x in 1/65536, and the temperature that R341 converts it to. -/
structure NtcReading where
  ratio : Nat
  temp  : Int
  deriving DecidableEq, Repr

/-- A PEC byte as it arrived (R307). -/
inductive Pec where
  | absent | good | bad
  deriving DecidableEq, Repr

/-- A native write transaction (R303, R307): the count byte of a block write, the data bytes without count and PEC (more than
the shape has: a byte in excess of shape and PEC), the PEC, and firmware lost after the address byte (R318). -/
structure TwiWrite where
  count : Nat := 0
  data  : List Byte := []
  pec   : Pec := .absent
  lost  : Bool := false
  deriving DecidableEq, Repr

/-- How a Host Notify ends on the bus (R315). -/
inductive NotifyEnd where
  | delivered | nack | arbLost
  deriving DecidableEq, Repr

/-- The commands: one constructor per row of spec/opcode_table.json. -/
inductive Instr where
  /-- REGISTER_WRITE (R16). An initiator writes a register that has no row of its own; the write is checked for privilege, alignment, mapping, locks and clamping and then stored. -/
  | registerWrite (ini : Initiator) (addr : Nat) (data : Word) (full : Bool)
  /-- ACC_ERR_CLEAR (R25). A W1C write to GLB.ACC_ERR_INFO.VALID clears the record and its COUNT. -/
  | accErrClear (ini : Initiator)
  /-- XTAL_SWITCH_OVER (R39). After 1,024 stable crystal cycles the AON clock moves from the internal RC to the crystal. -/
  | xtalSwitchOver
  /-- XTAL_FAIL (R20). The crystal gives no edge for 8 LPO-measured tick periods; the AON clock moves to the RC until AON power-on reset, XTAL_FAIL sets and a FAULT event is raised. -/
  | xtalFail
  /-- FLL_LOCK (R19). The LPO FLL reports lock, and TS[9:0] starts counting. -/
  | fllLock
  /-- PLL_LOCK (R39). The SYS PLL locks; SYS, PD and CSC run, and ports without a DB strap start presenting Rd. -/
  | pllLock
  /-- PLL_UNLOCK (R21). The SYS PLL loses lock and enters holdover; PLL_UNLOCK sets and a FAULT event is raised. -/
  | pllUnlock
  /-- PLL_LOCK_RETRY (R21). Every 100 µs in holdover, the SYS PLL retries lock. -/
  | pllLockRetry (locked : Bool)
  /-- REFCLK_LOSS (R21). PCIE_REFCLK fails while the link is in L0; the link goes down and REFCLK_LOSS sets, while the power path is unaffected. -/
  | refclkLoss
  /-- AON_WRITE_CROSSED (R22). A posted write to an AON-domain register completes its crossing and takes effect; the shadow then shows it. -/
  | aonWriteCrossed (frame : Nat)
  /-- AON_POR_ASSERT (R38). The AON supply falls below 2.80 V and AON power-on reset is asserted. -/
  | aonPorAssert (supplyGone : Bool)
  /-- AON_POR_RELEASE (R38). The AON supply rises above 3.10 V, or a self-driven reset ends; the keeper latch is copied to POR_CAUSE and the boot of R39 starts. -/
  | aonPorRelease (vbat : Nat) (vbus : List Nat)
  /-- STRAP_LATCH (R45). The straps, measured over 8 AON ticks, are latched into MOD.STRAP, and strap errors are handled. -/
  | strapLatch (r : StrapReading)
  /-- BOOT_ROM_VERIFY (R416). The boot ROM verifies the active bank, falls back to the other bank or enters the recovery loop, and releases the firmware cores. -/
  | bootRomVerify (img0 img1 : ImageCheck) (fuseOk : Bool)
  /-- CONFIG_IMAGE_APPLY (R422). Firmware verifies the active configuration slot and applies its records in order, or applies the stand-alone defaults. -/
  | configImageApply
  /-- POWER_STAGE_ENABLE (R39). The power stage is enabled, the PD ports take their roles, the mode is set and the boot group of rails starts. -/
  | powerStageEnable
  /-- BAR0_READY (R39). The boot ends and BAR0 starts accepting accesses. -/
  | bar0Ready
  /-- MODE_EVALUATE (R27). Every 10 µs, the unit sets the powered mode from hardware state by precedence and raises MODE_CHANGE on a change. -/
  | modeEvaluate (ibat : Int)
  /-- HYB_DWELL_EXPIRY (R28). The battery current stays at or above 0 mA for HYB_DWELL, and the reported mode returns from HYBRID to ADAPTER. -/
  | hybDwellExpiry
  /-- MODE_REQUEST_KEEP_ALIVE (R30). MODE_REQUEST with target KEEP-ALIVE is checked against its preconditions and schedules entry after DELAY. -/
  | modeRequestKeepAlive
  /-- MODE_REQUEST_SHIP (R33). MODE_REQUEST with target SHIP is checked and schedules the SHIP sequence after DELAY. -/
  | modeRequestShip
  /-- MODE_REQUEST_CLEAR_SAFE (R37). MODE_REQUEST with target CLEAR_SAFE clears the fault hold when its causes are gone and marks phases for reinstatement. -/
  | modeRequestClearSafe (vsys : Nat) (pairsOff batOff : Bool)
  /-- KA_ENTRY_DELAY_EXPIRY (R30). The KEEP-ALIVE request delay expires; the unit stops SYS and enters KEEP-ALIVE. -/
  | kaEntryDelayExpiry
  /-- KA_WAKE (R32). A wake source acts in KEEP-ALIVE; LPO, TSF and the PLL start and the unit reaches BATTERY within 60 µs. -/
  | kaWake (src : WakeSource)
  /-- KA_IDLE_EXPIRY (R32). KA_IDLE passes idle after a returning wake, and the unit goes back to KEEP-ALIVE. -/
  | kaIdleExpiry
  /-- SHIP_DELAY_EXPIRY (R33). The SHIP request delay expires, and platform power-down starts in reverse dependency order. -/
  | shipDelayExpiry
  /-- SHIP_RAILS_OFF (R33). The last rail is reported off, and the retained counters are mirrored into the fault log. -/
  | shipRailsOff
  /-- SHIP_ENTER (R33). The mirror completes; the BATFET opens, the ship keeper is armed and the AON domain loses supply. -/
  | shipEnter
  /-- SHIP_ABANDON (R33). VBUS appears on a port before the BATFET opens, and the pending SHIP entry is abandoned. -/
  | shipAbandon (p : Fin 4)
  /-- SHIP_EXIT_BUTTON (R34). A PWRBTN# press lasts the keeper time in SHIP; the keeper closes the BATFET, records the cause and releases AON power-on reset. -/
  | shipExitButton (vbat : Nat) (vbus : List Nat)
  /-- SHIP_EXIT_VBUS (R34). VBUS stays above 4.0 V for 10 ms on a DB-strapped port in SHIP, and the keeper starts the unit. -/
  | shipExitVbus (p : Fin 4) (vbat : Nat) (vbus : List Nat)
  /-- PACK_LOW (R35). VBAT falls below VCUT times the cell count in BATTERY; a MODE_CHANGE 'pack low' is raised, ALERT# is asserted and the 10 s count starts. -/
  | packLow (vbat : Nat)
  /-- PACK_CUTOFF_EXPIRY (R35). VBAT stays below the cutoff level for 10 s with no port attached, and the unit enters SHIP with D = 0. -/
  | packCutoffExpiry (vbat : Nat)
  /-- KA_VBAT_CHECK (R35). Every 1 s in KEEP-ALIVE, the AON domain checks VBAT and wakes the unit when the pack is below the cutoff. -/
  | kaVbatCheck (vbat : Nat)
  /-- VSYS_OVP_TRIP (R36). The hardware comparator finds VSYS above VSYS_OVP, and the unit enters SAFE with cause 0x3. -/
  | vsysOvpTrip (vsys : Nat)
  /-- PAIR_STUCK_ON (R36). VBUS stays at 1.0 V or more on VIN with no pair closed for 100 µs, and the unit enters SAFE with cause 0x4. -/
  | pairStuckOn
  /-- BATFET_STUCK_ON (R36). The battery current stays at 200 mA or more for 1 ms with the BATFET commanded OFF, and the unit enters SAFE with cause 0x5. -/
  | batfetStuckOn (ibat : Int)
  /-- DB_ATTACH (R41). In a dead-battery start, CC holds a valid Rp for 10 ms after the PD clock starts; the booting port counts as attached and its pair to VIN_A closes by soft turn-on. -/
  | dbAttach (p : Fin 4) (cc2 : Bool) (level : Fin 3)
  /-- VSYS_MIN_REACHED (R41). The converter brings VSYS to VSYS_MIN; the BATFET leaves OFF for LINEAR and the boot group of rails starts. -/
  | vsysMinReached (vsys : Nat)
  /-- PWRBTN_SHORT_PRESS (R42). A press of at least 50 ms is released before T_LONGPRESS, and the unit powers up the platform or only reports, as ACTION selects. -/
  | pwrbtnShortPress
  /-- PWRBTN_ARM (R43). After an AON power-on reset, PWRBTN# reads high for 10 ms, and presses count from then on. -/
  | pwrbtnArm
  /-- LONG_PRESS (R44). PWRBTN# is held for T_LONGPRESS; the long-press sequence starts, with a fast power-down and a stop of sourcing. -/
  | longPress
  /-- LONG_PRESS_STAGE_OFF (R44). The rails are off, or 20 ms have passed; switching stops, every pair opens and the BATFET opens. -/
  | longPressStageOff
  /-- LONG_PRESS_POR (R44). T_BATOPEN expires, and the unit drives its own AON power-on reset for 1 ms. -/
  | longPressPor
  /-- BOOTSTRAP_PRECHARGE_DONE (R53). The 2 µs bootstrap precharge of a stopped phase ends, and the phase may start switching. -/
  | bootstrapPrechargeDone (ph : Fin 6)
  /-- BOOTSTRAP_REFRESH (R53). At every sixteenth period, or at once on a bootstrap undervoltage, a held-on high side is refreshed for 40 ns. -/
  | bootstrapRefresh (ph : Fin 6)
  /-- DRV_LVL_APPLY (R52). A held DRV_LVL write applies when its phase next stops. -/
  | drvLvlApply (ph : Fin 6)
  /-- HALF_PERIOD_WRITE (R55). A write to GRP_CFG.HALF_PERIOD takes effect at the reference valley, with re-interleave and recalibration of the delay line. -/
  | halfPeriodWrite (ini : Initiator) (g : Fin 2) (data : Word) (full : Bool)
  /-- DELAY_LINE_CALIBRATE (R57). Every 1 ms, the modulator recalibrates its 16-tap delay line against the PWM clock. -/
  | delayLineCalibrate
  /-- PHASE_VALLEY (R59). At each carrier valley of a switching phase, the unit measures the valley current and slopes, adapts the dead time and computes the next t_on. -/
  | phaseValley (ph : Fin 6) (v : ValleySample)
  /-- GROUP_REF_VALLEY (R62). At each valley of the reference phase, the group computes IREF from its limiters, sets LIMITER and may change region. -/
  | groupRefValley (g : Fin 2) (v : GroupSample)
  /-- DIR_RAMP_HANDOVER (R65). A direction-change ramp of IREF reaches 0 A; regulation passes to the other voltage loop, and the ramp continues in the new direction. -/
  | dirRampHandover (g : Fin 2)
  /-- PHASE_SHED (R66). With one phase fewer, the shares would stay below SHED_LO for 100 µs, and the highest-numbered switching phase stops. -/
  | phaseShed (g : Fin 2)
  /-- PHASE_MAP_SET (R68). The PHASE_MAP_SET command is checked and starts the map change, with any reinstatements. -/
  | phaseMapSet
  /-- PHASE_MAP_SET_DONE (R67). The phase-move sequence of PHASE_MAP_SET ends, and the command completes with the resulting map. -/
  | phaseMapSetDone
  /-- PHASE_CYCLE_LIMIT (R69). The comparator finds the phase current at ±IPK_LIM; the unit forces the returning interval and counts CL_HITS. -/
  | phaseCycleLimit (ph : Fin 6)
  /-- PHASE_OVERCURRENT (R69). The cycle limit is hit in OC_CNT consecutive periods, and the phase is retired with cause 0x1. -/
  | phaseOvercurrent (ph : Fin 6)
  /-- PHASE_HARD_OVERCURRENT (R69). The current reaches 1.25 × IPK_LIM, and the phase is retired with cause 0x1 within 50 ns. -/
  | phaseHardOvercurrent (ph : Fin 6)
  /-- PHASE_DRIVER_UV (R69). DRVn or a bootstrap stays below its threshold for 2 periods, and the phase is retired with cause 0x2. -/
  | phaseDriverUv (ph : Fin 6)
  /-- PHASE_SW_NODE_FAULT (R69). The switch node misses the half-bus crossing for 4 consecutive periods, and the phase is retired with cause 0x3. -/
  | phaseSwNodeFault (ph : Fin 6)
  /-- PHASE_SENSE_MISMATCH (R69). The valley current differs from the expected value at 2 consecutive valleys, and the phase is retired with cause 0x4. -/
  | phaseSenseMismatch (ph : Fin 6)
  /-- PHASE_SLOPE_FAULT (R69). The fitted rising slope stays below 25 % of the voltage-derived slope for 4 periods, and the phase is retired with cause 0x4. -/
  | phaseSlopeFault (ph : Fin 6)
  /-- PHASE_CM_FAULT (R69). CSPn or CSNn stays outside its common-mode range for 1 µs, and the phase is retired with cause 0x4. -/
  | phaseCmFault (ph : Fin 6)
  /-- PHASE_SELF_CHECK_DONE (R72). A reinstatement self-check of 100 µs ends; the phase joins its group or stays retired. -/
  | phaseSelfCheckDone (ph : Fin 6) (fail : Option (Fin 16))
  /-- VDRV_UV (R73). VDRV falls below its threshold; every gate is held low, the switching pairs open by fast turn-off and a FAULT event is raised. -/
  | vdrvUv
  /-- VDRV_RECOVER (R73). VDRV stays above its threshold for 100 µs; the phases precharge, the groups restart and the pairs close again. -/
  | vdrvRecover
  /-- PAIR_TURN_ON_DONE (R77). A port pair reaches full enhancement after soft or fast turn-on. -/
  | pairTurnOnDone (b : Fin 2)
  /-- BUS_MOVE_RAMP_DONE (R79). The group's IREF reaches 0 A in a bus move, and the old pair opens. -/
  | busMoveRampDone (b : Fin 2) (vin vbus : Nat)
  /-- BUS_MOVE_BUS_SETTLED (R79). The bus comes within 0.5 V of the new port's VBUS; the new pair closes and the group resumes. -/
  | busMoveBusSettled (b : Fin 2)
  /-- INPUT_SELECT (R81). The INPUT_SELECT command places the buses under host or automatic selection and starts the bus moves. -/
  | inputSelect
  /-- V_EXP_SETTLE (R82). 5 ms after PS_RDY of a new contract, V_EXP takes the new voltage. -/
  | vExpSettle (p : Fin 4)
  /-- BATFET_TO_SWITCH (R87). VBAT reaches VSYS_MIN, and the BATFET moves from LINEAR to SWITCH. -/
  | batfetToSwitch (vbat : Nat)
  /-- BATFET_TO_LINEAR (R87). VBAT stays below VSYS_MIN − 200 mV with no discharge for 1 ms, and the BATFET moves back to LINEAR. -/
  | batfetToLinear (vbat : Nat)
  /-- BATFET_FAST_ON (R90). VSYS falls below VBAT − 15 mV for 100 ns; the BATFET is driven to full enhancement and FASTON sets. -/
  | batfetFastOn
  /-- BATFET_REVERSE_OFF (R90). In IDEAL DIODE, the battery current exceeds +50 mA for 1 µs; the BATFET turns off and regulation resumes. -/
  | batfetReverseOff
  /-- BATFET_LINEAR_RESUME (R90). In LINEAR after fast-on, the battery current stays at or above 0 mA for 100 µs, and regulation resumes. -/
  | batfetLinearResume
  /-- SINK_DROP (R93). A sink VIN stays below its drop threshold for 500 ns; the group stops, the pair opens and VSYS is handed to the pack, or to the other group. -/
  | sinkDrop (b : Fin 2) (vin : Nat)
  /-- SINK_OVP (R99). A sink VIN stays above its over-voltage threshold for 1 µs; the group stops, the pair opens, OVP sets and a third trip locks the port. -/
  | sinkOvp (b : Fin 2) (vin : Nat)
  /-- SINK_OVP_RECLOSE (R99). VBUS stays inside its thresholds for 100 ms after an over-voltage opening, and the pair recloses. -/
  | sinkOvpReclose (b : Fin 2)
  /-- SINK_REVERSE (R99). IIN stays below −1.0 A for 2 µs; the group stops, the pair opens and REV sets. -/
  | sinkReverse (b : Fin 2) (iin : Int)
  /-- SINK_REV_RECONNECT (R99). 100 ms after a reverse-current opening, the port reconnects while its contract holds. -/
  | sinkRevReconnect (b : Fin 2)
  /-- SOURCE_BUS_READY (R97). The source bus reaches 5.0 V, the pair closes by fast turn-on and the bus follows the contract. -/
  | sourceBusReady (p : Fin 4)
  /-- SOURCE_OVERLOAD (R99). The current bound binds with VBUS below 80 % for 10 ms; sourcing stops, VBUS is discharged and the port enters ErrorRecovery. -/
  | sourceOverload (p : Fin 4)
  /-- SOURCE_SHORT (R99). VBUS stays below 2.0 V while sourcing for 100 µs, and the port is handled as a source overload with SRC_SHORT set. -/
  | sourceShort (p : Fin 4)
  /-- SOURCE_REVERSE (R99). The port current stays above +1.0 A while sourcing for 2 µs; the pair opens and the port enters ErrorRecovery. -/
  | sourceReverse (p : Fin 4)
  /-- TAP_DETECT (R104). The cells stay in range and agree with VBAT for 100 ms, and TAPS sets. -/
  | tapDetect
  /-- TAP_FAULT (R104). A used cell stays out of range, or the sum disagrees, for 1 s; charging stops with fault cause 0x4. -/
  | tapFault
  /-- PACK_NTC_OPEN (R105). With PRES_NTC set, the pack thermistor reads open for 10 ms, and the pack is declared absent. -/
  | packNtcOpen
  /-- PACK_PROBE_IDLE_START (R105). The charger commands charge but the battery current stays within ±25 mA for 10 s, and the presence probe starts. -/
  | packProbeIdleStart (vbat : Nat)
  /-- PACK_PROBE_DONE (R105). The 5 ms presence probe ends and judges the pack present or absent. -/
  | packProbeDone (vbat : Nat)
  /-- PACK_ABSENT_POLL (R106). Every 1 s with the pack absent, the unit checks VBAT. -/
  | packAbsentPoll (vbat : Nat)
  /-- PACK_INSERT (R106). VBAT stays at 1.0 V or above for 100 ms with the NTC not open; the pack is declared present and VSYS is brought toward VBAT. -/
  | packInsert (vbat : Nat) (ntcOpen : Bool)
  /-- PACK_INSERT_CONNECT (R106). VSYS comes within 100 mV of VBAT; the BATFET is set, the tap check runs and a cycle starts. -/
  | packInsertConnect (vsys vbat : Nat)
  /-- CHARGER_EVAL (R111). Every 10 ms, the charger evaluates zone, phase, set point and timers and applies a pending profile. -/
  | chargerEval (v : ChargeSample)
  /-- CHG_TRICKLE_TO_PRECHARGE (R111). V_LO stays at 2.200 V or above for 1 s, and TRICKLE moves to PRECHARGE. -/
  | chgTrickleToPrecharge
  /-- CHG_PRECHARGE_TO_CC (R111). V_LO stays at VPRE or above for 1 s, and PRECHARGE moves to CC with a step chosen. -/
  | chgPrechargeToCc
  /-- CHG_CC_TO_PRECHARGE (R111). V_LO stays below VPRE − 100 mV for 1 s, and CC returns to PRECHARGE. -/
  | chgCcToPrecharge
  /-- CHG_STEP_ADVANCE (R111). V_HI stays at V_UPPER[k] for 1 s, and CC moves to step k + 1. -/
  | chgStepAdvance
  /-- CHG_CC_TO_CV (R111). The VCHG limiter binds in every sink group for 1 s, and CC moves to CV. -/
  | chgCcToCv
  /-- CHG_TERMINATE (R116). In CV past T_CVMIN, the current stays below ITERM with VCHG bound for 60 s; the charger enters DONE and saves the estimator. -/
  | chgTerminate
  /-- CHG_RECHARGE (R117). In DONE, V_HI stays below the zone voltage − V_RECHG for 10 s, and a new cycle starts. -/
  | chgRecharge
  /-- CHG_NO_INPUT_END (R115). No sink port has been connected for 60 s, and the charge cycle ends. -/
  | chgNoInputEnd
  /-- CELL_OV_TRIP (R118). A cell over-voltage comparator asserts; the set point goes to 0 mA, the BATFET becomes an ideal diode, the charger suspends and ACTIVE and SEEN set. -/
  | cellOvTrip (cells : Fin 32)
  /-- CELL_OV_CLEAR (R119). The tripped cell stays 100 mV below COV_TH for 1 s; the trip clears, the BATFET returns and the cycle resumes. -/
  | cellOvClear
  /-- FAST_TIMER_EXPIRY (R122). The fast-charge safety timer reaches T_FAST, and charging stops in FAULT with cause 0x1. -/
  | fastTimerExpiry
  /-- PRE_TIMER_EXPIRY (R122). The precharge safety timer reaches T_PRE, and charging stops in FAULT with cause 0x2. -/
  | preTimerExpiry
  /-- CHG_OVERCURRENT (R129). The battery current stays above 1.2 × the set point + 500 mA for 10 ms, and the charger enters FAULT with cause 0x5. -/
  | chgOvercurrent
  /-- PACK_OV_SUSPEND (R129). VBAT stays above CELLS × the zone voltage + 100 mV for 1 s while charging, and the charger suspends. -/
  | packOvSuspend (vbat : Nat)
  /-- PACK_OV_CLEAR (R129). VBAT falls below CELLS × the zone voltage, and the pack over-voltage suspension ends. -/
  | packOvClear (vbat : Nat)
  /-- PRBS_STEP (R123). Every 1 ms in CC with plating-margin charging, the PRBS steps and the ±3 % perturbation changes sign. -/
  | prbsStep
  /-- ESTIMATOR_UPDATE (R125). Once per second, the estimator updates Rohm, Rct and τ, I_PLATE and the margins, and its state. -/
  | estimatorUpdate (f : FitSample)
  /-- CHARGE_PROFILE_LOAD (R131). The command stores a profile section and, with APPLY, validates and applies the staged profile. -/
  | chargeProfileLoad
  /-- CHARGE_START (R132). The command clears STOPPED and starts a cycle when a sink port is connected. -/
  | chargeStart
  /-- CHARGE_STOP (R132). The command sets STOPPED, ends the cycle and sets the target to 0 mA. -/
  | chargeStop
  /-- CHARGE_RESTART_AFTER_FAULT (R132). The command clears the FAULT cause and the latch and restarts or idles the charger. -/
  | chargeRestartAfterFault
  /-- ESTIMATOR_READ (R132). The command snapshots the estimator values into the registers and increments SNAP_SEQ. -/
  | estimatorRead
  /-- ESTIMATOR_RESET (R132). The command discards the live and saved estimator state and returns it to LEARNING. -/
  | estimatorReset
  /-- PUPPETEER_COMPUTE (R139). Every 10 µs, Puppeteer computes supply, demand, the charge string, overload, source cuts and SYS_THROT#, and it updates RELIEF. -/
  | puppeteerCompute (v : BudgetSample)
  /-- OVL_GRANT_END (R141). An overload grant reaches the tier duration d, and the port falls to the rest level for the rest of the window. -/
  | ovlGrantEnd (p : Fin 4) (usedUs : Nat)
  /-- OVL_WINDOW_END (R141). The 20 ms overload window ends, and IN_p returns to its continuous value. -/
  | ovlWindowEnd (p : Fin 4)
  /-- LOCAL_ARBITER_EVAL (R142). Every 1 µs, the local arbiter computes each group's STRING candidate and asserts SYS_THROT# above the ceiling. -/
  | localArbiterEval (v : BudgetSample)
  /-- LOCAL_ARBITER_PMAX_UPDATE (R142). Every 10 µs, the local arbiter writes GRP_PMAX of each group from its non-retired phases. -/
  | localArbiterPmaxUpdate
  /-- CHG_SHED_DEADLINE (R143). 50 µs after a charge cut, charge power still above its string forces the set point to 0 mA and sets CHG_OVERRUN. -/
  | chgShedDeadline (power : Nat)
  /-- SHED_T_EXPIRY (R144). SHED_T passes without renegotiation, and the STRING limiter takes the cut string. -/
  | shedTExpiry (p : Fin 4)
  /-- SHED_HARD_RESET (R144). HR_DELAY passes after SHED_T without renegotiation; the port issues Hard Reset and SRC_HR sets. -/
  | shedHardReset (p : Fin 4)
  /-- SOURCE_RESTORE (R145). Headroom holds for RESTORE_T with throttle off, and a cut source string is restored with new capabilities. -/
  | sourceRestore (p : Fin 4)
  /-- THROT_DEASSERT (R146). 'over' stays at or below −HYST for HOLD, and SYS_THROT# is deasserted with a BUDGET event. -/
  | throtDeassert
  /-- INTENT_ACTIVATE (R147). At T − LEAD, an intent becomes active; its ΔP counts in R_INT and supplement is armed. -/
  | intentActivate (slot : Fin 8)
  /-- INTENT_EXPIRE (R148). At T + D, an intent expires and frees its slot. -/
  | intentExpire (slot : Fin 8)
  /-- FOLLOWER_REMOVE (R150). A follower is silent for three frames and is removed from the budget, with its intents voided and FOLLOWER_LOST set. -/
  | followerRemove (u : Fin 4)
  /-- LOCAL_FALLBACK_ENTER (R150). A follower has no master frame for three frames, or for 100 ms after boot, and runs a one-unit Puppeteer in local fallback. -/
  | localFallbackEnter
  /-- BUDGET_INTENT (R153). The command registers an intent and returns its handle. -/
  | budgetIntent
  /-- BUDGET_CANCEL_INTENT (R154). The command ends the named intent at once. -/
  | budgetCancelIntent
  /-- BUDGET_SET_POLICY (R155). The command writes the budget policy fields, which apply at the next computation. -/
  | budgetSetPolicy
  /-- BUDGET_QUERY (R156). The command snapshots the latest computation into the SNAP registers and increments SNAP_SEQ. -/
  | budgetQuery
  /-- CC_RP_DETECT (R166). A sink sees Rp on a CC pin, or a source sees Rd, and enters its AttachWait state, with an attach-time moisture test. -/
  | ccRpDetect (p : Fin 4) (src cc2 ra : Bool) (level : Fin 3)
  /-- SINK_ATTACH (R166). Rp holds for ATTACH_DB with VBUS at 4.0 V or above; the port enters Attached.SNK and sets its orientation. -/
  | sinkAttach (p : Fin 4) (vbus : Nat)
  /-- SOURCE_ATTACH (R166). Rd holds for ATTACH_DB with VBUS below 0.8 V; the port enters Attached.SRC, starts sourcing and turns on VCONN. -/
  | sourceAttach (p : Fin 4) (vbus : Nat)
  /-- RP_CHANGE (R166). Before a contract, the partner's new Rp level holds for tPDDebounce, and the input current bound follows it. -/
  | rpChange (p : Fin 4) (level : Fin 3)
  /-- SINK_DETACH (R167). VBUS stays below 3.67 V for 10 ms, and an attached sink detaches. -/
  | sinkDetach (p : Fin 4) (vbus : Nat)
  /-- SOURCE_DETACH (R167). The active CC reads open for tPDDebounce; the source stops, discharges VBUS and turns off VCONN. -/
  | sourceDetach (p : Fin 4)
  /-- ACCESSORY_ATTACH (R168). Ra/Ra, Rd/Rd or Rp/Rp persists, and the port enters an audio or debug accessory state. -/
  | accessoryAttach (p : Fin 4) (kind l1 l2 : Fin 3)
  /-- ACCESSORY_DETACH (R168). A CC pin reads open for tPDDebounce, or VBUS falls for 10 ms, and the port leaves the accessory state. -/
  | accessoryDetach (p : Fin 4)
  /-- DRP_TOGGLE (R163). The tDRP duty timer expires, and a detached DRP port switches between Rp and Rd. -/
  | drpToggle (p : Fin 4)
  /-- TRY_TIMEOUT (R163). A Try.SRC, Try.SNK or TryWait timer of the Type-C state machine expires, and the port changes state. -/
  | tryTimeout (p : Fin 4)
  /-- ERROR_RECOVERY_END (R163). tErrorRecovery passes with both CC pins open, and the port re-enters the unattached state of its role. -/
  | errorRecoveryEnd (p : Fin 4)
  /-- KA_SCAN (R169). Every KA_SCAN in KEEP-ALIVE, a source or DRP port presents Rp for 5 ms and wakes the unit on Rd or Ra. -/
  | kaScan (p : Fin 4) (found : Bool)
  /-- RP_LEVEL_RAISE (R165). A higher Rp level fits the allowance at every computation for 1 s, and the source raises its Rp. -/
  | rpLevelRaise (p : Fin 4)
  /-- VCONN_OCP (R171). The VCONN current exceeds 300 mA for 1 ms; VCONN turns off, OCP sets and a FAULT event is raised. -/
  | vconnOcp (p : Fin 4)
  /-- VCONN_REVERSE (R171). The VCONN pin exceeds VCONN5 + 0.3 V; the switch opens within 10 µs and REV sets. -/
  | vconnReverse (p : Fin 4)
  /-- VBUS_DISCHARGE_DONE (R172). The VBUS discharge sink brings VBUS to vSafe0V. -/
  | vbusDischargeDone (p : Fin 4) (vbus : Nat)
  /-- MOIST_SCAN (R173). DRY_SCAN, or the 10 s wet retest interval, expires, and a moisture test of the port's pins starts. -/
  | moistScan (p : Fin 4)
  /-- MOIST_TEST_DONE (R174). A moisture test ends; it is judged clean or unclean, and the port may be declared wet or dry. -/
  | moistTestDone (p : Fin 4) (z : List Nat) (ocv : List Int)
  /-- MOIST_RETEST (R174). 100 ms after an unclean test, the test is repeated. -/
  | moistRetest (p : Fin 4)
  /-- MOIST_TEST_ABORT (R177). A CC pin rises above 1.1 V or VBUS appears during a test; the test ends, the termination is restored and the attach debounce starts. -/
  | moistTestAbort (p : Fin 4)
  /-- PD_TX_RETRY (R179). tReceive expires without GoodCRC; the message is retried, or the failure is counted after nRetryCount retries. -/
  | pdTxRetry (p : Fin 4)
  /-- CHUNK_TIMEOUT (R182). A chunk request does not arrive in time, and the extended exchange ends as failed. -/
  | chunkTimeout (p : Fin 4)
  /-- DISCOVER_IDENTITY_RETRY (R184). tDiscoverIdentity expires, and cable discovery repeats or ends with 3 A and 20 V. -/
  | discoverIdentityRetry (p : Fin 4)
  /-- BIST_RX (R185). A BIST request is received, and the port enters carrier or test-data mode or ignores it. -/
  | bistRx (p : Fin 4) (bistMode : Fin 3) (vbus : Nat)
  /-- BIST_CARRIER_END (R185). tBISTContMode ends, and the port returns to normal operation. -/
  | bistCarrierEnd (p : Fin 4)
  /-- HARD_RESET_RX (R210). Hard Reset signalling is received; the contract ends and the port runs Hard Reset by its role. -/
  | hardResetRx (p : Fin 4)
  /-- SOFT_RESET_RX (R215). Soft_Reset is received, and the engine resets its protocol state to wait for or send capabilities. -/
  | softResetRx (p : Fin 4)
  /-- SRC_CAPS_RX (R192). Source_Capabilities or EPR_Source_Capabilities is received; the sink chooses an offer and sends a Request. -/
  | srcCapsRx (p : Fin 4) (epr rev2 : Bool) (vbus : Nat) (objs : List Nat)
  /-- ACCEPT_RX (R193). Accept to a Request is received, and the sink enters SNK_TRANSITION. -/
  | acceptRx (p : Fin 4)
  /-- PS_RDY_RX_SINK (R193). PS_RDY is received; the sink contract is in force and the bus is connected or kept. -/
  | psRdyRxSink (p : Fin 4)
  /-- REJECT_RX (R193). Reject to a Request is received; the contract in force is kept and a mismatch event is raised. -/
  | rejectRx (p : Fin 4)
  /-- WAIT_RX (R193). Wait to a Request is received, and the sink schedules a repeat after tSinkRequest. -/
  | waitRx (p : Fin 4)
  /-- SINK_REQUEST_RETRY (R193). tSinkRequest expires after a Wait, and the Request is repeated. -/
  | sinkRequestRetry (p : Fin 4)
  /-- SENDER_RESPONSE_TIMEOUT (R193). tSenderResponse expires with no reply, and the port sends Hard Reset or, under R194, Soft_Reset. -/
  | senderResponseTimeout (p : Fin 4)
  /-- PS_TRANSITION_TIMEOUT (R193). No PS_RDY arrives within tPSTransition, and the port sends Hard Reset, subject to R194. -/
  | psTransitionTimeout (p : Fin 4)
  /-- SINK_WAIT_CAP_TIMEOUT (R195). tTypeCSinkWaitCap expires without capabilities; Hard Reset is sent or the port enters SNK_IMPLICIT. -/
  | sinkWaitCapTimeout (p : Fin 4)
  /-- PPS_KEEPALIVE (R196). PPS_KA passes since the last Accept, and the sink repeats its Request. -/
  | ppsKeepalive (p : Fin 4)
  /-- EPR_ENTRY_START (R197). 5 ms after the PS_RDY of an SPR contract, the sink sends EPR_Mode (Enter). -/
  | eprEntryStart (p : Fin 4)
  /-- EPR_MODE_RX (R197). An EPR_Mode message (Acknowledged, Succeeded, Failed or Exit) is received, and EPR entry or exit proceeds. -/
  | eprModeRx (p : Fin 4) (action : Fin 4)
  /-- EPR_ENTER_TIMEOUT (R197). Enter Succeeded does not arrive within tEnterEPR; the entry fails and EPR_FAIL is raised. -/
  | eprEnterTimeout (p : Fin 4)
  /-- EPR_KEEPALIVE (R198). EPR_KA passes with no message, and the sink sends EPR_KeepAlive. -/
  | eprKeepalive (p : Fin 4)
  /-- SOURCE_CAPS_SEND (R199). tFirstSourceCap or tTypeCSendSourceCap expires, and the source sends Source_Capabilities, or enters SRC_IMPLICIT after nCapsCount. -/
  | sourceCapsSend (p : Fin 4)
  /-- REQUEST_RX (R200). A Request is received as source and is accepted or rejected. -/
  | requestRx (p : Fin 4) (rdo : Nat) (rev2 : Bool)
  /-- SRC_TRANSITION_START (R201). tSrcTransition passes after Accept, and the source starts moving VBUS at SRC_SLEW. -/
  | srcTransitionStart (p : Fin 4)
  /-- SRC_PS_RDY (R201). VBUS stays within ±3 % of the new voltage for 1 ms, and the source sends PS_RDY. -/
  | srcPsRdy (p : Fin 4) (vbus : Nat)
  /-- PPS_SOURCE_TIMEOUT (R202). No Request arrives within tPPSTimeout under a PPS source contract, and the port sends Hard Reset. -/
  | ppsSourceTimeout (p : Fin 4)
  /-- SINK_TX_OK (R203). The sink reads SinkTxOK, and a held sequence is sent. -/
  | sinkTxOk (p : Fin 4)
  /-- SINK_TX_WAIT_DROP (R203). A held sink sequence has waited 1 s; it is dropped and its command completes with BUSY. -/
  | sinkTxWaitDrop (p : Fin 4)
  /-- PR_SWAP_RX (R204). A PR_Swap from the partner is answered with Accept, Reject or Wait. -/
  | prSwapRx (p : Fin 4)
  /-- PR_SWAP_SOURCE_OFF (R205). tSrcTransition after a PR_Swap Accept, the old source stops sourcing and discharges VBUS. -/
  | prSwapSourceOff (p : Fin 4)
  /-- PR_SWAP_VBUS_LOW (R205). VBUS falls below 0.8 V in a swap to sink; Rp is replaced by Rd and PS_RDY is sent. -/
  | prSwapVbusLow (p : Fin 4) (vbus : Nat)
  /-- PS_RDY_RX_SWAP (R205). The partner's PS_RDY in a power-role swap is received, and the port completes its new role. -/
  | psRdyRxSwap (p : Fin 4)
  /-- SWAP_PS_RDY_TIMEOUT (R205). An expected swap PS_RDY does not arrive within its timer, and the port enters ErrorRecovery. -/
  | swapPsRdyTimeout (p : Fin 4)
  /-- VCONN_SWAP_RX (R206). A VCONN_Swap is received and accepted, answered Wait or rejected. -/
  | vconnSwapRx (p : Fin 4)
  /-- VCONN_SOURCE_TIMEOUT (R206). tVCONNSourceTimeout expires without the partner's PS_RDY; VCONN stays on and Hard Reset is sent. -/
  | vconnSourceTimeout (p : Fin 4)
  /-- DR_SWAP_RX (R207). A DR_Swap is received and passed to the host or rejected. -/
  | drSwapRx (p : Fin 4) (hdr : Fin 65536)
  /-- FRS_SIGNAL_DETECT (R208). An armed sink detects the Fast Role Swap signal; its group turns to source at 5 V and FR_Swap is sent. -/
  | frsSignalDetect (p : Fin 4)
  /-- FR_SWAP_RX (R209). FR_Swap is received after the signal; the old source accepts, presents Rd and sends PS_RDY. -/
  | frSwapRx (p : Fin 4)
  /-- FRS_SOURCE_WAIT_EXPIRY (R209). 15 ms pass without FR_Swap; the discharge continues to vSafe0V and the port enters ErrorRecovery. -/
  | frsSourceWaitExpiry (p : Fin 4)
  /-- HR_SINK_ALLOWANCE_END (R210). The 2,000 ms sink allowance after Hard Reset ends, and the port enters SNK_WAIT_CAP or detaches. -/
  | hrSinkAllowanceEnd (p : Fin 4) (vbus : Nat)
  /-- HR_SOURCE_VBUS_OFF (R210). tPSHardReset passes; the source stops, turns off VCONN and brings VBUS to vSafe0V. -/
  | hrSourceVbusOff (p : Fin 4)
  /-- HR_SOURCE_RECOVER (R210). tSrcRecover passes; the source restores vSafe5V and VCONN and sends Source_Capabilities. -/
  | hrSourceRecover (p : Fin 4)
  /-- HOST_ROUTED_RX (R213). A host-routed message is received and passed to the host as a PD_MESSAGE event, and HOST_WAIT sets. -/
  | hostRoutedRx (p : Fin 4) (sop1 needs : Bool) (kind : MsgKind) (hdr ext : Fin 65536) (data : List Byte)
  /-- HOST_REPLY_TIMEOUT (R213). HOST_TO passes without a host reply; the engine replies itself and raises HOST_TIMEOUT. -/
  | hostReplyTimeout (p : Fin 4)
  /-- TABLE_REQUEST_RX (R183). A Get_* request is received and answered in hardware from the tables and unit state. -/
  | tableRequestRx (p : Fin 4) (kind : MsgKind)
  /-- PD_SET_PORT_POLICY (R216). The command writes the port's policy fields, with REEVAL as an option. -/
  | pdSetPortPolicy
  /-- PD_SET_SOURCE_CAPS (R217). The command validates and loads the source table. -/
  | pdSetSourceCaps
  /-- PD_SET_SINK_CAPS (R218). The command loads one section of the sink table. -/
  | pdSetSinkCaps
  /-- PD_REQUEST (R219). The command holds or releases a sink contract choice and sends the Request. -/
  | pdRequest
  /-- PD_SEND_MSG (R220). The command sends a host message, or a reply under R213. -/
  | pdSendMsg (data : List Byte)
  /-- PD_SWAP_PR (R221). PD_SWAP with KIND 0x00 starts a PR_Swap. -/
  | pdSwapPr
  /-- PD_SWAP_VCONN (R221). PD_SWAP with KIND 0x01 starts a VCONN_Swap. -/
  | pdSwapVconn
  /-- PD_SWAP_DR (R221). PD_SWAP with KIND 0x02 starts a DR_Swap. -/
  | pdSwapDr
  /-- PD_HARD_RESET (R222). The command sends Hard Reset on a port. -/
  | pdHardReset
  /-- PD_PORT_DISABLE (R222). The command enables or disables a port as PDn.CTRL.DISABLE does. -/
  | pdPortDisable
  /-- PORT_DISABLE_WRITE (R188). A write of PDn.CTRL.DISABLE puts the port in Disabled with CC open, acting as a detach and a drop, or re-enables it. -/
  | portDisableWrite (ini : Initiator) (p : Fin 4) (data : Word) (full : Bool)
  /-- PORT_ERR_RECOVERY (R188). A W1S write of PDn.CTRL.ERR_RECOVERY puts the port into ErrorRecovery. -/
  | portErrRecovery (ini : Initiator) (p : Fin 4) (data : Word) (full : Bool)
  /-- HIF_ENABLE (R262). A write of HIF.CTRL.ENABLE starts or stops the ring engine and locks the base addresses. -/
  | hifEnable (ini : Initiator) (data : Word) (full : Bool)
  /-- KICK (R230). A write to HIF.KICK requests a doorbell fetch, coalesced with any fetch in progress. -/
  | kick (ini : Initiator) (data : Word) (full : Bool)
  /-- DOORBELL_POLL (R230). POLL_US passes in L0, and the unit fetches the doorbell page. -/
  | doorbellPoll
  /-- DOORBELL_FETCH_DONE (R229). Every completion of a doorbell fetch arrives; the new tails and heads are applied and checked and pending entries are released. -/
  | doorbellFetchDone (err : Nat) (page : List Byte)
  /-- ENTRY_FETCH_DONE (R246). An entry read completes; the entries are checked and started in order and SQ_HEAD advances. -/
  | entryFetchDone (q : Fin 8) (err : Nat) (data : List Byte)
  /-- IRQ_ITIME_EXPIRY (R228). ITIME passes since the first counted entry, and the ring's MSI-X vector fires. -/
  | irqItimeExpiry (ring : Fin 9)
  /-- SQ_ENABLE (R234). Setting SQ_CFG.EN enables a submission ring when allowed, or sets HIF.ERR.CFG. -/
  | sqEnable (ini : Initiator) (q : Fin 8) (data : Word) (full : Bool)
  /-- SQ_DISABLE (R234). Clearing SQ_CFG.EN stops fetching and starts draining. -/
  | sqDisable (ini : Initiator) (q : Fin 8) (data : Word) (full : Bool)
  /-- SQ_DRAIN_DONE (R234). Every outstanding command of a draining ring completes, and its STATE reads disabled. -/
  | sqDrainDone (q : Fin 8)
  /-- CQ_ENABLE (R234). Setting CQ_CFG.EN enables a completion ring with tail 0 and phase 1. -/
  | cqEnable (ini : Initiator) (q : Fin 8) (data : Word) (full : Bool)
  /-- CQ_DISABLE (R234). Clearing CQ_CFG.EN disables a completion ring, or is refused while a submission ring is bound to it. -/
  | cqDisable (ini : Initiator) (q : Fin 8) (data : Word) (full : Bool)
  /-- EVQ_ENABLE (R234). Setting EVQ_CFG.EN enables the event ring. -/
  | evqEnable (ini : Initiator) (data : Word) (full : Bool)
  /-- EVQ_DISABLE (R234). Clearing EVQ_CFG.EN disables the event ring and discards its held records. -/
  | evqDisable (ini : Initiator) (data : Word) (full : Bool)
  /-- FUNCTION_LEVEL_RESET (R260). A function-level reset, PERST# or Data Link Down resets HIF, discards unstarted commands, stops capture and empties the host mailbox. -/
  | functionLevelReset (kind : Fin 3)
  /-- BUS_MASTER_DISABLE (R260). Bus Master Enable clears or the function enters D3hot; DMA stops and completions are held. -/
  | busMasterDisable (d3 : Bool)
  /-- LINK_L1_ENTRY (R226). After 8 µs with no traffic, the unit requests L1. -/
  | linkL1Entry
  /-- NOP (R251). The command completes with the TS at execution. -/
  | nop
  /-- SET_PARAM (R252). The command does an atomic masked read-modify-write of one register. -/
  | setParam
  /-- GET_PARAM (R253). The command reads one register, with its side effects. -/
  | getParam
  /-- GET_STATUS_BLOCK (R254). The command writes a coherent 128-byte status block. -/
  | getStatusBlock
  /-- SET_EVENT_MASK (R255). The command writes HIF.EVQ_MASK, or the ALERT# mask from the EC queue. -/
  | setEventMask
  /-- CAPTURE_CONFIG (R282). The command configures a capture stream. -/
  | captureConfig
  /-- CAPTURE_ARM (R283). The command arms the named rings on one ADC frame, or forces host triggers. -/
  | captureArm (frame : Nat)
  /-- CAPTURE_STOP (R284). The command stops the named rings, closing and writing their blocks. -/
  | captureStop (cur : List FrameRun)
  /-- CAPTURE_RING_ATTACH (R285). The command attaches a ring with its base and size and sets CAP_TAIL to 0. -/
  | captureRingAttach
  /-- CAPTURE_RING_DETACH (R285). CAPTURE_RING_ATTACH with DETACH detaches a ring. -/
  | captureRingDetach
  /-- THRESHOLD_FIRE (R280). An armed threshold unit sees its crossing and fires as trigger source 0x01. -/
  | thresholdFire (n : Fin 4) (before after : Int) (frame : Nat)
  /-- CAPTURE_TRIGGER (R279). A waiting stream triggers; its pretrigger blocks are released and writing starts. -/
  | captureTrigger (c : Fin 8) (src idx frame : Nat)
  /-- CAPTURE_BLOCK_CLOSE (R268). A block reaches its frame limit or FLUSH_MS; it closes with its header and CRC, and pressure is re-evaluated. -/
  | captureBlockClose (c : Fin 8) (run : FrameRun) (lost forming : Nat)
  /-- WRITE_OUT_START (R277). The due bytes reach WM_KIB, or the oldest block waits WM_US, or a TRIG or LAST block is due, and blocks are written to host memory. -/
  | writeOutStart (corr bad : Nat)
  /-- FULL_HEAD_FETCH (R267). A stop-when-full stream refetches CAP_HEAD before the last slot, and writes the block with LAST when still full. -/
  | fullHeadFetch (c : Fin 8) (err : Nat) (page : List Byte)
  /-- PRESSURE_RESTORE (R275). The buffer fill stays below 25 % for 50 µs, and the pressure level falls by one. -/
  | pressureRestore (forming : Nat)
  /-- SLOW_RATE_APPLY (R265). 2 ms after a SLOW_RATE change, the slow channels resume at the new rate. -/
  | slowRateApply
  /-- ONESHOT_GO (R290). A write of CAP.ONESHOT.GO starts, or restarts, an averaged measurement. -/
  | oneshotGo (ini : Initiator) (data : Word) (full : Bool)
  /-- ONESHOT_DONE (R290). The averaging time ends, and ONESHOT_RES holds the new value. -/
  | oneshotDone (mean : Int)
  /-- ARP_PREPARE (R298). Prepare to ARP clears AR. -/
  | arpPrepare (pec : Pec)
  /-- ARP_RESET_DEVICE (R298). Reset Device, general or directed, clears AR and keeps the address. -/
  | arpResetDevice (directed : Option (Fin 128)) (pec : Pec)
  /-- ARP_GET_UDID (R299). Get UDID, general, runs the arbitrated UDID contest among units with AR clear. -/
  | arpGetUdid (won : Bool)
  /-- ARP_GET_UDID_DIRECTED (R298). Get UDID, directed, returns the UDID of the addressed unit. -/
  | arpGetUdidDirected (addr : Fin 128)
  /-- ARP_ASSIGN_ADDRESS (R300). Assign Address gives the matching unit its address, or refuses a reserved one. -/
  | arpAssignAddress (udid : List Byte) (addr : Fin 128) (pec : Pec) (otherCompat : Bool)
  /-- MASTER_ASSIGN_START (R301). 20 ms after boot, the master takes 0x6A and assigns follower addresses as their reports arrive. -/
  | masterAssignStart
  /-- ASSIGN_RETRY (R301). 10 ms after a failed Assign Address, the master repeats it, up to three times. -/
  | assignRetry (u : Fin 4)
  /-- SELF_ASSIGN (R301). A follower has had AV clear for 500 ms with no master, and assigns itself its address. -/
  | selfAssign
  /-- TWB_KA_ADDRESS_MATCH (R304). In KEEP-ALIVE, the detector recognises the unit's address, answers not-acknowledge and starts the wake. -/
  | twbKaAddressMatch (addr : Fin 128)
  /-- TWB_WRITE_APPLIED (R303). A native write transaction finishes being applied, and refusals for it end. -/
  | twbWriteApplied
  /-- TWB_STATUS (R308). STATUS returns the mode, the firmware state, ALERT#, the queue counts and the unit index. -/
  | twbStatus
  /-- EVENT_SUMMARY (R308). EVENT_SUMMARY returns the pending bits. -/
  | eventSummary
  /-- EVENT_ACK (R308). EVENT_ACK clears the named pending bits. -/
  | eventAck (w : TwiWrite)
  /-- LAST_RESULT (R308). LAST_RESULT returns the status and code of the last write transaction. -/
  | lastResult
  /-- LAST_EVENT (R308). LAST_EVENT returns the newest record of the named event type. -/
  | lastEvent (count typ : Nat)
  /-- REG_READ (R309). REG_READ reads one register as initiator 3. -/
  | regRead (count addr : Nat)
  /-- REG_WRITE (R309). REG_WRITE writes one register as initiator 3. -/
  | regWrite (w : TwiWrite)
  /-- CMD_SUBMIT (R310). CMD_SUBMIT places an entry in a free EC queue slot, or discards it with BUSY. -/
  | cmdSubmit (w : TwiWrite)
  /-- CPL_READ (R310). CPL_READ returns the oldest EC completion. -/
  | cplRead
  /-- CPL_POP (R310). CPL_POP removes the oldest EC completion and frees its slot. -/
  | cplPop (w : TwiWrite)
  /-- RESULT_LO (R310). RESULT_LO returns bytes 0 to 127 of the oldest completion's result area. -/
  | resultLo
  /-- RESULT_HI (R310). RESULT_HI returns bytes 128 to 255 of that area. -/
  | resultHi
  /-- MBX_READ (R405). MBX_READ returns the word to the EC and clears U2E_FULL. -/
  | mbxRead
  /-- MBX_WRITE (R405). MBX_WRITE writes the word to the unit, or is refused with BUSY. -/
  | mbxWrite (w : TwiWrite)
  /-- MBX_ACK_WRITE (R405). MBX_ACK_WRITE writes the EC's acknowledge and clears U2E_WAIT. -/
  | mbxAckWrite (w : TwiWrite)
  /-- MBX_ACK_READ (R405). MBX_ACK_READ returns the unit's acknowledge status. -/
  | mbxAckRead
  /-- COMPAT_WRITE (R316). A write at 0x6B sets the pointer and writes the compatibility-file bytes with their mapped actions. -/
  | compatWrite (data : List Byte) (lost : Bool)
  /-- COMPAT_READ (R316). A read at 0x6B returns bytes from a coherent snapshot of the file. -/
  | compatRead (n : Nat)
  /-- ALERT_RESPONSE (R313). A read from 0x0C runs address arbitration, and the winner releases ALERT#. -/
  | alertResponse (won : Bool)
  /-- HOST_NOTIFY (R314). A pending bit sets and NOTIFY_HOLD has passed, and the unit sends Host Notify to 0x08 as controller. -/
  | hostNotify (r : NotifyEnd)
  /-- HOST_NOTIFY_RETRY (R315). The bus stays free for tBUF + 50 µs × k after a failed attempt, and Host Notify is retried or given up after eight failures. -/
  | hostNotifyRetry (r : NotifyEnd)
  /-- SCL_TIMEOUT (R306). SCL stays low for 25 ms to 35 ms in a transaction; the interface resets and SCL_TO sets. -/
  | sclTimeout (inNotify : Bool)
  /-- SDA_TIMEOUT (R306). The unit has driven SDA low for 25 ms; it releases SDA and resets the interface. -/
  | sdaTimeout
  /-- SDA_STUCK (R306). Another device holds SDA low with SCL high for 35 ms, and STUCK sets. -/
  | sdaStuck
  /-- CSC_FRAME_START (R323). Every 10 µs, U0 starts a frame and sends its master slot. -/
  | cscFrameStart (own : Nat × Nat × Nat)
  /-- CSC_SLOT_RX (R324). A slot is received and checked; its strings, reports, flags, tunnel data and summaries are taken. -/
  | cscSlotRx (u : Fin 4) (x : SlotIn) (own : Nat × Nat × Nat)
  /-- CSC_DISCOVERY_END (R322). 100 ms after boot, the discovery window ends; EXPECT loads and a cascade of one stops the link. -/
  | cscDiscoveryEnd
  /-- FOLLOWER_READMIT (R326). After 16 consecutive valid reports, U0 counts a follower in the budget again. -/
  | followerReadmit (u : Fin 4) (addressed : Bool)
  /-- LOCAL_FALLBACK_LEAVE (R326). A follower hears 16 consecutive master frames and takes its strings from U0 again. -/
  | localFallbackLeave
  /-- TWO_MASTERS (R328). A master hears a master slot it did not send; it stops sending and runs alone. -/
  | twoMasters
  /-- INDEX_CLASH (R328). A follower slot fails its CRC in 3 frames with energy present, and U0 excludes the index. -/
  | indexClash (u : Fin 4)
  /-- SYNC_LOCK (R329). The locked groups reach ±1.0 ns of their targets, and SYNC_LOCK sets. -/
  | syncLock (half : Nat)
  /-- SYNC_LOST (R329). No CSC_SYNC edge arrives for 4 expected periods; the group runs free and SYNC_LOST sets. -/
  | syncLost
  /-- PAR_CFG_APPLY (R330). A held PAR_CFG write applies once the local group's bus is empty. -/
  | parCfgApply
  /-- TUNNEL_TIMEOUT (R331). A tunnelled request has no reply 5 frames after it was sent, and it ends with TIMEOUT. -/
  | tunnelTimeout
  /-- CSC_SLEEP_ENTER (R333). After three frames of sleep flag with no refusal, every follower and then U0 enter KEEP-ALIVE. -/
  | cscSleepEnter
  /-- CSC_WAKE_BURST (R333). A sleeping member detects a wake burst on the cascade link and wakes. -/
  | cscWakeBurst
  /-- CSC_WAKE_NO_MASTER (R333). A woken follower hears no master frame within 1 ms and proceeds by R150. -/
  | cscWakeNoMaster
  /-- CASCADE_STATUS (R337). The command returns the cascade entry of one unit or of all units. -/
  | cascadeStatus
  /-- CASCADE_REMOTE_READ (R338). CASCADE_REMOTE_ACCESS with OP 0x00 reads a register of another unit. -/
  | cascadeRemoteRead
  /-- CASCADE_REMOTE_WRITE (R338). CASCADE_REMOTE_ACCESS with OP 0x01 masked-writes a register of another unit. -/
  | cascadeRemoteWrite
  /-- THERMAL_SAMPLE (R342). Every 1 ms or 50 µs, every sensor is sampled, cross-checked, T_J and the zone are updated and the fast rate may be entered. -/
  | thermalSample (die : List Int) (ntc : List NtcReading)
  /-- SAMPLE_RATE_SLOW (R342). Every sensor stands more than 12 °C from its limits for 100 ms, and sampling returns to 1 ms. -/
  | sampleRateSlow
  /-- THERMAL_SHUTDOWN_TRIP (R348). The shutdown comparators vote for 10 µs; SD_LATCH sets and the unit enters SAFE with cause 0x1. -/
  | thermalShutdownTrip (sensors marks : Fin 4096)
  /-- SENSOR_REINSTATE (R352). The command clears the named suspect marks and restarts their counts. -/
  | sensorReinstate
  /-- JACK_PERIOD_START (R357). The period's closing tick arrives; the period is judged, faults escalate, the LFSR steps and the check-ins clear. -/
  | jackPeriodStart
  /-- JACK_ANSWER (R361). A write to WDG.ANSWER is judged; it may mark the firmware's return or a faulty period. -/
  | jackAnswer (ini : Initiator) (data : Word) (full : Bool) (tick : Nat)
  /-- JACK_CHECKIN (R360). A write to WDG.CHECKIN checks tasks in, or faults a double, late or unknown check-in. -/
  | jackCheckin (ini : Initiator) (data : Word) (full : Bool)
  /-- CORE_FAULT_RESET (R362). A lockstep mismatch or a core ECC error causes a warm reset recorded in LAST_CAUSE. -/
  | coreFaultReset (ecc app : Bool)
  /-- FALLBACK_EXPIRY (R364). The 2 s fallback timer expires; layer 1 moves to the stand-alone behaviour and FW reads 0b10. -/
  | fallbackExpiry (cur : List FrameRun)
  /-- JACK_KEY (R366). A write to WDG.KEY advances or breaks the disable key sequence. -/
  | jackKey (ini : Initiator) (data : Word) (full late : Bool)
  /-- JACK_DISABLE (R366). A write of 1 to WDG.CTRL.DIS completes the key sequence and disables Jack, or is refused. -/
  | jackDisable (ini : Initiator) (data : Word) (full late : Bool)
  /-- JACK_ENABLE (R366). A write of 0 to WDG.CTRL.DIS re-enables Jack with a fresh period. -/
  | jackEnable (ini : Initiator) (data : Word) (full : Bool)
  /-- JACK_LOCK (R366). A write of 1 to WDG.CTRL.LOCK refuses every later disable sequence. -/
  | jackLock (ini : Initiator) (data : Word) (full : Bool)
  /-- SELF_TEST (R371). The command runs the selected self-tests and returns the 32-byte result. -/
  | selfTest (r : SelfTestOutcome)
  /-- RAIL_ENABLE (R379). A waiting rail's dependencies stay good for DELAY; the rail enables and enters RAMP. -/
  | railEnable (n : Fin 12)
  /-- RAIL_GOOD (R379). A ramping rail reads good before PG_TO and enters GOOD. -/
  | railGood (n : Fin 12)
  /-- RAIL_PG_TIMEOUT (R381). PG_TO passes in RAMP; the rail enters FAULT and its ACTION applies. -/
  | railPgTimeout (n : Fin 12)
  /-- RAIL_LOSS_OF_GOOD (R381). A GOOD rail loses good; it enters FAULT and its ACTION applies. -/
  | railLossOfGood (n : Fin 12)
  /-- RAIL_DISABLE (R380). A held rail's dependents read off and OFF_DELAY passes; the rail disables and enters FALL. -/
  | railDisable (n : Fin 12)
  /-- RAIL_OFF (R380). A falling rail reads off and enters OFF. -/
  | railOff (n : Fin 12)
  /-- RAIL_STUCK (R383). A rail does not read off within STUCK_TO; it enters STUCK and its dependency proceeds. -/
  | railStuck (n : Fin 12)
  /-- LATCHED_POWER_UP (R382). T_MINOFF passes after a power-down with an on request latched, and the power-up begins. -/
  | latchedPowerUp
  /-- AUX_OVERLOAD (R376). An AUX buck's current limit binds for 1 ms; it stops, OCP sets and the rail counts a loss of good. -/
  | auxOverload (n : Fin 4)
  /-- AUX_UVLO (R376). VSYS falls below 2.7 V, and every AUX buck stops as a loss of good. -/
  | auxUvlo (vsys : Nat)
  /-- RAIL_CONFIG (R386). The command configures one rail's parameters. -/
  | railConfig
  /-- RAIL_ON (R385). The command starts one rail. -/
  | railOn
  /-- RAIL_OFF_CMD (R385). The RAIL_OFF command stops one rail and its dependents. -/
  | railOffCmd
  /-- SEQ_PLATFORM_ON (R385). The command starts the platform group of rails. -/
  | seqPlatformOn
  /-- SEQ_PLATFORM_OFF (R385). The command stops the platform group of rails. -/
  | seqPlatformOff
  /-- TS_LO_READ (R391). A read of TMR.TS_LO samples TS and latches TS[63:32] for the reader. -/
  | tsLoRead (ini : Initiator)
  /-- AON_CMP_APPLY (R392). A write of CMP_HI applies the compare pair once it has crossed, and may fire at once. -/
  | aonCmpApply (n : Fin 8) (frame : Nat)
  /-- AON_CMP_FIRE (R392). TS reaches the compare value; FIRED sets, the channel may wake the unit and trigger capture, and reloads by PERIOD. -/
  | aonCmpFire (n : Fin 8) (frame : Nat)
  /-- FT_ENABLE (R394). Setting EN starts a fast timer from CNT in the mode's direction. -/
  | ftEnable (ini : Initiator) (n : Fin 16) (data : Word) (full : Bool)
  /-- FT_DISABLE (R394). Clearing EN holds the count. -/
  | ftDisable (ini : Initiator) (n : Fin 16) (data : Word) (full : Bool) (count : Nat) (up : Bool)
  /-- FT_CNT_WRITE (R394). A write to CNT loads the count, setting the direction at the ends in up-down mode. -/
  | ftCntWrite (ini : Initiator) (n : Fin 16) (data : Word) (full : Bool) (up : Bool)
  /-- FT_TOP_WRITE (R394). A write to TOP applies at once and may end the period. -/
  | ftTopWrite (ini : Initiator) (n : Fin 16) (data : Word) (full : Bool) (count : Nat) (up : Bool)
  /-- FT_CMP_WRITE (R396). A write to CMPk is judged against the count and may fire at once. -/
  | ftCmpWrite (ini : Initiator) (n : Fin 16) (k : Fin 2) (data : Word) (full : Bool) (count : Nat) (up : Bool) (frame : Nat)
  /-- FT_COMPARE_MATCH (R395). A step reaches CMPk in an allowed direction; the status sets, the output acts, capture triggers and CMP1_STOP may stop the timer. -/
  | ftCompareMatch (n : Fin 16) (k : Fin 2) (up : Bool) (frame : Nat)
  /-- FT_WRAP (R393). A fast timer ends its period, and WRAP sets. -/
  | ftWrap (n : Fin 16)
  /-- FT_CAPTURE_NOW (R397). A write of 1 to CAP_NOW captures the count. -/
  | ftCaptureNow (ini : Initiator) (n : Fin 16) (data : Word) (full : Bool) (count : Nat) (up : Bool)
  /-- FT_CAPTURE_EDGE (R397). The selected GPIO edge captures the count, setting NEW or OVR. -/
  | ftCaptureEdge (n : Fin 16) (rise : Bool) (count : Nat) (up : Bool)
  /-- FT_CAPT_READ (R397). A read of FT_CAPT returns the value and clears NEW. -/
  | ftCaptRead (ini : Initiator) (n : Fin 16)
  /-- DEBUG_HALT (R399). A debugger halts the application core, and timers with DBG_FREEZE set hold their counts. -/
  | debugHalt (counts : List (Nat × Bool))
  /-- H2U_PUSH (R401). A host write to H2U_DATA queues one word, or drops it and sets H2U_OVF. -/
  | h2uPush (ini : Initiator) (data : Word) (full : Bool)
  /-- MBX_MESSAGE_SERVE (R402). A complete host message stands in the queue with VALID clear; the unit takes it, replies and writes H2U_ACK. -/
  | mbxMessageServe
  /-- H2U_ACK_READ (R402). A read of H2U_ACK returns it and clears VALID. -/
  | h2uAckRead (ini : Initiator)
  /-- U2H_POP (R401). A read of U2H_DATA by the host removes the oldest word. -/
  | u2hPop (ini : Initiator)
  /-- U2H_ACK_WRITE (R403). The host acknowledges a reply by tag, or sets ACK_ERR. -/
  | u2hAckWrite (ini : Initiator) (data : Word) (full : Bool)
  /-- ECHO (R402). Service 0x01 returns the message unchanged. -/
  | echo
  /-- FW_INFO (R429). Service 0x10 returns the firmware status, versions, rollback counter and log status. -/
  | fwInfo
  /-- LOG_ENTRY (R429). Service 0x11 returns half of a log entry. -/
  | logEntry
  /-- DBG_UNLOCK (R430). Service 0x12 takes a signature chunk and, after chunk 1, enables debug when the signature verifies. -/
  | dbgUnlock (verifies : Bool)
  /-- DBG_LOCK (R429). Service 0x13 clears DBG_EN. -/
  | dbgLock
  /-- RECOVER_WRITE (R429). Service 0x30 writes bank 0 in recovery. -/
  | recoverWrite
  /-- RECOVER_BOOT (R429). Service 0x31 verifies bank 0 and boots it. -/
  | recoverBoot (img : ImageCheck)
  /-- EC2U_TAKE (R405). The application core reads EC2U, and E2U_FULL clears. -/
  | ec2uTake
  /-- UNIT_ACK_WRITE (R405). The application core writes UNIT_ACK with a status. -/
  | unitAckWrite (ini : Initiator) (data : Word) (full : Bool)
  /-- U2EC_SEND (R405). The application core writes U2EC; FULL and WAIT set and pending bit 15 sets. -/
  | u2ecSend (ini : Initiator) (data : Word) (full : Bool)
  /-- LOCK_READ (R406). A read of MBX.LOCKn acquires a free lock or reports its owner. -/
  | lockRead (ini : Initiator) (n : Fin 16)
  /-- LOCK_WRITE (R406). A write of MBX.LOCKn by the owner releases the lock; any other write is refused and recorded. -/
  | lockWrite (ini : Initiator) (n : Fin 16) (data : Word) (full : Bool)
  /-- FW_STAGE (R418). The command copies an image chunk into the inactive bank and verifies it on LAST. -/
  | fwStage (readOk storeOk : Bool) (img : ImageCheck)
  /-- FW_ACTIVATE (R419). The command starts the Seesaw activation and its control gap. -/
  | fwActivate
  /-- ACTIVATION_TIMEOUT (R419). The new cores miss their 15 ms or 50 ms deadline, or fault; the cores return to the old bank. -/
  | activationTimeout (supervisor : Bool)
  /-- PROBATION_END (R419). 60 s pass without a warm reset; TRIAL clears and the rollback counter advances. -/
  | probationEnd (fuseOk : Bool)
  /-- FW_ABORT (R420). The command invalidates the staged image, or returns to the old bank during a probation. -/
  | fwAbort
  /-- CONFIG_COMMIT_IMAGE (R423). CONFIG_COMMIT with SOURCE 0x01 reads, checks and writes an image into the inactive slot and activates it. -/
  | configCommitImage (readOk storeOk : Bool) (image : List Byte)
  /-- CONFIG_COMMIT_SWAP (R423). CONFIG_COMMIT with SOURCE 0x00 makes the other slot active. -/
  | configCommitSwap (storeOk : Bool)
  /-- LOG_ENTRY_WRITE (R425). The supervisor writes a queued fault-log entry in three steps. -/
  | logEntryWrite
  /-- LOG_WRITE_ABANDON (R425). VSYS falls below 2.9 V before the commit marker; the entry is abandoned and ABANDON_CNT increments. -/
  | logWriteAbandon (vsys : Nat)
  /-- LOG_READ (R428). The command returns the valid log entries from START. -/
  | logRead
  /-- LOG_CLEAR (R428). The command invalidates every entry and writes a clear entry. -/
  | logClear
  /-- GPIO_EDGE (R458). An edge on a GPIO ball feeds GPIO_EVENT, capture triggers, timer captures and wake, as configured. -/
  | gpioEdge (n : Fin 8) (rise : Bool) (frame : Nat)
  /-- GPIO_CFG_WRITE (R459). A write of PIN.GPIO_CFGn applies in its cycle, changing the drive, pull and function of the ball. -/
  | gpioCfgWrite (ini : Initiator) (n : Fin 8) (data : Word) (full : Bool)
  /-- GOODCRC_RX (R179). GoodCRC for a transmitted message is received; the transmission ends as delivered, stopping repeats and completing a PD_SEND_MSG with SUCCESS. -/
  | goodcrcRx (p : Fin 4)
  /-- SINK_CAPS_RX (R209). The partner's Sink_Capabilities are received as source, and Fast Role Swap sending is armed when they carry a non-zero FRS current. -/
  | sinkCapsRx (p : Fin 4) (objs : List Nat)
  /-- SWAP_REPLY_RX (R221). The partner's Accept, Reject or Wait answering a PR_Swap, VCONN_Swap, DR_Swap or FR_Swap is received, and the swap proceeds or PD_SWAP completes. -/
  | swapReplyRx (p : Fin 4) (reply : Fin 3)
  /-- SOFT_RESET_ACCEPT_RX (R193). The Accept to a Soft_Reset that the port sent is received, ending the Soft_Reset before tSenderResponse. -/
  | softResetAcceptRx (p : Fin 4)
  /-- EPR_KEEPALIVE_ACK_RX (R198). EPR_KeepAlive_Ack is received, and the pending keep-alive is satisfied. -/
  | eprKeepaliveAckRx (p : Fin 4)
  /-- CABLE_IDENTITY_RX (R184). The cable's Discover Identity reply on SOP' is received, and PDn.CABLE records the cable's rating, VMAX, EPR and construction. -/
  | cableIdentityRx (p : Fin 4) (amps5 epr active rev2 : Bool) (vmax : Fin 4) (vid : Fin 65536)
  /-- CHUNK_RX (R182). A chunk or chunk request of an extended message is received, and the chunked exchange advances. -/
  | chunkRx (p : Fin 4) (sop1 : Bool) (kind : MsgKind) (hdr ext : Fin 65536) (bytes : List Byte)
  /-- TSINKTX_EXPIRY (R181). tSinkTx passes after a source sets SinkTxNG, and the source starts its atomic message sequence. -/
  | tsinktxExpiry (p : Fin 4)
  /-- HR_SINK_VBUS_RETURN (R210). After a sink Hard Reset, VBUS returns to vSafe5V after having fallen below the detach level, and the port enters SNK_WAIT_CAP. -/
  | hrSinkVbusReturn (p : Fin 4) (vbus : Nat)
  /-- ATTACH_WAIT_CC_OPEN (R162). The partner's termination disappears from CC while the port is in AttachWait, and the port returns to its unattached state. -/
  | attachWaitCcOpen (p : Fin 4)
  /-- BUS_MASTER_ENABLE (R260). Bus Master Enable is set again or the function returns to D0; DMA resumes and held completions and records are written. -/
  | busMasterEnable (d0 : Bool)
  /-- PERST_DEASSERT (R455). PCIe PERST# deasserts outside KEEP-ALIVE, and link training starts so the link can come up. -/
  | perstDeassert (trained : Bool)
  /-- DEBUG_RESUME (R399). The debugger releases the application core, and the fast timers with DBG_FREEZE set resume counting. -/
  | debugResume
  /-- FW_ACTIVATE_WAIT_TIMEOUT (R419). FW_ACTIVATE has waited 100 ms for the other outstanding commands to complete, and it completes with BUSY. -/
  | fwActivateWaitTimeout
  deriving DecidableEq, Repr

end Sys2Proof
end

