-- ==== Sys2Proof/Decode.lean ====
section
/-! DEFINITION. Command words. The opcode table of this block gives its rows no bits: the spec encodes no command as a word of
an instruction set (entries, messages and bus transactions are operands or state), so no word spells a command. -/

namespace Sys2Proof

/-- The command that a word spells by the table's bits: none, since no row has bits. -/
def decodeTableWord (_nbits _w : Nat) : Option Instr := none

end Sys2Proof
end

