-- ==== Sys2Proof/Machine/Field.lean ====
section
/-! DEFINITION. Bit fields, register descriptors and byte order: a field's value is read and written as a number
(R7), a signed field in two's complement (R8, R10), and multi-byte values are little-endian (R237, R307). -/

namespace Sys2Proof.Machine

/-- A register field: the register's address, the field's lowest bit and its width. -/
structure Fld where
  addr  : Nat
  lo    : Nat
  width : Nat
  deriving DecidableEq, Repr

/-- The mask of `width` bits from bit `lo` up. -/
def fieldMask (lo width : Nat) : Word := BitVec.ofNat 32 ((2 ^ width - 1) * 2 ^ lo)

/-- The value of the field of `width` bits at bit `lo`. -/
def getBits (w : Word) (lo width : Nat) : Nat := w.toNat / 2 ^ lo % 2 ^ width

/-- `w` with the field of `width` bits at bit `lo` set to `v` (modulo the field). -/
def putBits (w : Word) (lo width v : Nat) : Word :=
  (w &&& ~~~ fieldMask lo width) ||| BitVec.ofNat 32 (v % 2 ^ width * 2 ^ lo)

/-- The two's-complement reading of a field value. -/
def toSigned (width v : Nat) : Int := if v < 2 ^ (width - 1) then (v : Int) else (v : Int) - 2 ^ width

/-- A signed quantity as a field value, at the nearest representable value (R8). -/
def ofSignedSat (width : Nat) (x : Int) : Nat :=
  let top : Int := 2 ^ (width - 1) - 1
  let bot : Int := -(2 ^ (width - 1))
  let y := if x > top then top else if x < bot then bot else x
  (y % 2 ^ width).toNat

/-- An unsigned quantity at the nearest representable value (R8). -/
def satNat (width v : Nat) : Nat := if v < 2 ^ width then v else 2 ^ width - 1

/-- The access types of R5. -/
inductive Access where
  | rw | ro | w1c | w1s | wo | rc | rwl
  deriving DecidableEq, Repr

/-- The reset domains of R6. -/
inductive Dom where
  | aon | warm | host
  deriving DecidableEq, Repr

/-- What a field's table documents of its values (R9): any value, a numeric range (unsigned or signed), or the defined
codes of an enumerated field. -/
inductive Limit where
  | any
  | rng (lo hi : Nat)
  | srng (lo hi : Int)
  | codes (cs : List Nat)
  deriving DecidableEq, Repr

/-- One row of a register table: lowest bit, width, access, reset value, reset domain and documented values. -/
structure FieldDesc where
  lo    : Nat
  width : Nat
  acc   : Access
  reset : Nat
  dom   : Dom
  lim   : Limit
  deriving DecidableEq, Repr

/-- A register, or an array of registers in up to two dimensions (R436). -/
structure RegDesc where
  base    : Nat
  stride  : Nat
  count   : Nat
  stride2 : Nat
  count2  : Nat
  fields  : List FieldDesc
  deriving DecidableEq, Repr

/-- A block of the address space (R434). -/
structure Block where
  first : Nat
  last  : Nat
  priv  : Bool
  regs  : List RegDesc
  deriving DecidableEq, Repr

/-- Address `a` is `base + stride * i` for some `i < count`. -/
def inStride (base stride count a : Nat) : Bool :=
  base ≤ a && (if stride = 0 then a = base else (a - base) % stride = 0 && (a - base) / stride < count)

/-- The register stands at address `a`. -/
def RegDesc.at (d : RegDesc) (a : Nat) : Bool :=
  d.base ≤ a &&
    (if d.count2 ≤ 1 then inStride d.base d.stride d.count a
     else
      let i := if d.stride = 0 then 0 else (a - d.base) / d.stride
      i < d.count && inStride (d.base + i * d.stride) d.stride2 d.count2 a)

/-- The reset word of a register, from its fields. -/
def RegDesc.resetWord (d : RegDesc) : Word :=
  d.fields.foldl (fun w f => putBits w f.lo f.width f.reset) 0

/-- The implemented bits of a register: every other bit is reserved and reads 0 (R441). -/
def RegDesc.implMask (d : RegDesc) : Word :=
  d.fields.foldl (fun w f => w ||| fieldMask f.lo f.width) 0

/-- The bits of a register that a reset of domain `m` restores (R6). -/
def RegDesc.domMask (d : RegDesc) (m : Dom) : Word :=
  d.fields.foldl (fun w f => if f.dom = m then w ||| fieldMask f.lo f.width else w) 0

/-- The bits of a register with access type `t`. -/
def RegDesc.accMask (d : RegDesc) (t : Access) : Word :=
  d.fields.foldl (fun w f => if f.acc = t then w ||| fieldMask f.lo f.width else w) 0

/-- A number as `n` bytes, least significant first (R237). -/
def leBytes : Nat → Nat → List Byte
  | 0, _ => []
  | n + 1, v => BitVec.ofNat 8 v :: leBytes n (v / 256)

/-- The number that bytes carry, least significant first. -/
def ofLe : List Byte → Nat
  | [] => 0
  | b :: bs => b.toNat + 256 * ofLe bs

/-- `n` bytes from offset `k`; bytes beyond the end read 0. -/
def sliceBytes (bs : List Byte) (k n : Nat) : List Byte :=
  let t := (bs.drop k).take n
  t ++ List.replicate (n - t.length) 0

/-- The little-endian number in `n` bytes at offset `k`. -/
def leAt (bs : List Byte) (k n : Nat) : Nat := ofLe (sliceBytes bs k n)

/-- The byte at offset `k`, as a number. -/
def byteAt (bs : List Byte) (k : Nat) : Nat := (bs.getD k 0).toNat

/-- Bit `k` of a number. -/
def bitAt (v k : Nat) : Bool := v / 2 ^ k % 2 = 1

/-- `v` with bit `k` set. -/
def setBitAt (v k : Nat) : Nat := if bitAt v k then v else v + 2 ^ k

/-- `v` with bit `k` cleared. -/
def clearBitAt (v k : Nat) : Nat := if bitAt v k then v - 2 ^ k else v

/-- The number of bits set among bits 0 to `n - 1`. -/
def popCount : Nat → Nat → Nat
  | 0, _ => 0
  | n + 1, v => v % 2 + popCount n (v / 2)

/-- 1 for true, 0 for false. -/
def ofBool (b : Bool) : Nat := if b then 1 else 0

end Sys2Proof.Machine
end

