-- ==== Sys2Proof/Machine/RegMap.lean ====
section
/-! DEFINITION. The register map (18_register_map.md R434 to R442): one descriptor per register or array of
registers, with the fields, access types (R5), reset values, reset domains (R6) and documented ranges (R9) of the
register tables R25, R50, R74, R75, R101, R133, R134, R157, R188, R223, R262, R263, R227, R290 to R292, R319, R339,
R354, R355, R374, R389, R390, R409 to R412, R433 and R460. A field that a table resets from a strap, a fuse, an image
or a boot step has here the value it holds before that step (log entry 4). -/

namespace Sys2Proof.Machine.RegMap

/-- The registers of the block at 0x0000 to 0x03FF. -/
def regsGlb : List RegDesc :=
  [⟨0x0000, 0x0, 1, 0x0, 1, -- GLB_ID
    [⟨16, 16, .ro, 0x1D5A, .aon, .any⟩,
     ⟨0, 16, .ro, 0x4896, .aon, .any⟩]⟩,
  ⟨0x0004, 0x0, 1, 0x0, 1, -- GLB_REV
    [⟨8, 8, .ro, 0xB0, .aon, .any⟩,
     ⟨2, 1, .ro, 0x0, .aon, .any⟩,
     ⟨0, 2, .ro, 0x0, .aon, .any⟩]⟩,
  ⟨0x0010, 0x0, 1, 0x0, 1, -- GLB_CLK_STATUS
    [⟨15, 1, .ro, 0x0, .aon, .any⟩,
     ⟨14, 1, .ro, 0x0, .aon, .any⟩,
     ⟨13, 1, .ro, 0x0, .aon, .any⟩,
     ⟨12, 1, .ro, 0x0, .aon, .any⟩,
     ⟨0, 10, .ro, 0x1, .aon, .any⟩]⟩,
  ⟨0x0014, 0x0, 1, 0x0, 1, -- GLB_CLK_EVENT
    [⟨2, 1, .w1c, 0x0, .aon, .any⟩,
     ⟨1, 1, .w1c, 0x0, .aon, .any⟩,
     ⟨0, 1, .w1c, 0x0, .aon, .any⟩]⟩,
  ⟨0x0020, 0x0, 1, 0x0, 1, -- GLB_ACC_ERR_ADDR
    [⟨0, 16, .ro, 0x0, .warm, .any⟩]⟩,
  ⟨0x0024, 0x0, 1, 0x0, 1, -- GLB_ACC_ERR_INFO
    [⟨31, 1, .w1c, 0x0, .warm, .any⟩,
     ⟨8, 16, .ro, 0x0, .warm, .any⟩,
     ⟨4, 4, .ro, 0x0, .warm, .any⟩,
     ⟨3, 1, .ro, 0x0, .warm, .any⟩,
     ⟨0, 3, .ro, 0x0, .warm, .any⟩]⟩]

/-- The registers of the block at 0x0400 to 0x07FF. -/
def regsMod : List RegDesc :=
  [⟨0x0400, 0x0, 1, 0x0, 1, -- MOD_MODE_STATUS
    [⟨24, 8, .ro, 0x0, .aon, .any⟩,
     ⟨20, 4, .ro, 0x0, .aon, .any⟩,
     ⟨17, 3, .ro, 0x0, .aon, .any⟩,
     ⟨16, 1, .ro, 0x0, .aon, .any⟩,
     ⟨15, 1, .ro, 0x0, .aon, .any⟩,
     ⟨14, 1, .ro, 0x0, .aon, .any⟩,
     ⟨13, 1, .ro, 0x0, .aon, .any⟩,
     ⟨0, 4, .ro, 0x2, .aon, .any⟩]⟩,
  ⟨0x0404, 0x0, 1, 0x0, 1, -- MOD_STRAP
    [⟨31, 1, .ro, 0x0, .aon, .any⟩,
     ⟨20, 4, .ro, 0x0, .aon, .any⟩,
     ⟨17, 3, .ro, 0x0, .aon, .any⟩,
     ⟨14, 3, .ro, 0x0, .aon, .any⟩,
     ⟨11, 3, .ro, 0x0, .aon, .any⟩,
     ⟨8, 3, .ro, 0x0, .aon, .any⟩,
     ⟨3, 1, .ro, 0x0, .aon, .any⟩,
     ⟨2, 1, .ro, 0x0, .aon, .any⟩,
     ⟨0, 2, .ro, 0x0, .aon, .any⟩]⟩,
  ⟨0x0408, 0x0, 1, 0x0, 1, -- MOD_PWRBTN_CFG
    [⟨27, 1, .rw, 0x0, .aon, .any⟩,
     ⟨16, 11, .rw, 0x190, .aon, .rng 100 2000⟩,
     ⟨0, 5, .rw, 0xC, .aon, .rng 4 16⟩]⟩,
  ⟨0x040C, 0x0, 1, 0x0, 1, -- MOD_LOWPWR_CFG
    [⟨31, 1, .rw, 0x0, .aon, .any⟩,
     ⟨21, 10, .rw, 0x14, .aon, .rng 1 1000⟩,
     ⟨11, 10, .rw, 0x64, .aon, .rng 1 1000⟩,
     ⟨0, 11, .rw, 0x578, .aon, .rng 1250 1600⟩]⟩,
  ⟨0x0410, 0x0, 1, 0x0, 1, -- MOD_SAFE_CFG
    [⟨0, 16, .rw, 0x0, .aon, .rng 5000 26000⟩]⟩,
  ⟨0x0420, 0x0, 1, 0x0, 1, -- MOD_MATRIX_CFG
    [⟨16, 8, .rw, 0x32, .aon, .rng 20 200⟩,
     ⟨8, 1, .rw, 0x0, .aon, .any⟩,
     ⟨4, 4, .rw, 0x0, .aon, .any⟩,
     ⟨0, 4, .rw, 0xF, .aon, .any⟩]⟩,
  ⟨0x0424, 0x0, 1, 0x0, 1, -- MOD_MATRIX_STATUS
    [⟨12, 4, .ro, 0x0, .aon, .any⟩,
     ⟨8, 4, .ro, 0x0, .aon, .any⟩,
     ⟨7, 1, .ro, 0x0, .aon, .any⟩,
     ⟨6, 1, .ro, 0x1, .aon, .any⟩,
     ⟨4, 2, .ro, 0x0, .aon, .any⟩,
     ⟨3, 1, .ro, 0x0, .aon, .any⟩,
     ⟨2, 1, .ro, 0x1, .aon, .any⟩,
     ⟨0, 2, .ro, 0x0, .aon, .any⟩]⟩,
  ⟨0x0428, 0x0, 1, 0x0, 1, -- MOD_VSYS_CFG
    [⟨16, 16, .rw, 0x0, .aon, .rng 3000 23000⟩,
     ⟨0, 16, .rw, 0x0, .aon, .rng 3000 18500⟩]⟩,
  ⟨0x042C, 0x0, 1, 0x0, 1, -- MOD_VSYS_STATUS
    [⟨16, 16, .ro, 0x0, .aon, .any⟩,
     ⟨0, 16, .ro, 0x0, .aon, .any⟩]⟩,
  ⟨0x0430, 0x0, 1, 0x0, 1, -- MOD_BATFET_CFG
    [⟨24, 8, .rw, 0x14, .aon, .rng 10 100⟩,
     ⟨16, 8, .rw, 0x64, .aon, .rng 50 255⟩,
     ⟨0, 16, .rw, 0x7D0, .aon, .rng 500 5000⟩]⟩,
  ⟨0x0434, 0x0, 1, 0x0, 1, -- MOD_BATFET_STATUS
    [⟨6, 1, .w1c, 0x0, .aon, .any⟩,
     ⟨5, 1, .ro, 0x0, .aon, .any⟩,
     ⟨4, 1, .ro, 0x0, .aon, .any⟩,
     ⟨0, 2, .ro, 0x0, .aon, .any⟩]⟩,
  ⟨0x0438, 0x0, 1, 0x0, 1, -- MOD_BAT_MEAS
    [⟨16, 16, .ro, 0x0, .aon, .any⟩,
     ⟨0, 16, .ro, 0x0, .aon, .any⟩]⟩] ++
  [⟨0x043C, 0x0, 1, 0x0, 1, -- MOD_SYS_MEAS
    [⟨16, 16, .ro, 0x0, .aon, .any⟩,
     ⟨0, 9, .rw, 0x64, .aon, .rng 50 500⟩]⟩,
  ⟨0x0440, 0x10, 2, 0x0, 1, -- MOD_IN_CFG
    [⟨24, 8, .rw, 0x55, .aon, .rng 70 95⟩,
     ⟨16, 8, .rw, 0x5A, .aon, .rng 75 98⟩,
     ⟨0, 16, .rw, 0x9C4, .aon, .srng (50) (5000)⟩]⟩,
  ⟨0x0444, 0x10, 2, 0x0, 1, -- MOD_IN_HW
    [⟨16, 16, .ro, 0x0, .aon, .any⟩,
     ⟨0, 10, .rw, 0xC8, .aon, .rng 100 1000⟩]⟩,
  ⟨0x0448, 0x10, 2, 0x0, 1, -- MOD_IN_MEAS
    [⟨16, 16, .ro, 0x0, .aon, .any⟩,
     ⟨0, 16, .ro, 0x0, .aon, .any⟩]⟩,
  ⟨0x044C, 0x10, 2, 0x0, 1, -- MOD_IN_STATE
    [⟨16, 16, .ro, 0x0, .aon, .any⟩,
     ⟨7, 1, .w1c, 0x0, .aon, .any⟩,
     ⟨6, 1, .w1c, 0x0, .aon, .any⟩,
     ⟨5, 1, .w1c, 0x0, .aon, .any⟩,
     ⟨4, 1, .ro, 0x0, .aon, .any⟩]⟩,
  ⟨0x0460, 0x0, 1, 0x0, 1, -- MOD_SRC_PMAX_PORT
    [⟨0, 32, .rw, 0x186A0, .aon, .rng 5000 105000⟩]⟩,
  ⟨0x0464, 0x0, 1, 0x0, 1, -- MOD_SRC_PMAX_UNIT
    [⟨0, 32, .rw, 0x222E0, .aon, .rng 5000 240000⟩]⟩,
  ⟨0x0468, 0x0, 1, 0x0, 1, -- MOD_PP_EVENT
    [⟨12, 4, .w1c, 0x0, .aon, .any⟩,
     ⟨8, 4, .w1c, 0x0, .aon, .any⟩,
     ⟨4, 4, .w1c, 0x0, .aon, .any⟩,
     ⟨0, 4, .ro, 0x0, .aon, .any⟩]⟩]

/-- The registers of the block at 0x0800 to 0x0FFF. -/
def regsCnv : List RegDesc :=
  [⟨0x0800, 0x0, 1, 0x0, 1, -- CNV_STATUS
    [⟨24, 6, .ro, 0x0, .aon, .any⟩,
     ⟨16, 6, .ro, 0x0, .aon, .any⟩,
     ⟨8, 6, .ro, 0x0, .aon, .any⟩,
     ⟨4, 1, .ro, 0x0, .aon, .any⟩,
     ⟨3, 1, .ro, 0x0, .aon, .any⟩,
     ⟨0, 1, .ro, 0x0, .aon, .any⟩]⟩,
  ⟨0x0804, 0x0, 1, 0x0, 1, -- CNV_PHASE_MAP
    [⟨12, 12, .ro, 0x0, .aon, .any⟩,
     ⟨0, 12, .ro, 0x555, .aon, .any⟩]⟩,
  ⟨0x0808, 0x0, 1, 0x0, 1, -- CNV_UNIT_LIMIT
    [⟨0, 32, .rw, 0x75300, .aon, .rng 10000 480000⟩]⟩,
  ⟨0x0810, 0x20, 2, 0x0, 1, -- CNV_GRP_CFG
    [⟨31, 1, .ro, 0x0, .aon, .any⟩,
     ⟨28, 3, .rw, 0x2, .aon, .rng 1 6⟩,
     ⟨27, 1, .rw, 0x0, .aon, .any⟩,
     ⟨0, 16, .rw, 0x29AB, .aon, .rng 2667 32000⟩]⟩,
  ⟨0x0814, 0x20, 2, 0x0, 1, -- CNV_GRP_LOOP
    [⟨16, 16, .rw, 0x190, .aon, .any⟩,
     ⟨0, 16, .rw, 0x280, .aon, .any⟩]⟩,
  ⟨0x0818, 0x20, 2, 0x0, 1, -- CNV_GRP_DYN
    [⟨24, 8, .rw, 0x14, .aon, .rng 1 255⟩,
     ⟨8, 8, .rw, 0x3C, .aon, .rng 15 100⟩,
     ⟨0, 8, .rw, 0x19, .aon, .rng 5 90⟩]⟩,
  ⟨0x081C, 0x20, 2, 0x0, 1, -- CNV_GRP_STATUS
    [⟨16, 16, .ro, 0x0, .aon, .any⟩,
     ⟨6, 10, .ro, 0x0, .aon, .any⟩,
     ⟨4, 2, .ro, 0x3, .aon, .any⟩,
     ⟨3, 1, .ro, 0x0, .aon, .any⟩,
     ⟨0, 3, .ro, 0x0, .aon, .any⟩]⟩,
  ⟨0x0820, 0x20, 2, 0x0, 1, -- CNV_GRP_PMAX
    [⟨0, 32, .ro, 0x0, .aon, .any⟩]⟩]

/-- The registers of the block at 0x1000 to 0x13FF. -/
def regsChg : List RegDesc :=
  [⟨0x1000, 0x0, 1, 0x0, 1, -- CHG_STATUS
    [⟨28, 4, .ro, 0x2, .aon, .any⟩,
     ⟨25, 3, .ro, 0x0, .aon, .any⟩,
     ⟨22, 3, .ro, 0x5, .aon, .any⟩,
     ⟨21, 1, .ro, 0x0, .aon, .any⟩,
     ⟨20, 1, .ro, 0x0, .aon, .any⟩,
     ⟨19, 1, .ro, 0x0, .aon, .any⟩,
     ⟨18, 1, .ro, 0x0, .aon, .any⟩,
     ⟨17, 1, .ro, 0x0, .aon, .any⟩,
     ⟨16, 1, .ro, 0x0, .aon, .any⟩,
     ⟨12, 4, .ro, 0x0, .aon, .any⟩,
     ⟨8, 4, .ro, 0x0, .aon, .any⟩,
     ⟨0, 4, .ro, 0x0, .aon, .any⟩]⟩,
  ⟨0x1004, 0x0, 1, 0x0, 1, -- CHG_CURRENT
    [⟨16, 16, .ro, 0x0, .aon, .any⟩,
     ⟨0, 16, .ro, 0x0, .aon, .any⟩]⟩,
  ⟨0x1008, 0x0, 1, 0x0, 1, -- CHG_VOLTAGE
    [⟨16, 16, .ro, 0x0, .aon, .any⟩,
     ⟨0, 16, .ro, 0x0, .aon, .any⟩]⟩,
  ⟨0x100C, 0x0, 1, 0x0, 1, -- CHG_LIMIT
    [⟨16, 16, .rw, 0x3E80, .aon, .srng (0) (16000)⟩,
     ⟨0, 16, .ro, 0x0, .aon, .any⟩]⟩,
  ⟨0x1010, 0x0, 1, 0x0, 1, -- CHG_TIMER
    [⟨16, 16, .ro, 0x0, .aon, .any⟩,
     ⟨0, 16, .ro, 0x0, .aon, .any⟩]⟩,
  ⟨0x1014, 0x0, 1, 0x0, 1, -- CHG_FAULT
    [⟨28, 4, .ro, 0x0, .aon, .any⟩,
     ⟨24, 4, .ro, 0x0, .aon, .any⟩,
     ⟨8, 2, .ro, 0x0, .aon, .any⟩]⟩,
  ⟨0x1018, 0x0, 1, 0x0, 1, -- CHG_COV_CFG
    [⟨31, 1, .rw, 0x0, .aon, .any⟩,
     ⟨0, 16, .rw, 0x0, .aon, .rng 4250 4800⟩]⟩,
  ⟨0x101C, 0x0, 1, 0x0, 1, -- CHG_COV_STATUS
    [⟨15, 1, .ro, 0x0, .aon, .any⟩,
     ⟨14, 1, .ro, 0x1, .aon, .any⟩,
     ⟨8, 5, .ro, 0x0, .aon, .any⟩,
     ⟨0, 5, .w1c, 0x0, .aon, .any⟩]⟩,
  ⟨0x1020, 0x0, 1, 0x0, 1, -- CHG_TEMP_CFG
    [⟨28, 4, .rw, 0x0, .aon, .codes [0, 1, 2, 3, 4, 5, 6, 7, 15]⟩,
     ⟨27, 1, .rw, 0x0, .aon, .any⟩]⟩,
  ⟨0x1024, 0x0, 1, 0x0, 1, -- CHG_PACK_STATUS
    [⟨16, 16, .ro, 0x0, .aon, .any⟩,
     ⟨2, 1, .ro, 0x0, .aon, .any⟩,
     ⟨1, 1, .ro, 0x0, .aon, .any⟩,
     ⟨0, 1, .ro, 0x0, .aon, .any⟩]⟩,
  ⟨0x1028, 0x0, 1, 0x0, 1, -- CHG_EST_STATUS
    [⟨28, 4, .ro, 0x0, .aon, .any⟩,
     ⟨16, 12, .ro, 0x0, .aon, .any⟩,
     ⟨8, 8, .ro, 0x0, .aon, .any⟩,
     ⟨0, 8, .ro, 0x0, .aon, .any⟩]⟩,
  ⟨0x102C, 0x0, 1, 0x0, 1, -- CHG_EST_LIMIT
    [⟨16, 16, .ro, 0x0, .aon, .any⟩,
     ⟨0, 16, .ro, 0x0, .aon, .any⟩]⟩] ++
  [⟨0x1040, 0x10, 5, 0x0, 1, -- CHG_CELL_R
    [⟨16, 16, .ro, 0x0, .aon, .any⟩,
     ⟨0, 16, .ro, 0x0, .aon, .any⟩]⟩,
  ⟨0x1044, 0x10, 5, 0x0, 1, -- CHG_CELL_M
    [⟨16, 16, .ro, 0x0, .aon, .any⟩,
     ⟨0, 16, .ro, 0x0, .aon, .any⟩]⟩,
  ⟨0x1048, 0x10, 5, 0x0, 1, -- CHG_CELL_V
    [⟨0, 16, .ro, 0x0, .aon, .any⟩]⟩,
  ⟨0x1100, 0x4, 32, 0x0, 1, -- CHG_PROFILE
    [⟨0, 32, .ro, 0x0, .aon, .any⟩]⟩]

/-- The registers of the block at 0x1400 to 0x17FF. -/
def regsBgt : List RegDesc :=
  [⟨0x1400, 0x0, 1, 0x0, 1, -- BGT_STATUS
    [⟨30, 2, .ro, 0x0, .aon, .any⟩,
     ⟨20, 4, .ro, 0x0, .aon, .any⟩,
     ⟨16, 4, .ro, 0x0, .aon, .any⟩,
     ⟨12, 4, .ro, 0x1, .aon, .any⟩,
     ⟨8, 4, .ro, 0x0, .aon, .any⟩,
     ⟨3, 1, .ro, 0x0, .aon, .any⟩,
     ⟨0, 3, .ro, 0x0, .aon, .any⟩]⟩,
  ⟨0x1404, 0x0, 1, 0x0, 1, -- BGT_SUPPLY_CFG
    [⟨16, 8, .rw, 0x32, .aon, .rng 0 100⟩,
     ⟨8, 2, .rw, 0x3, .aon, .any⟩,
     ⟨0, 8, .rw, 0x5, .aon, .rng 0 20⟩]⟩,
  ⟨0x1408, 0x0, 1, 0x0, 1, -- BGT_PACK_CFG
    [⟨16, 16, .rw, 0x1770, .aon, .srng (0) (20000)⟩,
     ⟨0, 16, .rw, 0xFA0, .aon, .srng (0) (20000)⟩]⟩,
  ⟨0x140C, 0x0, 1, 0x0, 1, -- BGT_PACK_PEAK
    [⟨16, 16, .ro, 0x64, .aon, .any⟩,
     ⟨0, 16, .rw, 0x64, .aon, .rng 1 600⟩]⟩,
  ⟨0x1410, 0x0, 1, 0x0, 1, -- BGT_THROT_CFG
    [⟨24, 8, .rw, 0xA, .aon, .rng 1 100⟩,
     ⟨0, 16, .rw, 0x64, .aon, .rng 1 10000⟩]⟩,
  ⟨0x1414, 0x0, 1, 0x0, 1, -- BGT_SRC_CFG
    [⟨26, 6, .rw, 0x5, .aon, .rng 1 60⟩,
     ⟨14, 12, .rw, 0x1F4, .aon, .rng 100 2000⟩,
     ⟨0, 10, .rw, 0x32, .aon, .rng 10 1000⟩]⟩,
  ⟨0x1418, 0x0, 1, 0x0, 1, -- BGT_SRC_PRIO
    [⟨0, 8, .rw, 0x0, .aon, .any⟩]⟩,
  ⟨0x141C, 0x0, 1, 0x0, 1, -- BGT_SRC_FLOOR
    [⟨0, 32, .rw, 0x1194, .aon, .rng 2500 15000⟩]⟩,
  ⟨0x1420, 0x0, 1, 0x0, 1, -- BGT_INTENT_CFG
    [⟨0, 16, .rw, 0xC8, .aon, .rng 50 10000⟩]⟩,
  ⟨0x1424, 0x0, 1, 0x0, 1, -- BGT_EVENT
    [⟨7, 1, .w1c, 0x0, .aon, .any⟩,
     ⟨6, 1, .w1c, 0x0, .aon, .any⟩,
     ⟨5, 1, .w1c, 0x0, .aon, .any⟩,
     ⟨0, 4, .w1c, 0x0, .aon, .any⟩]⟩,
  ⟨0x1428, 0x0, 1, 0x0, 1, -- BGT_THROT_CNT
    [⟨0, 16, .rc, 0x0, .aon, .any⟩]⟩,
  ⟨0x1430, 0x0, 1, 0x0, 1, -- BGT_STR_CHG
    [⟨0, 32, .ro, 0x0, .aon, .any⟩]⟩] ++
  [⟨0x1434, 0x0, 1, 0x0, 1, -- BGT_P_BAT
    [⟨0, 32, .ro, 0x0, .aon, .any⟩]⟩,
  ⟨0x1438, 0x0, 1, 0x0, 1, -- BGT_THROT_CEIL
    [⟨0, 32, .ro, 0x0, .aon, .any⟩]⟩,
  ⟨0x1440, 0x4, 4, 0x0, 1, -- BGT_STR_IN
    [⟨0, 32, .ro, 0x0, .aon, .any⟩]⟩,
  ⟨0x1450, 0x4, 4, 0x0, 1, -- BGT_STR_SRC
    [⟨0, 32, .ro, 0x0, .aon, .any⟩]⟩,
  ⟨0x1460, 0x0, 1, 0x0, 1, -- BGT_SNAP_SUPPLY
    [⟨0, 32, .ro, 0x0, .aon, .any⟩]⟩,
  ⟨0x1464, 0x0, 1, 0x0, 1, -- BGT_SNAP_DEMAND
    [⟨0, 32, .ro, 0x0, .aon, .any⟩]⟩,
  ⟨0x1468, 0x0, 1, 0x0, 1, -- BGT_SNAP_SHORT
    [⟨0, 32, .ro, 0x0, .aon, .any⟩]⟩,
  ⟨0x146C, 0x0, 1, 0x0, 1, -- BGT_SNAP_SEQ
    [⟨0, 8, .ro, 0x0, .aon, .any⟩]⟩]

/-- The registers of the block at 0x1800 to 0x1FFF. -/
def regsPd : List RegDesc :=
  [⟨0x1800, 0x200, 4, 0x0, 1, -- PD_TC_CFG
    [⟨30, 2, .rw, 0x0, .aon, .codes [0, 1, 2]⟩,
     ⟨28, 2, .rw, 0x0, .aon, .codes [0, 1, 2]⟩,
     ⟨26, 2, .rw, 0x2, .aon, .codes [0, 1, 2]⟩,
     ⟨25, 1, .rw, 0x1, .aon, .any⟩,
     ⟨24, 1, .rw, 0x1, .aon, .any⟩,
     ⟨23, 1, .rw, 0x1, .aon, .any⟩,
     ⟨19, 1, .ro, 0x0, .aon, .any⟩]⟩,
  ⟨0x1804, 0x200, 4, 0x0, 1, -- PD_TC_TIMING
    [⟨24, 8, .rw, 0x96, .aon, .rng 100 200⟩,
     ⟨16, 8, .rw, 0x4B, .aon, .rng 50 100⟩,
     ⟨8, 8, .rw, 0x32, .aon, .rng 30 70⟩,
     ⟨0, 8, .rw, 0x14, .aon, .rng 5 100⟩]⟩,
  ⟨0x1808, 0x200, 4, 0x0, 1, -- PD_CC_STATUS
    [⟨28, 4, .ro, 0x2, .aon, .any⟩,
     ⟨27, 1, .ro, 0x0, .aon, .any⟩,
     ⟨26, 1, .ro, 0x0, .aon, .any⟩,
     ⟨24, 2, .ro, 0x0, .aon, .any⟩,
     ⟨21, 3, .ro, 0x0, .aon, .any⟩,
     ⟨20, 1, .ro, 0x0, .aon, .any⟩,
     ⟨19, 1, .ro, 0x0, .aon, .any⟩,
     ⟨16, 2, .ro, 0x0, .aon, .any⟩,
     ⟨8, 8, .ro, 0x0, .aon, .any⟩,
     ⟨0, 8, .ro, 0x0, .aon, .any⟩]⟩,
  ⟨0x180C, 0x200, 4, 0x0, 1, -- PD_VCONN
    [⟨15, 1, .ro, 0x0, .aon, .any⟩,
     ⟨14, 1, .ro, 0x0, .aon, .any⟩,
     ⟨11, 1, .w1c, 0x0, .aon, .any⟩,
     ⟨10, 1, .w1c, 0x0, .aon, .any⟩,
     ⟨0, 10, .ro, 0x0, .aon, .any⟩]⟩,
  ⟨0x1810, 0x200, 4, 0x0, 1, -- PD_MOIST_CFG
    [⟨24, 8, .rw, 0x32, .aon, .rng 5 200⟩,
     ⟨16, 8, .rw, 0x6, .aon, .rng 1 60⟩,
     ⟨8, 8, .rw, 0x32, .aon, .rng 10 250⟩]⟩,
  ⟨0x1814, 0x200, 4, 0x0, 1, -- PD_MOIST_STATUS
    [⟨31, 1, .ro, 0x0, .aon, .any⟩,
     ⟨30, 1, .ro, 0x0, .aon, .any⟩,
     ⟨28, 2, .ro, 0x0, .aon, .any⟩,
     ⟨24, 4, .ro, 0x0, .aon, .any⟩,
     ⟨16, 8, .rc, 0x0, .aon, .any⟩]⟩,
  ⟨0x1818, 0x200, 4, 0x0, 1, -- PD_MOIST_Z
    [⟨24, 8, .ro, 0xFF, .aon, .any⟩,
     ⟨16, 8, .ro, 0xFF, .aon, .any⟩,
     ⟨8, 8, .ro, 0xFF, .aon, .any⟩,
     ⟨0, 8, .ro, 0xFF, .aon, .any⟩]⟩,
  ⟨0x1820, 0x200, 4, 0x0, 1, -- PD_PRL_STATUS
    [⟨30, 2, .ro, 0x0, .aon, .any⟩,
     ⟨28, 2, .ro, 0x0, .aon, .any⟩,
     ⟨16, 8, .rc, 0x0, .aon, .any⟩,
     ⟨8, 8, .rc, 0x0, .aon, .any⟩,
     ⟨0, 8, .rc, 0x0, .aon, .any⟩]⟩,
  ⟨0x1824, 0x200, 4, 0x0, 1, -- PD_CABLE
    [⟨31, 1, .ro, 0x0, .aon, .any⟩,
     ⟨30, 1, .ro, 0x0, .aon, .any⟩,
     ⟨28, 2, .ro, 0x0, .aon, .any⟩,
     ⟨26, 2, .ro, 0x1, .aon, .any⟩,
     ⟨25, 1, .ro, 0x0, .aon, .any⟩,
     ⟨0, 16, .ro, 0x0, .aon, .any⟩]⟩,
  ⟨0x1828, 0x200, 4, 0x0, 1, -- PD_EVENT
    [⟨7, 1, .w1c, 0x0, .aon, .any⟩,
     ⟨6, 1, .w1c, 0x0, .aon, .any⟩,
     ⟨5, 1, .w1c, 0x0, .aon, .any⟩,
     ⟨4, 1, .w1c, 0x0, .aon, .any⟩,
     ⟨3, 1, .w1c, 0x0, .aon, .any⟩,
     ⟨2, 1, .w1c, 0x0, .aon, .any⟩,
     ⟨1, 1, .w1c, 0x0, .aon, .any⟩,
     ⟨0, 1, .w1c, 0x0, .aon, .any⟩]⟩,
  ⟨0x182C, 0x200, 4, 0x0, 1, -- PD_CTRL
    [⟨31, 1, .rw, 0x0, .aon, .any⟩,
     ⟨30, 1, .w1s, 0x0, .aon, .any⟩]⟩,
  ⟨0x1830, 0x200, 4, 0x0, 1, -- PD_VBUS_MEAS
    [⟨16, 16, .ro, 0x0, .aon, .any⟩]⟩] ++
  [⟨0x1840, 0x200, 4, 0x0, 1, -- PD_PE_CFG
    [⟨31, 1, .rw, 0x0, .aon, .any⟩,
     ⟨30, 1, .rw, 0x0, .aon, .any⟩,
     ⟨29, 1, .rw, 0x0, .aon, .any⟩,
     ⟨28, 1, .rw, 0x0, .aon, .any⟩,
     ⟨27, 1, .rw, 0x0, .aon, .any⟩,
     ⟨26, 1, .rw, 0x0, .aon, .any⟩,
     ⟨25, 1, .rw, 0x0, .aon, .any⟩,
     ⟨24, 1, .rw, 0x0, .aon, .any⟩,
     ⟨22, 2, .rw, 0x0, .aon, .any⟩,
     ⟨8, 8, .rw, 0x14, .aon, .rng 5 25⟩]⟩,
  ⟨0x1844, 0x200, 4, 0x0, 1, -- PD_PE_SNK_CFG
    [⟨16, 16, .rw, 0x4E20, .aon, .rng 3300 48000⟩,
     ⟨0, 16, .rw, 0x4E20, .aon, .rng 5000 48000⟩]⟩,
  ⟨0x1848, 0x200, 4, 0x0, 1, -- PD_PE_SNK_PMIN
    [⟨0, 32, .rw, 0x0, .aon, .rng 0 240000⟩]⟩,
  ⟨0x184C, 0x200, 4, 0x0, 1, -- PD_PE_KA
    [⟨16, 8, .rw, 0x8, .aon, .rng 1 10⟩,
     ⟨8, 8, .rw, 0x4B, .aon, .rng 50 90⟩,
     ⟨0, 8, .rw, 0x14, .aon, .rng 5 30⟩]⟩,
  ⟨0x1850, 0x200, 4, 0x0, 1, -- PD_PE_STATUS
    [⟨26, 6, .ro, 0x0, .aon, .any⟩,
     ⟨25, 1, .ro, 0x0, .aon, .any⟩,
     ⟨24, 1, .ro, 0x0, .aon, .any⟩,
     ⟨22, 2, .ro, 0x0, .aon, .any⟩,
     ⟨21, 1, .ro, 0x0, .aon, .any⟩,
     ⟨20, 1, .ro, 0x0, .aon, .any⟩,
     ⟨19, 1, .ro, 0x0, .aon, .any⟩,
     ⟨18, 1, .ro, 0x0, .aon, .any⟩,
     ⟨17, 1, .ro, 0x0, .aon, .any⟩,
     ⟨16, 1, .ro, 0x0, .aon, .any⟩,
     ⟨12, 4, .ro, 0x0, .aon, .any⟩,
     ⟨10, 2, .ro, 0x0, .aon, .any⟩]⟩,
  ⟨0x1854, 0x200, 4, 0x0, 1, -- PD_PE_CONTRACT
    [⟨16, 16, .ro, 0x0, .aon, .any⟩,
     ⟨0, 16, .ro, 0x0, .aon, .any⟩]⟩,
  ⟨0x1858, 0x200, 4, 0x0, 1, -- PD_PE_CONTRACT_PWR
    [⟨0, 32, .ro, 0x0, .aon, .any⟩]⟩,
  ⟨0x185C, 0x200, 4, 0x0, 1, -- PD_PE_EVENT
    [⟨7, 1, .w1c, 0x0, .aon, .any⟩,
     ⟨6, 1, .w1c, 0x0, .aon, .any⟩,
     ⟨5, 1, .w1c, 0x0, .aon, .any⟩,
     ⟨4, 1, .w1c, 0x0, .aon, .any⟩,
     ⟨3, 1, .w1c, 0x0, .aon, .any⟩,
     ⟨2, 1, .w1c, 0x0, .aon, .any⟩,
     ⟨1, 1, .w1c, 0x0, .aon, .any⟩,
     ⟨0, 1, .w1c, 0x0, .aon, .any⟩]⟩,
  ⟨0x1880, 0x200, 4, 0x4, 7, -- PD_SRC_PDO
    [⟨0, 32, .ro, 0x0, .aon, .any⟩]⟩,
  ⟨0x18A0, 0x200, 4, 0x4, 11, -- PD_SNK_PDO
    [⟨0, 32, .ro, 0x0, .aon, .any⟩]⟩,
  ⟨0x18D0, 0x200, 4, 0x4, 7, -- PD_OFFER_PDO
    [⟨0, 32, .ro, 0x0, .aon, .any⟩]⟩,
  ⟨0x1900, 0x200, 4, 0x4, 11, -- PD_PARTNER_SRC_PDO
    [⟨0, 32, .ro, 0x0, .aon, .any⟩]⟩] ++
  [⟨0x1940, 0x200, 4, 0x4, 11, -- PD_PARTNER_SNK_PDO
    [⟨0, 32, .ro, 0x0, .aon, .any⟩]⟩,
  ⟨0x1980, 0x200, 4, 0x0, 1, -- PD_RDO_SENT
    [⟨0, 32, .ro, 0x0, .aon, .any⟩]⟩,
  ⟨0x1984, 0x200, 4, 0x0, 1, -- PD_RDO_RECEIVED
    [⟨0, 32, .ro, 0x0, .aon, .any⟩]⟩]

/-- The registers of the block at 0x2000 to 0x27FF. -/
def regsHif : List RegDesc :=
  [⟨0x2000, 0x0, 1, 0x0, 1, -- HIF_CTRL
    [⟨16, 16, .rw, 0x0, .host, .rng 0 1000⟩,
     ⟨0, 1, .rw, 0x0, .host, .any⟩]⟩,
  ⟨0x2004, 0x0, 1, 0x0, 1, -- HIF_STATUS
    [⟨16, 8, .ro, 0x0, .host, .any⟩,
     ⟨6, 2, .ro, 0x0, .aon, .any⟩,
     ⟨5, 1, .ro, 0x0, .host, .any⟩,
     ⟨4, 1, .ro, 0x0, .host, .any⟩,
     ⟨2, 1, .ro, 0x0, .host, .any⟩,
     ⟨1, 1, .ro, 0x0, .host, .any⟩,
     ⟨0, 1, .ro, 0x0, .host, .any⟩]⟩,
  ⟨0x2008, 0x0, 1, 0x0, 1, -- HIF_KICK
    [⟨0, 32, .wo, 0x0, .host, .any⟩]⟩,
  ⟨0x200C, 0x0, 1, 0x0, 1, -- HIF_VEC_CFG
    [⟨8, 5, .rw, 0x0, .host, .any⟩,
     ⟨0, 5, .rw, 0x0, .host, .any⟩]⟩,
  ⟨0x2010, 0x0, 1, 0x0, 1, -- HIF_DB_BASE_LO
    [⟨12, 20, .rwl, 0x0, .host, .any⟩]⟩,
  ⟨0x2014, 0x0, 1, 0x0, 1, -- HIF_DB_BASE_HI
    [⟨0, 32, .rwl, 0x0, .host, .any⟩]⟩,
  ⟨0x2018, 0x0, 1, 0x0, 1, -- HIF_ST_BASE_LO
    [⟨12, 20, .rwl, 0x0, .host, .any⟩]⟩,
  ⟨0x201C, 0x0, 1, 0x0, 1, -- HIF_ST_BASE_HI
    [⟨0, 32, .rwl, 0x0, .host, .any⟩]⟩,
  ⟨0x2020, 0x0, 1, 0x0, 1, -- HIF_EVQ_BASE_LO
    [⟨12, 20, .rwl, 0x0, .host, .any⟩]⟩,
  ⟨0x2024, 0x0, 1, 0x0, 1, -- HIF_EVQ_BASE_HI
    [⟨0, 32, .rwl, 0x0, .host, .any⟩]⟩,
  ⟨0x2028, 0x0, 1, 0x0, 1, -- HIF_EVQ_CFG
    [⟨31, 1, .rw, 0x0, .host, .any⟩,
     ⟨26, 5, .rw, 0x0, .host, .any⟩,
     ⟨16, 5, .rwl, 0x4, .host, .rng 4 16⟩,
     ⟨8, 8, .rw, 0x1, .host, .rng 1 255⟩,
     ⟨0, 8, .rw, 0x0, .host, .any⟩]⟩,
  ⟨0x202C, 0x0, 1, 0x0, 1, -- HIF_EVQ_STATUS
    [⟨16, 16, .ro, 0x0, .host, .any⟩,
     ⟨15, 1, .ro, 0x1, .host, .any⟩,
     ⟨0, 12, .rc, 0x0, .host, .any⟩]⟩] ++
  [⟨0x2030, 0x0, 1, 0x0, 1, -- HIF_EVQ_MASK
    [⟨1, 13, .rw, 0x1FFF, .host, .any⟩]⟩,
  ⟨0x2034, 0x0, 1, 0x0, 1, -- HIF_ERR
    [⟨24, 8, .w1c, 0x0, .host, .any⟩,
     ⟨16, 8, .w1c, 0x0, .host, .any⟩,
     ⟨15, 1, .w1c, 0x0, .host, .any⟩,
     ⟨14, 1, .w1c, 0x0, .host, .any⟩,
     ⟨13, 1, .w1c, 0x0, .host, .any⟩]⟩,
  ⟨0x2038, 0x0, 1, 0x0, 1, -- HIF_ERR_INFO
    [⟨31, 1, .w1c, 0x0, .host, .any⟩,
     ⟨27, 4, .ro, 0x0, .host, .any⟩,
     ⟨25, 2, .ro, 0x0, .host, .any⟩,
     ⟨22, 3, .ro, 0x0, .host, .any⟩,
     ⟨0, 16, .ro, 0x0, .host, .any⟩]⟩,
  ⟨0x2040, 0x4, 2, 0x0, 1, -- HIF_CAP_VEC
    [⟨0, 5, .rw, 0x0, .host, .any⟩,
     ⟨8, 5, .rw, 0x0, .host, .any⟩,
     ⟨16, 5, .rw, 0x0, .host, .any⟩,
     ⟨24, 5, .rw, 0x0, .host, .any⟩]⟩,
  ⟨0x2100, 0x20, 8, 0x0, 1, -- HIF_SQ_BASE_LO
    [⟨12, 20, .rwl, 0x0, .host, .any⟩]⟩,
  ⟨0x2104, 0x20, 8, 0x0, 1, -- HIF_SQ_BASE_HI
    [⟨0, 32, .rwl, 0x0, .host, .any⟩]⟩,
  ⟨0x2108, 0x20, 8, 0x0, 1, -- HIF_SQ_CFG
    [⟨31, 1, .rw, 0x0, .host, .any⟩,
     ⟨28, 3, .rwl, 0x0, .host, .any⟩,
     ⟨24, 4, .rwl, 0x4, .host, .rng 4 12⟩,
     ⟨16, 8, .rw, 0x10, .host, .rng 1 128⟩]⟩,
  ⟨0x210C, 0x20, 8, 0x0, 1, -- HIF_SQ_STATUS
    [⟨16, 16, .ro, 0x0, .host, .any⟩,
     ⟨8, 8, .ro, 0x0, .host, .any⟩,
     ⟨0, 2, .ro, 0x0, .host, .any⟩]⟩,
  ⟨0x2110, 0x20, 8, 0x0, 1, -- HIF_SQ_TAIL_SEEN
    [⟨0, 16, .ro, 0x0, .host, .any⟩]⟩,
  ⟨0x2200, 0x20, 8, 0x0, 1, -- HIF_CQ_BASE_LO
    [⟨12, 20, .rwl, 0x0, .host, .any⟩]⟩,
  ⟨0x2204, 0x20, 8, 0x0, 1, -- HIF_CQ_BASE_HI
    [⟨0, 32, .rwl, 0x0, .host, .any⟩]⟩,
  ⟨0x2208, 0x20, 8, 0x0, 1, -- HIF_CQ_CFG
    [⟨31, 1, .rw, 0x0, .host, .any⟩,
     ⟨26, 5, .rw, 0x0, .host, .any⟩,
     ⟨20, 4, .rwl, 0x4, .host, .rng 4 12⟩,
     ⟨8, 8, .rw, 0x1, .host, .rng 1 255⟩,
     ⟨0, 8, .rw, 0x0, .host, .any⟩]⟩] ++
  [⟨0x220C, 0x20, 8, 0x0, 1, -- HIF_CQ_STATUS
    [⟨16, 16, .ro, 0x0, .host, .any⟩,
     ⟨15, 1, .ro, 0x1, .host, .any⟩,
     ⟨0, 8, .ro, 0x0, .host, .any⟩]⟩,
  ⟨0x2210, 0x20, 8, 0x0, 1, -- HIF_CQ_HEAD_SEEN
    [⟨0, 16, .ro, 0x0, .host, .any⟩]⟩,
  ⟨0x2400, 0x10, 32, 0x0, 1, -- HIF_MSIX_ADDR_LO
    [⟨2, 30, .rw, 0x0, .host, .any⟩]⟩,
  ⟨0x2404, 0x10, 32, 0x0, 1, -- HIF_MSIX_ADDR_HI
    [⟨0, 32, .rw, 0x0, .host, .any⟩]⟩,
  ⟨0x2408, 0x10, 32, 0x0, 1, -- HIF_MSIX_DATA
    [⟨0, 32, .rw, 0x0, .host, .any⟩]⟩,
  ⟨0x240C, 0x10, 32, 0x0, 1, -- HIF_MSIX_CTRL
    [⟨0, 1, .rw, 0x1, .host, .any⟩]⟩,
  ⟨0x2600, 0x4, 2, 0x0, 1, -- HIF_MSIX_PBA
    [⟨0, 32, .ro, 0x0, .host, .any⟩]⟩]

/-- The registers of the block at 0x2800 to 0x2FFF. -/
def regsCap : List RegDesc :=
  [⟨0x2800, 0x0, 1, 0x0, 1, -- CAP_CFG
    [⟨24, 4, .rw, 0x1, .aon, .rng 1 4⟩,
     ⟨16, 8, .rw, 0x20, .host, .rng 4 128⟩,
     ⟨6, 10, .rw, 0x64, .host, .rng 10 1000⟩,
     ⟨4, 2, .rw, 0x0, .aon, .codes [0, 1]⟩]⟩,
  ⟨0x2804, 0x0, 1, 0x0, 1, -- CAP_STATUS
    [⟨14, 9, .ro, 0x0, .host, .any⟩,
     ⟨12, 2, .ro, 0x0, .host, .any⟩,
     ⟨0, 8, .ro, 0x0, .host, .any⟩]⟩,
  ⟨0x2808, 0x0, 1, 0x0, 1, -- CAP_EVENT
    [⟨24, 8, .w1c, 0x0, .host, .any⟩,
     ⟨16, 8, .w1c, 0x0, .host, .any⟩,
     ⟨8, 8, .w1c, 0x0, .host, .any⟩,
     ⟨0, 8, .w1c, 0x0, .host, .any⟩]⟩,
  ⟨0x280C, 0x0, 1, 0x0, 1, -- CAP_ECC_CNT
    [⟨16, 16, .rc, 0x0, .host, .any⟩,
     ⟨0, 16, .rc, 0x0, .host, .any⟩]⟩,
  ⟨0x2810, 0x0, 1, 0x0, 1, -- CAP_BW
    [⟨0, 16, .ro, 0x0, .host, .any⟩]⟩,
  ⟨0x2814, 0x0, 1, 0x0, 1, -- CAP_LTR
    [⟨0, 16, .ro, 0x3E8, .host, .any⟩]⟩,
  ⟨0x2820, 0x8, 4, 0x0, 1, -- CAP_TH_CFG
    [⟨31, 1, .rw, 0x0, .aon, .any⟩,
     ⟨29, 2, .rw, 0x0, .aon, .codes [0, 1, 2]⟩,
     ⟨20, 4, .rw, 0x0, .aon, .any⟩,
     ⟨0, 14, .rw, 0x10, .aon, .any⟩]⟩,
  ⟨0x2824, 0x8, 4, 0x0, 1, -- CAP_TH_LEVEL
    [⟨0, 16, .rw, 0x0, .aon, .any⟩]⟩,
  ⟨0x2840, 0x0, 1, 0x0, 1, -- CAP_TRIG_PD
    [⟨0, 7, .rw, 0x6, .aon, .any⟩,
     ⟨8, 7, .rw, 0x6, .aon, .any⟩,
     ⟨16, 7, .rw, 0x6, .aon, .any⟩,
     ⟨24, 7, .rw, 0x6, .aon, .any⟩]⟩,
  ⟨0x2850, 0x0, 1, 0x0, 1, -- CAP_ONESHOT
    [⟨31, 1, .wo, 0x0, .host, .any⟩,
     ⟨16, 4, .rw, 0x0, .host, .any⟩,
     ⟨0, 16, .rw, 0x3E8, .host, .rng 1 65535⟩]⟩,
  ⟨0x2854, 0x0, 1, 0x0, 1, -- CAP_ONESHOT_RES
    [⟨31, 1, .ro, 0x0, .host, .any⟩,
     ⟨30, 1, .ro, 0x0, .host, .any⟩,
     ⟨0, 16, .ro, 0x0, .host, .any⟩]⟩,
  ⟨0x2900, 0x20, 8, 0x0, 1, -- CAP_RING_BASE_LO
    [⟨12, 20, .ro, 0x0, .host, .any⟩]⟩] ++
  [⟨0x2904, 0x20, 8, 0x0, 1, -- CAP_RING_BASE_HI
    [⟨0, 32, .ro, 0x0, .host, .any⟩]⟩,
  ⟨0x2908, 0x20, 8, 0x0, 1, -- CAP_RING_SIZE
    [⟨0, 21, .ro, 0x0, .host, .any⟩]⟩,
  ⟨0x290C, 0x20, 8, 0x0, 1, -- CAP_RING_STATE
    [⟨28, 4, .ro, 0x0, .host, .any⟩,
     ⟨24, 4, .ro, 0x0, .host, .any⟩,
     ⟨20, 4, .ro, 0x0, .host, .any⟩,
     ⟨16, 4, .ro, 0x0, .host, .any⟩,
     ⟨0, 16, .ro, 0x0, .host, .any⟩]⟩,
  ⟨0x2910, 0x20, 8, 0x0, 1, -- CAP_RING_TAIL_LO
    [⟨0, 32, .ro, 0x0, .host, .any⟩]⟩,
  ⟨0x2914, 0x20, 8, 0x0, 1, -- CAP_RING_TAIL_HI
    [⟨0, 32, .ro, 0x0, .host, .any⟩]⟩,
  ⟨0x2918, 0x20, 8, 0x0, 1, -- CAP_RING_HEAD_LO
    [⟨0, 32, .ro, 0x0, .host, .any⟩]⟩,
  ⟨0x291C, 0x20, 8, 0x0, 1, -- CAP_RING_HEAD_HI
    [⟨0, 32, .ro, 0x0, .host, .any⟩]⟩]

/-- The registers of the block at 0x3000 to 0x33FF. -/
def regsThm : List RegDesc :=
  [⟨0x3000, 0x0, 1, 0x0, 1, -- THM_STATUS
    [⟨24, 4, .ro, 0x0, .aon, .any⟩,
     ⟨23, 1, .ro, 0x0, .aon, .any⟩,
     ⟨22, 1, .ro, 0x0, .aon, .any⟩,
     ⟨21, 1, .ro, 0x0, .aon, .any⟩,
     ⟨20, 1, .ro, 0x0, .aon, .any⟩,
     ⟨19, 1, .ro, 0x0, .aon, .any⟩,
     ⟨0, 16, .ro, 0x0, .aon, .any⟩]⟩,
  ⟨0x3004, 0x0, 1, 0x0, 1, -- THM_CFG
    [⟨24, 8, .rw, 0x73, .aon, .rng 80 140⟩,
     ⟨16, 8, .rw, 0x78, .aon, .rng 90 140⟩,
     ⟨8, 8, .rw, 0x64, .aon, .rng 80 130⟩]⟩,
  ⟨0x3008, 0x0, 1, 0x0, 1, -- THM_XCHK
    [⟨8, 5, .rw, 0xA, .aon, .rng 4 16⟩,
     ⟨0, 5, .rw, 0x8, .aon, .rng 4 16⟩]⟩,
  ⟨0x300C, 0x0, 1, 0x0, 1, -- THM_SUSPECT
    [⟨16, 8, .ro, 0x0, .aon, .any⟩,
     ⟨0, 12, .ro, 0x0, .aon, .any⟩]⟩,
  ⟨0x3010, 0x0, 1, 0x0, 1, -- THM_SD
    [⟨24, 1, .ro, 0x0, .aon, .any⟩,
     ⟨0, 12, .ro, 0x0, .aon, .any⟩]⟩,
  ⟨0x3014, 0x0, 1, 0x0, 1, -- THM_SD_TS_LO
    [⟨0, 32, .ro, 0x0, .aon, .any⟩]⟩,
  ⟨0x3018, 0x0, 1, 0x0, 1, -- THM_SD_TS_HI
    [⟨0, 32, .ro, 0x0, .aon, .any⟩]⟩,
  ⟨0x301C, 0x0, 1, 0x0, 1, -- THM_EVENT
    [⟨6, 1, .w1c, 0x0, .aon, .any⟩,
     ⟨5, 1, .w1c, 0x0, .aon, .any⟩,
     ⟨4, 1, .w1c, 0x0, .aon, .any⟩,
     ⟨3, 1, .w1c, 0x0, .aon, .any⟩,
     ⟨2, 1, .w1c, 0x0, .aon, .any⟩]⟩,
  ⟨0x3040, 0x4, 12, 0x0, 1, -- THM_DIE
    [⟨16, 16, .ro, 0x0, .aon, .any⟩,
     ⟨0, 16, .ro, 0x0, .aon, .any⟩]⟩,
  ⟨0x3080, 0x0, 1, 0x0, 1, -- THM_NTC_CFG 0
    [⟨31, 1, .rw, 0x1, .aon, .any⟩,
     ⟨28, 3, .rw, 0x0, .aon, .codes [0, 1, 2, 3, 4]⟩,
     ⟨27, 1, .rw, 0x0, .aon, .any⟩,
     ⟨16, 8, .rw, 0x3C, .aon, .srng (-40) (125)⟩,
     ⟨0, 13, .rw, 0xD6B, .aon, .rng 3000 5000⟩]⟩,
  ⟨0x3084, 0x8, 8, 0x0, 1, -- THM_NTC_TEMP
    [⟨16, 16, .ro, 0x0, .aon, .any⟩,
     ⟨2, 1, .ro, 0x0, .aon, .any⟩,
     ⟨1, 1, .ro, 0x0, .aon, .any⟩,
     ⟨0, 1, .ro, 0x0, .aon, .any⟩]⟩,
  ⟨0x3088, 0x8, 7, 0x0, 1, -- THM_NTC_CFG 1 to 7
    [⟨31, 1, .rw, 0x0, .aon, .any⟩,
     ⟨28, 3, .rw, 0x0, .aon, .codes [0, 1, 2, 3, 4]⟩,
     ⟨27, 1, .rw, 0x0, .aon, .any⟩,
     ⟨16, 8, .rw, 0x3C, .aon, .srng (-40) (125)⟩,
     ⟨0, 13, .rw, 0xD6B, .aon, .rng 3000 5000⟩]⟩]

/-- The registers of the block at 0x3400 to 0x37FF. -/
def regsTmr : List RegDesc :=
  [⟨0x3400, 0x0, 1, 0x0, 1, -- TMR_TS_LO
    [⟨0, 32, .ro, 0x0, .aon, .any⟩]⟩,
  ⟨0x3404, 0x0, 1, 0x0, 1, -- TMR_TS_HI
    [⟨0, 32, .ro, 0x0, .aon, .any⟩]⟩,
  ⟨0x3408, 0x0, 1, 0x0, 1, -- TMR_FT_RUN
    [⟨0, 16, .ro, 0x0, .warm, .any⟩]⟩,
  ⟨0x3440, 0x10, 8, 0x0, 1, -- TMR_CMP_LO
    [⟨0, 32, .rw, 0x0, .aon, .any⟩]⟩,
  ⟨0x3444, 0x10, 8, 0x0, 1, -- TMR_CMP_HI
    [⟨24, 8, .rc, 0x0, .aon, .any⟩,
     ⟨0, 22, .rw, 0x0, .aon, .any⟩]⟩,
  ⟨0x3448, 0x10, 8, 0x0, 1, -- TMR_CMP_CFG
    [⟨31, 1, .rw, 0x0, .aon, .any⟩,
     ⟨30, 1, .rw, 0x0, .aon, .any⟩,
     ⟨29, 1, .w1c, 0x0, .aon, .any⟩,
     ⟨0, 24, .rw, 0x0, .aon, .any⟩]⟩,
  ⟨0x3500, 0x20, 16, 0x0, 1, -- TMR_FT_CFG
    [⟨31, 1, .rw, 0x0, .warm, .any⟩,
     ⟨29, 2, .rw, 0x0, .warm, .codes [0, 1, 2]⟩,
     ⟨28, 1, .rw, 0x0, .warm, .any⟩,
     ⟨24, 4, .rw, 0x0, .warm, .any⟩,
     ⟨22, 2, .rw, 0x0, .warm, .codes [0, 1, 2]⟩,
     ⟨20, 2, .rw, 0x0, .warm, .codes [0, 1, 2]⟩,
     ⟨18, 2, .rw, 0x0, .warm, .any⟩,
     ⟨16, 2, .rw, 0x0, .warm, .any⟩,
     ⟨15, 1, .rw, 0x0, .warm, .any⟩,
     ⟨14, 1, .wo, 0x0, .warm, .any⟩,
     ⟨12, 2, .rw, 0x0, .warm, .any⟩,
     ⟨8, 3, .rw, 0x0, .warm, .any⟩,
     ⟨0, 1, .ro, 0x0, .warm, .any⟩]⟩,
  ⟨0x3504, 0x20, 16, 0x0, 1, -- TMR_FT_TOP
    [⟨0, 32, .rw, 0xFFFFFFFF, .warm, .rng 1 4294967295⟩]⟩,
  ⟨0x3508, 0x20, 16, 0x0, 1, -- TMR_FT_CNT
    [⟨0, 32, .rw, 0x0, .warm, .any⟩]⟩,
  ⟨0x350C, 0x20, 16, 0x0, 1, -- TMR_FT_CMP0
    [⟨0, 32, .rw, 0x0, .warm, .any⟩]⟩,
  ⟨0x3510, 0x20, 16, 0x0, 1, -- TMR_FT_CMP1
    [⟨0, 32, .rw, 0x0, .warm, .any⟩]⟩,
  ⟨0x3514, 0x20, 16, 0x0, 1, -- TMR_FT_CAPT
    [⟨0, 32, .ro, 0x0, .warm, .any⟩]⟩] ++
  [⟨0x3518, 0x20, 16, 0x0, 1, -- TMR_FT_STATUS
    [⟨5, 1, .w1c, 0x0, .warm, .any⟩,
     ⟨4, 1, .ro, 0x0, .warm, .any⟩,
     ⟨3, 1, .w1c, 0x0, .warm, .any⟩,
     ⟨2, 1, .ro, 0x0, .warm, .any⟩,
     ⟨1, 1, .w1c, 0x0, .warm, .any⟩,
     ⟨0, 1, .w1c, 0x0, .warm, .any⟩]⟩]

/-- The registers of the block at 0x3800 to 0x3BFF. -/
def regsSeq : List RegDesc :=
  [⟨0x3800, 0x0, 1, 0x0, 1, -- SEQ_CTRL
    [⟨0, 7, .rw, 0xA, .aon, .rng 1 100⟩]⟩,
  ⟨0x3804, 0x0, 1, 0x0, 1, -- SEQ_STATUS
    [⟨31, 1, .w1c, 0x0, .aon, .any⟩,
     ⟨30, 1, .ro, 0x0, .aon, .any⟩,
     ⟨28, 2, .ro, 0x0, .aon, .any⟩,
     ⟨12, 12, .ro, 0x0, .aon, .any⟩,
     ⟨0, 12, .ro, 0x0, .aon, .any⟩]⟩,
  ⟨0x3808, 0x0, 1, 0x0, 1, -- SEQ_FAULT
    [⟨16, 12, .w1c, 0x0, .aon, .any⟩,
     ⟨0, 12, .w1c, 0x0, .aon, .any⟩]⟩,
  ⟨0x380C, 0x0, 1, 0x0, 1, -- SEQ_STUCK
    [⟨0, 12, .w1c, 0x0, .aon, .any⟩]⟩,
  ⟨0x3820, 0x0, 1, 0x0, 1, -- SEQ_AUX3_CFG
    [⟨0, 16, .rwl, 0x3E8, .aon, .rng 600 1200⟩]⟩,
  ⟨0x3824, 0x0, 1, 0x0, 1, -- SEQ_AUX_CFG
    [⟨0, 4, .rw, 0xF, .aon, .any⟩]⟩,
  ⟨0x3828, 0x0, 1, 0x0, 1, -- SEQ_AUX_STATUS
    [⟨8, 4, .w1c, 0x0, .aon, .any⟩,
     ⟨4, 4, .ro, 0x0, .aon, .any⟩,
     ⟨0, 4, .ro, 0x0, .aon, .any⟩]⟩,
  ⟨0x3840, 0x0, 1, 0x0, 1, -- SEQ_RAIL_CFG 0 (R48)
    [⟨24, 8, .rwl, 0x1, .aon, .any⟩,
     ⟨16, 8, .rwl, 0x2, .aon, .any⟩,
     ⟨14, 2, .rwl, 0x0, .aon, .codes [0, 1, 2]⟩,
     ⟨12, 2, .rwl, 0x0, .aon, .any⟩,
     ⟨0, 12, .rwl, 0x2, .aon, .any⟩]⟩,
  ⟨0x3844, 0x0, 1, 0x0, 1, -- SEQ_RAIL_TIME 0 (R48)
    [⟨26, 6, .rwl, 0x5, .aon, .any⟩,
     ⟨16, 10, .rwl, 0x14, .aon, .rng 1 1000⟩,
     ⟨0, 10, .rwl, 0x5, .aon, .rng 1 1000⟩]⟩,
  ⟨0x3848, 0x10, 12, 0x0, 1, -- SEQ_RAIL_STATE
    [⟨0, 4, .ro, 0x0, .aon, .any⟩]⟩,
  ⟨0x3850, 0x0, 1, 0x0, 1, -- SEQ_RAIL_CFG 1 (R48)
    [⟨24, 8, .rwl, 0x1, .aon, .any⟩,
     ⟨16, 8, .rwl, 0x0, .aon, .any⟩,
     ⟨14, 2, .rwl, 0x0, .aon, .codes [0, 1, 2]⟩,
     ⟨12, 2, .rwl, 0x0, .aon, .any⟩,
     ⟨0, 12, .rwl, 0x0, .aon, .any⟩]⟩,
  ⟨0x3854, 0x0, 1, 0x0, 1, -- SEQ_RAIL_TIME 1 (R48)
    [⟨26, 6, .rwl, 0x5, .aon, .any⟩,
     ⟨16, 10, .rwl, 0x14, .aon, .rng 1 1000⟩,
     ⟨0, 10, .rwl, 0x5, .aon, .rng 1 1000⟩]⟩] ++
  [⟨0x3860, 0x0, 1, 0x0, 1, -- SEQ_RAIL_CFG 2 (R48)
    [⟨24, 8, .rwl, 0x1, .aon, .any⟩,
     ⟨16, 8, .rwl, 0x1, .aon, .any⟩,
     ⟨14, 2, .rwl, 0x0, .aon, .codes [0, 1, 2]⟩,
     ⟨12, 2, .rwl, 0x0, .aon, .any⟩,
     ⟨0, 12, .rwl, 0x2, .aon, .any⟩]⟩,
  ⟨0x3864, 0x0, 1, 0x0, 1, -- SEQ_RAIL_TIME 2 (R48)
    [⟨26, 6, .rwl, 0x5, .aon, .any⟩,
     ⟨16, 10, .rwl, 0x14, .aon, .rng 1 1000⟩,
     ⟨0, 10, .rwl, 0x5, .aon, .rng 1 1000⟩]⟩,
  ⟨0x3870, 0x0, 1, 0x0, 1, -- SEQ_RAIL_CFG 3 (R48)
    [⟨24, 8, .rwl, 0x1, .aon, .any⟩,
     ⟨16, 8, .rwl, 0x1, .aon, .any⟩,
     ⟨14, 2, .rwl, 0x0, .aon, .codes [0, 1, 2]⟩,
     ⟨12, 2, .rwl, 0x0, .aon, .any⟩,
     ⟨0, 12, .rwl, 0x4, .aon, .any⟩]⟩,
  ⟨0x3874, 0x0, 1, 0x0, 1, -- SEQ_RAIL_TIME 3 (R48)
    [⟨26, 6, .rwl, 0x5, .aon, .any⟩,
     ⟨16, 10, .rwl, 0x14, .aon, .rng 1 1000⟩,
     ⟨0, 10, .rwl, 0x5, .aon, .rng 1 1000⟩]⟩,
  ⟨0x3880, 0x0, 1, 0x0, 1, -- SEQ_RAIL_CFG 4 (R48)
    [⟨24, 8, .rwl, 0x1, .aon, .any⟩,
     ⟨16, 8, .rwl, 0x2, .aon, .any⟩,
     ⟨14, 2, .rwl, 0x0, .aon, .codes [0, 1, 2]⟩,
     ⟨12, 2, .rwl, 0x1, .aon, .any⟩,
     ⟨0, 12, .rwl, 0xF, .aon, .any⟩]⟩,
  ⟨0x3884, 0x0, 1, 0x0, 1, -- SEQ_RAIL_TIME 4 (R48)
    [⟨26, 6, .rwl, 0x5, .aon, .any⟩,
     ⟨16, 10, .rwl, 0x14, .aon, .rng 1 1000⟩,
     ⟨0, 10, .rwl, 0x32, .aon, .rng 1 1000⟩]⟩,
  ⟨0x3890, 0x0, 1, 0x0, 1, -- SEQ_RAIL_CFG 5 (R48)
    [⟨24, 8, .rwl, 0x1, .aon, .any⟩,
     ⟨16, 8, .rwl, 0x2, .aon, .any⟩,
     ⟨14, 2, .rwl, 0x0, .aon, .codes [0, 1, 2]⟩,
     ⟨12, 2, .rwl, 0x1, .aon, .any⟩,
     ⟨0, 12, .rwl, 0x10, .aon, .any⟩]⟩,
  ⟨0x3894, 0x0, 1, 0x0, 1, -- SEQ_RAIL_TIME 5 (R48)
    [⟨26, 6, .rwl, 0x5, .aon, .any⟩,
     ⟨16, 10, .rwl, 0x14, .aon, .rng 1 1000⟩,
     ⟨0, 10, .rwl, 0x32, .aon, .rng 1 1000⟩]⟩,
  ⟨0x38A0, 0x0, 1, 0x0, 1, -- SEQ_RAIL_CFG 6 (R48)
    [⟨24, 8, .rwl, 0x1, .aon, .any⟩,
     ⟨16, 8, .rwl, 0x2, .aon, .any⟩,
     ⟨14, 2, .rwl, 0x0, .aon, .codes [0, 1, 2]⟩,
     ⟨12, 2, .rwl, 0x1, .aon, .any⟩,
     ⟨0, 12, .rwl, 0x20, .aon, .any⟩]⟩,
  ⟨0x38A4, 0x0, 1, 0x0, 1, -- SEQ_RAIL_TIME 6 (R48)
    [⟨26, 6, .rwl, 0x5, .aon, .any⟩,
     ⟨16, 10, .rwl, 0x14, .aon, .rng 1 1000⟩,
     ⟨0, 10, .rwl, 0x32, .aon, .rng 1 1000⟩]⟩,
  ⟨0x38B0, 0x0, 1, 0x0, 1, -- SEQ_RAIL_CFG 7 (R48)
    [⟨24, 8, .rwl, 0x1, .aon, .any⟩,
     ⟨16, 8, .rwl, 0x2, .aon, .any⟩,
     ⟨14, 2, .rwl, 0x0, .aon, .codes [0, 1, 2]⟩,
     ⟨12, 2, .rwl, 0x1, .aon, .any⟩,
     ⟨0, 12, .rwl, 0x40, .aon, .any⟩]⟩,
  ⟨0x38B4, 0x0, 1, 0x0, 1, -- SEQ_RAIL_TIME 7 (R48)
    [⟨26, 6, .rwl, 0x5, .aon, .any⟩,
     ⟨16, 10, .rwl, 0x14, .aon, .rng 1 1000⟩,
     ⟨0, 10, .rwl, 0x32, .aon, .rng 1 1000⟩]⟩] ++
  [⟨0x38C0, 0x0, 1, 0x0, 1, -- SEQ_RAIL_CFG 8 (R48)
    [⟨24, 8, .rwl, 0x1, .aon, .any⟩,
     ⟨16, 8, .rwl, 0x2, .aon, .any⟩,
     ⟨14, 2, .rwl, 0x0, .aon, .codes [0, 1, 2]⟩,
     ⟨12, 2, .rwl, 0x1, .aon, .any⟩,
     ⟨0, 12, .rwl, 0x80, .aon, .any⟩]⟩,
  ⟨0x38C4, 0x0, 1, 0x0, 1, -- SEQ_RAIL_TIME 8 (R48)
    [⟨26, 6, .rwl, 0x5, .aon, .any⟩,
     ⟨16, 10, .rwl, 0x14, .aon, .rng 1 1000⟩,
     ⟨0, 10, .rwl, 0x32, .aon, .rng 1 1000⟩]⟩,
  ⟨0x38D0, 0x0, 1, 0x0, 1, -- SEQ_RAIL_CFG 9 (R48)
    [⟨24, 8, .rwl, 0x1, .aon, .any⟩,
     ⟨16, 8, .rwl, 0x2, .aon, .any⟩,
     ⟨14, 2, .rwl, 0x0, .aon, .codes [0, 1, 2]⟩,
     ⟨12, 2, .rwl, 0x1, .aon, .any⟩,
     ⟨0, 12, .rwl, 0x100, .aon, .any⟩]⟩,
  ⟨0x38D4, 0x0, 1, 0x0, 1, -- SEQ_RAIL_TIME 9 (R48)
    [⟨26, 6, .rwl, 0x5, .aon, .any⟩,
     ⟨16, 10, .rwl, 0x14, .aon, .rng 1 1000⟩,
     ⟨0, 10, .rwl, 0x32, .aon, .rng 1 1000⟩]⟩,
  ⟨0x38E0, 0x0, 1, 0x0, 1, -- SEQ_RAIL_CFG 10 (R48)
    [⟨24, 8, .rwl, 0x1, .aon, .any⟩,
     ⟨16, 8, .rwl, 0x2, .aon, .any⟩,
     ⟨14, 2, .rwl, 0x0, .aon, .codes [0, 1, 2]⟩,
     ⟨12, 2, .rwl, 0x1, .aon, .any⟩,
     ⟨0, 12, .rwl, 0x200, .aon, .any⟩]⟩,
  ⟨0x38E4, 0x0, 1, 0x0, 1, -- SEQ_RAIL_TIME 10 (R48)
    [⟨26, 6, .rwl, 0x5, .aon, .any⟩,
     ⟨16, 10, .rwl, 0x14, .aon, .rng 1 1000⟩,
     ⟨0, 10, .rwl, 0x32, .aon, .rng 1 1000⟩]⟩,
  ⟨0x38F0, 0x0, 1, 0x0, 1, -- SEQ_RAIL_CFG 11 (R48)
    [⟨24, 8, .rwl, 0x1, .aon, .any⟩,
     ⟨16, 8, .rwl, 0x2, .aon, .any⟩,
     ⟨14, 2, .rwl, 0x0, .aon, .codes [0, 1, 2]⟩,
     ⟨12, 2, .rwl, 0x1, .aon, .any⟩,
     ⟨0, 12, .rwl, 0x400, .aon, .any⟩]⟩,
  ⟨0x38F4, 0x0, 1, 0x0, 1, -- SEQ_RAIL_TIME 11 (R48)
    [⟨26, 6, .rwl, 0x5, .aon, .any⟩,
     ⟨16, 10, .rwl, 0x14, .aon, .rng 1 1000⟩,
     ⟨0, 10, .rwl, 0x32, .aon, .rng 1 1000⟩]⟩]

/-- The registers of the block at 0x3C00 to 0x3FFF. -/
def regsWdg : List RegDesc :=
  [⟨0x3C00, 0x0, 1, 0x0, 1, -- WDG_CTRL
    [⟨31, 1, .rw, 0x0, .warm, .any⟩,
     ⟨30, 1, .w1s, 0x0, .aon, .any⟩]⟩,
  ⟨0x3C04, 0x0, 1, 0x0, 1, -- WDG_CFG
    [⟨16, 16, .rw, 0x1F4, .warm, .any⟩,
     ⟨0, 16, .rw, 0x3E8, .warm, .rng 10 10000⟩]⟩,
  ⟨0x3C08, 0x0, 1, 0x0, 1, -- WDG_TASK_EN
    [⟨0, 8, .rw, 0x1, .warm, .any⟩]⟩,
  ⟨0x3C0C, 0x0, 1, 0x0, 1, -- WDG_SEED
    [⟨31, 1, .ro, 0x0, .warm, .any⟩,
     ⟨0, 16, .rwl, 0x0, .warm, .any⟩]⟩,
  ⟨0x3C10, 0x0, 1, 0x0, 1, -- WDG_QUESTION
    [⟨0, 16, .ro, 0x4896, .warm, .any⟩]⟩,
  ⟨0x3C14, 0x0, 1, 0x0, 1, -- WDG_ANSWER
    [⟨0, 16, .wo, 0x0, .warm, .any⟩]⟩,
  ⟨0x3C18, 0x0, 1, 0x0, 1, -- WDG_CHECKIN
    [⟨0, 8, .w1s, 0x0, .warm, .any⟩]⟩,
  ⟨0x3C1C, 0x0, 1, 0x0, 1, -- WDG_STATUS
    [⟨16, 16, .ro, 0x0, .warm, .any⟩,
     ⟨14, 2, .ro, 0x3, .warm, .any⟩,
     ⟨13, 1, .ro, 0x0, .warm, .any⟩,
     ⟨12, 1, .ro, 0x0, .warm, .any⟩,
     ⟨11, 1, .ro, 0x0, .warm, .any⟩]⟩,
  ⟨0x3C20, 0x0, 1, 0x0, 1, -- WDG_CAUSE
    [⟨16, 7, .w1c, 0x0, .warm, .any⟩,
     ⟨8, 8, .ro, 0x0, .warm, .any⟩,
     ⟨0, 8, .ro, 0x0, .warm, .any⟩]⟩,
  ⟨0x3C24, 0x0, 1, 0x0, 1, -- WDG_EVENT
    [⟨3, 1, .w1c, 0x0, .aon, .any⟩,
     ⟨2, 1, .w1c, 0x0, .aon, .any⟩,
     ⟨1, 1, .w1c, 0x0, .aon, .any⟩,
     ⟨0, 1, .w1c, 0x0, .aon, .any⟩]⟩,
  ⟨0x3C28, 0x0, 1, 0x0, 1, -- WDG_KEY
    [⟨0, 16, .wo, 0x0, .warm, .any⟩]⟩,
  ⟨0x3C2C, 0x0, 1, 0x0, 1, -- WDG_COUNTS
    [⟨16, 16, .ro, 0x0, .aon, .any⟩,
     ⟨8, 8, .ro, 0x0, .aon, .any⟩,
     ⟨0, 4, .ro, 0x0, .aon, .any⟩]⟩] ++
  [⟨0x3C30, 0x0, 1, 0x0, 1, -- WDG_FALLBACK
    [⟨31, 1, .ro, 0x1, .aon, .any⟩,
     ⟨0, 11, .ro, 0x7D0, .aon, .any⟩]⟩]

/-- The registers of the block at 0x4000 to 0x43FF. -/
def regsTwb : List RegDesc :=
  [⟨0x4000, 0x0, 1, 0x0, 1, -- TWB_CFG
    [⟨31, 1, .rw, 0x0, .aon, .any⟩,
     ⟨29, 2, .rw, 0x0, .aon, .codes [0, 1, 2]⟩,
     ⟨27, 2, .rw, 0x2, .aon, .codes [0, 1, 2]⟩,
     ⟨16, 8, .rw, 0xA, .aon, .rng 1 255⟩,
     ⟨4, 1, .rw, 0x1, .aon, .any⟩,
     ⟨0, 4, .rw, 0x3, .aon, .any⟩]⟩,
  ⟨0x4004, 0x0, 1, 0x0, 1, -- TWB_ADDR
    [⟨31, 1, .ro, 0x0, .aon, .any⟩,
     ⟨30, 1, .ro, 0x0, .aon, .any⟩,
     ⟨28, 2, .ro, 0x0, .aon, .any⟩,
     ⟨27, 1, .ro, 0x0, .aon, .any⟩,
     ⟨26, 1, .ro, 0x0, .aon, .any⟩,
     ⟨0, 7, .ro, 0x0, .aon, .any⟩]⟩,
  ⟨0x4008, 0x4, 4, 0x0, 1, -- TWB_UDID
    [⟨0, 32, .ro, 0x0, .aon, .any⟩]⟩,
  ⟨0x4018, 0x0, 1, 0x0, 1, -- TWB_STATUS
    [⟨21, 3, .ro, 0x4, .aon, .any⟩,
     ⟨18, 3, .ro, 0x0, .aon, .any⟩,
     ⟨17, 1, .ro, 0x0, .aon, .any⟩,
     ⟨16, 1, .ro, 0x1, .aon, .any⟩,
     ⟨0, 16, .ro, 0x0, .aon, .any⟩]⟩,
  ⟨0x401C, 0x0, 1, 0x0, 1, -- TWB_ALERT_MASK
    [⟨15, 1, .rw, 0x1, .aon, .any⟩,
     ⟨14, 1, .rw, 0x1, .aon, .any⟩,
     ⟨1, 13, .rw, 0x1FFF, .aon, .any⟩]⟩,
  ⟨0x4020, 0x0, 1, 0x0, 1, -- TWB_EVENT
    [⟨7, 1, .w1c, 0x0, .aon, .any⟩,
     ⟨6, 1, .w1c, 0x0, .aon, .any⟩,
     ⟨5, 1, .w1c, 0x0, .aon, .any⟩,
     ⟨4, 1, .w1c, 0x0, .aon, .any⟩,
     ⟨3, 1, .w1c, 0x0, .aon, .any⟩,
     ⟨2, 1, .w1c, 0x0, .aon, .any⟩,
     ⟨1, 1, .w1c, 0x0, .aon, .any⟩,
     ⟨0, 1, .w1c, 0x0, .aon, .any⟩]⟩,
  ⟨0x4024, 0x0, 1, 0x0, 1, -- TWB_STATS
    [⟨24, 8, .rc, 0x0, .aon, .any⟩,
     ⟨16, 8, .rc, 0x0, .aon, .any⟩,
     ⟨8, 8, .rc, 0x0, .aon, .any⟩,
     ⟨0, 8, .rc, 0x0, .aon, .any⟩]⟩,
  ⟨0x4028, 0x0, 1, 0x0, 1, -- TWB_COMPAT_VCHG
    [⟨0, 16, .rw, 0x0, .aon, .any⟩]⟩,
  ⟨0x402C, 0x0, 1, 0x0, 1, -- TWB_LAST
    [⟨8, 8, .ro, 0x0, .aon, .any⟩,
     ⟨0, 8, .ro, 0x0, .aon, .any⟩]⟩]

/-- The registers of the block at 0x4400 to 0x47FF. -/
def regsCsc : List RegDesc :=
  [⟨0x4400, 0x0, 1, 0x0, 1, -- CSC_CFG
    [⟨28, 4, .rw, 0x0, .aon, .any⟩,
     ⟨0, 1, .rw, 0x1, .aon, .any⟩]⟩,
  ⟨0x4404, 0x0, 1, 0x0, 1, -- CSC_STATUS
    [⟨28, 4, .ro, 0x0, .aon, .any⟩,
     ⟨24, 4, .ro, 0x0, .aon, .any⟩,
     ⟨22, 2, .ro, 0x0, .aon, .any⟩,
     ⟨21, 1, .ro, 0x0, .aon, .any⟩,
     ⟨20, 1, .ro, 0x0, .aon, .any⟩,
     ⟨0, 16, .ro, 0x0, .aon, .any⟩]⟩,
  ⟨0x4408, 0x0, 1, 0x0, 1, -- CSC_SYNC_CFG
    [⟨31, 1, .rw, 0x0, .aon, .any⟩,
     ⟨0, 16, .rw, 0x29AB, .aon, .rng 2667 32000⟩]⟩,
  ⟨0x440C, 0x4, 2, 0x0, 1, -- CSC_LOCK
    [⟨31, 1, .rw, 0x0, .aon, .any⟩,
     ⟨0, 16, .rw, 0x0, .aon, .any⟩]⟩,
  ⟨0x4414, 0x0, 1, 0x0, 1, -- CSC_PAR_CFG
    [⟨31, 1, .rw, 0x0, .aon, .any⟩,
     ⟨30, 1, .rw, 0x0, .aon, .any⟩,
     ⟨29, 1, .rw, 0x0, .aon, .any⟩,
     ⟨28, 1, .rw, 0x0, .aon, .any⟩,
     ⟨26, 2, .rw, 0x0, .aon, .any⟩]⟩,
  ⟨0x4418, 0x0, 1, 0x0, 1, -- CSC_EVENT
    [⟨5, 1, .w1c, 0x0, .aon, .any⟩,
     ⟨4, 1, .w1c, 0x0, .aon, .any⟩,
     ⟨3, 1, .w1c, 0x0, .aon, .any⟩,
     ⟨2, 1, .w1c, 0x0, .aon, .any⟩,
     ⟨1, 1, .w1c, 0x0, .aon, .any⟩,
     ⟨0, 1, .w1c, 0x0, .aon, .any⟩]⟩,
  ⟨0x441C, 0x0, 1, 0x0, 1, -- CSC_STATS
    [⟨16, 16, .rc, 0x0, .aon, .any⟩,
     ⟨0, 16, .rc, 0x0, .aon, .any⟩]⟩,
  ⟨0x4420, 0x0, 1, 0x0, 1, -- CSC_FRAME_TS_LO
    [⟨0, 32, .ro, 0x0, .aon, .any⟩]⟩,
  ⟨0x4424, 0x0, 1, 0x0, 1, -- CSC_FRAME_TS_HI
    [⟨0, 32, .ro, 0x0, .aon, .any⟩]⟩]

/-- The registers of the block at 0x4800 to 0x4BFF. -/
def regsMbx : List RegDesc :=
  [⟨0x4800, 0x0, 1, 0x0, 1, -- MBX_H2U_DATA
    [⟨0, 32, .wo, 0x0, .aon, .any⟩]⟩,
  ⟨0x4804, 0x0, 1, 0x0, 1, -- MBX_H2U_STATUS
    [⟨31, 1, .w1c, 0x0, .aon, .any⟩,
     ⟨0, 5, .ro, 0x0, .aon, .any⟩]⟩,
  ⟨0x4808, 0x0, 1, 0x0, 1, -- MBX_H2U_ACK
    [⟨31, 1, .rc, 0x0, .aon, .any⟩,
     ⟨8, 16, .ro, 0x0, .aon, .any⟩,
     ⟨0, 8, .ro, 0x0, .aon, .any⟩]⟩,
  ⟨0x480C, 0x0, 1, 0x0, 1, -- MBX_U2H_DATA
    [⟨0, 32, .rc, 0x0, .aon, .any⟩]⟩,
  ⟨0x4810, 0x0, 1, 0x0, 1, -- MBX_U2H_STATUS
    [⟨31, 1, .w1c, 0x0, .aon, .any⟩,
     ⟨30, 1, .ro, 0x0, .aon, .any⟩,
     ⟨0, 5, .ro, 0x0, .aon, .any⟩]⟩,
  ⟨0x4814, 0x0, 1, 0x0, 1, -- MBX_U2H_ACK
    [⟨8, 16, .rw, 0x0, .aon, .any⟩,
     ⟨0, 8, .rw, 0x0, .aon, .any⟩]⟩,
  ⟨0x4820, 0x0, 1, 0x0, 1, -- MBX_EC2U
    [⟨0, 32, .rw, 0x0, .aon, .any⟩]⟩,
  ⟨0x4824, 0x0, 1, 0x0, 1, -- MBX_U2EC
    [⟨0, 32, .rw, 0x0, .aon, .any⟩]⟩,
  ⟨0x4828, 0x0, 1, 0x0, 1, -- MBX_EC_STATUS
    [⟨31, 1, .ro, 0x0, .aon, .any⟩,
     ⟨30, 1, .ro, 0x0, .aon, .any⟩,
     ⟨29, 1, .ro, 0x0, .aon, .any⟩,
     ⟨8, 8, .rw, 0x0, .aon, .any⟩,
     ⟨0, 8, .rw, 0x0, .aon, .any⟩]⟩,
  ⟨0x4840, 0x0, 1, 0x0, 1, -- MBX_LOCK_STATE
    [⟨0, 16, .ro, 0x0, .aon, .any⟩]⟩,
  ⟨0x4844, 0x0, 1, 0x0, 1, -- MBX_LOCK_ERR
    [⟨16, 3, .ro, 0x0, .aon, .any⟩,
     ⟨0, 16, .w1c, 0x0, .aon, .any⟩]⟩,
  ⟨0x4880, 0x4, 16, 0x0, 1, -- MBX_LOCK
    [⟨31, 1, .rw, 0x0, .aon, .any⟩,
     ⟨0, 3, .rw, 0x0, .aon, .any⟩]⟩]

/-- The registers of the block at 0x4C00 to 0x4FFF. -/
def regsLog : List RegDesc :=
  [⟨0x4C00, 0x0, 1, 0x0, 1, -- LOG_CFG
    [⟨1, 13, .rw, 0x1561, .aon, .any⟩]⟩,
  ⟨0x4C04, 0x0, 1, 0x0, 1, -- LOG_STATUS
    [⟨24, 8, .rc, 0x0, .aon, .any⟩,
     ⟨12, 12, .ro, 0x0, .aon, .any⟩,
     ⟨0, 12, .ro, 0x0, .aon, .any⟩]⟩,
  ⟨0x4C08, 0x0, 1, 0x0, 1, -- LOG_NEXT_SEQ
    [⟨0, 32, .ro, 0x0, .aon, .any⟩]⟩,
  ⟨0x4C0C, 0x0, 1, 0x0, 1, -- LOG_RETAIN
    [⟨16, 16, .ro, 0x0, .aon, .any⟩,
     ⟨0, 16, .ro, 0x0, .aon, .any⟩]⟩]

/-- The registers of the block at 0x5000 to 0x53FF. -/
def regsSec : List RegDesc :=
  [⟨0x5000, 0x0, 1, 0x0, 1, -- SEC_FW_STATUS
    [⟨31, 1, .ro, 0x0, .aon, .any⟩,
     ⟨30, 1, .ro, 0x0, .aon, .any⟩,
     ⟨29, 1, .ro, 0x0, .aon, .any⟩,
     ⟨28, 1, .ro, 0x0, .aon, .any⟩,
     ⟨24, 1, .ro, 0x0, .aon, .any⟩,
     ⟨16, 8, .ro, 0x0, .aon, .any⟩,
     ⟨8, 1, .ro, 0x0, .aon, .any⟩]⟩,
  ⟨0x5004, 0x0, 1, 0x0, 1, -- SEC_FW_VER0
    [⟨0, 32, .ro, 0x0, .aon, .any⟩]⟩,
  ⟨0x5008, 0x0, 1, 0x0, 1, -- SEC_FW_VER1
    [⟨0, 32, .ro, 0x0, .aon, .any⟩]⟩,
  ⟨0x500C, 0x0, 1, 0x0, 1, -- SEC_RB
    [⟨0, 7, .ro, 0x0, .aon, .any⟩]⟩,
  ⟨0x5010, 0x0, 1, 0x0, 1, -- SEC_DBG_CTRL
    [⟨31, 1, .ro, 0x0, .aon, .any⟩]⟩,
  ⟨0x5014, 0x0, 1, 0x0, 1, -- SEC_NONCE
    [⟨0, 32, .ro, 0x0, .aon, .any⟩]⟩,
  ⟨0x5018, 0x0, 1, 0x0, 1, -- SEC_MRAM_ECC
    [⟨16, 16, .rc, 0x0, .aon, .any⟩,
     ⟨0, 16, .rc, 0x0, .aon, .any⟩]⟩,
  ⟨0x501C, 0x0, 1, 0x0, 1, -- SEC_CFG_STATUS
    [⟨31, 1, .ro, 0x0, .aon, .any⟩,
     ⟨0, 16, .ro, 0x0, .aon, .any⟩]⟩]

/-- The registers of the block at 0x5400 to 0x57FF. -/
def regsPin : List RegDesc :=
  [⟨0x5400, 0x4, 8, 0x0, 1, -- PIN_GPIO_CFG
    [⟨28, 4, .rw, 0x0, .aon, .codes [0, 1, 2, 3, 4]⟩,
     ⟨24, 4, .rw, 0x0, .aon, .any⟩,
     ⟨22, 2, .rw, 0x1, .aon, .codes [0, 1, 2]⟩,
     ⟨21, 1, .rw, 0x0, .aon, .any⟩,
     ⟨20, 1, .rw, 0x0, .aon, .any⟩,
     ⟨16, 4, .rw, 0x0, .aon, .any⟩,
     ⟨15, 1, .rw, 0x0, .aon, .any⟩]⟩,
  ⟨0x5420, 0x0, 1, 0x0, 1, -- PIN_GPIO_IN
    [⟨0, 8, .ro, 0x0, .aon, .any⟩]⟩,
  ⟨0x5424, 0x0, 1, 0x0, 1, -- PIN_GPIO_OUT
    [⟨0, 8, .rw, 0x0, .aon, .any⟩]⟩,
  ⟨0x5428, 0x0, 1, 0x0, 1, -- PIN_GPIO_EVENT
    [⟨8, 8, .w1c, 0x0, .aon, .any⟩,
     ⟨0, 8, .w1c, 0x0, .aon, .any⟩]⟩,
  ⟨0x542C, 0x0, 1, 0x0, 1, -- PIN_PAD_CFG
    [⟨8, 1, .rw, 0x0, .aon, .any⟩,
     ⟨4, 1, .rw, 0x1, .aon, .any⟩,
     ⟨0, 2, .rw, 0x1, .aon, .any⟩]⟩]

/-- The registers of the block at 0x6000 to 0x617F. -/
def regsPh : List RegDesc :=
  [⟨0x6000, 0x40, 6, 0x0, 1, -- PH_CFG
    [⟨16, 16, .rw, 0xFA0, .aon, .srng (250) (6000)⟩,
     ⟨0, 16, .rw, 0x1B58, .aon, .srng (1000) (8000)⟩]⟩,
  ⟨0x6004, 0x40, 6, 0x0, 1, -- PH_HW
    [⟨23, 9, .rw, 0xC8, .aon, .rng 50 500⟩,
     ⟨13, 10, .rw, 0x14A, .aon, .rng 47 1000⟩,
     ⟨12, 1, .rw, 0x0, .aon, .any⟩,
     ⟨8, 4, .rw, 0x8, .aon, .rng 1 15⟩,
     ⟨0, 8, .rw, 0x28, .aon, .rng 10 80⟩]⟩,
  ⟨0x6008, 0x40, 6, 0x0, 1, -- PH_DT
    [⟨20, 10, .rw, 0x280, .aon, .rng 1 1023⟩,
     ⟨10, 10, .rw, 0xD, .aon, .any⟩,
     ⟨0, 10, .rw, 0x80, .aon, .any⟩]⟩,
  ⟨0x600C, 0x40, 6, 0x0, 1, -- PH_TMIN
    [⟨16, 16, .rw, 0x500, .aon, .rng 1024 5120⟩,
     ⟨0, 16, .rw, 0x200, .aon, .rng 256 2560⟩]⟩,
  ⟨0x6010, 0x40, 6, 0x0, 1, -- PH_STATUS
    [⟨16, 16, .ro, 0x0, .aon, .any⟩,
     ⟨6, 2, .ro, 0x0, .aon, .any⟩,
     ⟨5, 1, .ro, 0x0, .aon, .any⟩,
     ⟨4, 1, .ro, 0x0, .aon, .any⟩,
     ⟨3, 1, .ro, 0x0, .aon, .any⟩,
     ⟨2, 1, .ro, 0x0, .aon, .any⟩,
     ⟨1, 1, .ro, 0x0, .aon, .any⟩,
     ⟨0, 1, .ro, 0x0, .aon, .any⟩]⟩,
  ⟨0x6014, 0x40, 6, 0x0, 1, -- PH_FAULT
    [⟨28, 4, .ro, 0x0, .aon, .any⟩,
     ⟨26, 2, .ro, 0x0, .aon, .any⟩,
     ⟨8, 8, .rc, 0x0, .aon, .any⟩,
     ⟨0, 4, .w1c, 0x0, .aon, .any⟩]⟩,
  ⟨0x6018, 0x40, 6, 0x0, 1, -- PH_SLOPE
    [⟨16, 16, .ro, 0x0, .aon, .any⟩,
     ⟨0, 16, .ro, 0x0, .aon, .any⟩]⟩,
  ⟨0x601C, 0x40, 6, 0x0, 1, -- PH_DTMEAS
    [⟨24, 8, .ro, 0x0, .aon, .any⟩,
     ⟨16, 8, .ro, 0x0, .aon, .any⟩,
     ⟨8, 8, .ro, 0x0, .aon, .any⟩,
     ⟨0, 8, .ro, 0x0, .aon, .any⟩]⟩]

/-- The registers of the block at 0x7000 to 0x73FF. -/
def regsCapCh : List RegDesc :=
  [⟨0x7000, 0x20, 16, 0x0, 1, -- CAP_FCH_SCALE
    [⟨0, 32, .ro, 0x0, .aon, .any⟩]⟩,
  ⟨0x7004, 0x20, 16, 0x0, 1, -- CAP_FCH_LAST
    [⟨0, 16, .ro, 0x0, .aon, .any⟩]⟩,
  ⟨0x7008, 0x20, 16, 0x0, 1, -- CAP_FCH_MINMAX
    [⟨16, 16, .rc, 0x0, .aon, .any⟩,
     ⟨0, 16, .rc, 0x0, .aon, .any⟩]⟩,
  ⟨0x7200, 0x10, 32, 0x0, 1, -- CAP_SCH_VALUE
    [⟨31, 1, .ro, 0x0, .aon, .any⟩,
     ⟨0, 16, .ro, 0x0, .aon, .any⟩]⟩,
  ⟨0x7204, 0x10, 32, 0x0, 1, -- CAP_SCH_TS
    [⟨0, 32, .ro, 0x0, .aon, .any⟩]⟩]

/-- The mapped blocks (R434): first address, last address, privileged (R14), registers. -/
def blocks : List Block :=
  [⟨0x0000, 0x03FF, false, regsGlb⟩,
   ⟨0x0400, 0x07FF, false, regsMod⟩,
   ⟨0x0800, 0x0FFF, false, regsCnv⟩,
   ⟨0x1000, 0x13FF, false, regsChg⟩,
   ⟨0x1400, 0x17FF, false, regsBgt⟩,
   ⟨0x1800, 0x1FFF, false, regsPd⟩,
   ⟨0x2000, 0x27FF, false, regsHif⟩,
   ⟨0x2800, 0x2FFF, false, regsCap⟩,
   ⟨0x3000, 0x33FF, false, regsThm⟩,
   ⟨0x3400, 0x37FF, false, regsTmr⟩,
   ⟨0x3800, 0x3BFF, false, regsSeq⟩,
   ⟨0x3C00, 0x3FFF, true, regsWdg⟩,
   ⟨0x4000, 0x43FF, false, regsTwb⟩,
   ⟨0x4400, 0x47FF, false, regsCsc⟩,
   ⟨0x4800, 0x4BFF, false, regsMbx⟩,
   ⟨0x4C00, 0x4FFF, false, regsLog⟩,
   ⟨0x5000, 0x53FF, true, regsSec⟩,
   ⟨0x5400, 0x57FF, false, regsPin⟩,
   ⟨0x6000, 0x617F, false, regsPh⟩,
   ⟨0x7000, 0x73FF, false, regsCapCh⟩]

end Sys2Proof.Machine.RegMap
end

