-- ==== Sys2Proof/Machine/RegFile.lean ====
section
/-! DEFINITION. The register space as data: a sorted list of (address, word) pairs without an entry equal to the word
an unlisted address reads, which is its reset word (R6, R434, R435, R441). -/

namespace Sys2Proof.Machine

/-- The block that an address lies in (R434). -/
def RegMap.blockOf (a : Nat) : Option Block := RegMap.blocks.find? fun b => b.first ≤ a && a ≤ b.last

/-- The register at an address (R436, R442); none for a reserved or unmapped address. -/
def RegMap.find (a : Nat) : Option RegDesc :=
  match RegMap.blockOf a with
  | none => none
  | some b => b.regs.find? fun d => d.at a

/-- The reset word of an address: 0 where no register stands. -/
def RegMap.resetWord (a : Nat) : Word :=
  match RegMap.find a with
  | none => 0
  | some d => d.resetWord

/-- The implemented bits of an address (R435, R441). -/
def RegMap.implMask (a : Nat) : Word :=
  match RegMap.find a with
  | none => 0
  | some d => d.implMask

/-- The bits of an address that a reset of a domain restores (R6). -/
def RegMap.domMask (a : Nat) (m : Dom) : Word :=
  match RegMap.find a with
  | none => 0
  | some d => d.domMask m

/-- The address lies in a mapped block (R434). -/
def RegMap.mapped (a : Nat) : Bool := (RegMap.blockOf a).isSome

/-- The address is a privileged register's (R14): the WDG and SEC blocks. -/
def RegMap.privileged (a : Nat) : Bool :=
  match RegMap.blockOf a with
  | none => false
  | some b => b.priv

/-- The word at an address. -/
def regRead (rf : List (Nat × Word)) (a : Nat) : Word :=
  match rf.lookup a with
  | some w => w
  | none => RegMap.resetWord a

/-- Puts a pair into a sorted list, replacing the one at its address. -/
def regInsert : List (Nat × Word) → Nat → Word → List (Nat × Word)
  | [], a, w => [(a, w)]
  | (b, v) :: t, a, w =>
    if a < b then (a, w) :: (b, v) :: t
    else if a = b then (a, w) :: t
    else (b, v) :: regInsert t a w

/-- Removes the pair at an address. -/
def regErase : List (Nat × Word) → Nat → List (Nat × Word)
  | [], _ => []
  | (b, v) :: t, a => if b = a then t else (b, v) :: regErase t a

/-- Writes a word: reserved bits stay 0 (R441), and the reset word is not listed. -/
def regWrite (rf : List (Nat × Word)) (a : Nat) (w : Word) : List (Nat × Word) :=
  if w &&& RegMap.implMask a = RegMap.resetWord a then regErase rf a
  else regInsert rf a (w &&& RegMap.implMask a)

/-- A reset of domain `m` (R6): every bit of the domain takes its reset value. -/
def regReset (m : Dom) (rf : List (Nat × Word)) : List (Nat × Word) :=
  rf.foldl (fun acc p =>
    regWrite acc p.1 ((p.2 &&& ~~~ RegMap.domMask p.1 m) ||| (RegMap.resetWord p.1 &&& RegMap.domMask p.1 m))) []

end Sys2Proof.Machine
end

