-- ==== Sys2Proof/Machine/Regs.lean ====
section
/-! DEFINITION. The registers' addresses and fields by the spec's own names, generated from the register tables of
spec/: `A.X` is the address of register X, `R.X.F` its field F. A register of an array takes the entry's index. -/

namespace Sys2Proof.Machine

/-- GLB_ID (R25). -/
abbrev A.GLB_ID : Nat := 0x0000
abbrev R.GLB_ID.VENDOR : Fld := ⟨A.GLB_ID, 16, 16⟩
abbrev R.GLB_ID.DEVICE : Fld := ⟨A.GLB_ID, 0, 16⟩
/-- GLB_REV (R25). -/
abbrev A.GLB_REV : Nat := 0x0004
abbrev R.GLB_REV.SILREV : Fld := ⟨A.GLB_REV, 8, 8⟩
abbrev R.GLB_REV.MASTER : Fld := ⟨A.GLB_REV, 2, 1⟩
abbrev R.GLB_REV.UNIT_IDX : Fld := ⟨A.GLB_REV, 0, 2⟩
/-- GLB_CLK_STATUS (R25). -/
abbrev A.GLB_CLK_STATUS : Nat := 0x0010
abbrev R.GLB_CLK_STATUS.XTAL_ACTIVE : Fld := ⟨A.GLB_CLK_STATUS, 15, 1⟩
abbrev R.GLB_CLK_STATUS.FLL_LOCK : Fld := ⟨A.GLB_CLK_STATUS, 14, 1⟩
abbrev R.GLB_CLK_STATUS.PLL_LOCK : Fld := ⟨A.GLB_CLK_STATUS, 13, 1⟩
abbrev R.GLB_CLK_STATUS.PLL_HOLDOVER : Fld := ⟨A.GLB_CLK_STATUS, 12, 1⟩
abbrev R.GLB_CLK_STATUS.RUN : Fld := ⟨A.GLB_CLK_STATUS, 0, 10⟩
/-- GLB_CLK_EVENT (R25). -/
abbrev A.GLB_CLK_EVENT : Nat := 0x0014
abbrev R.GLB_CLK_EVENT.REFCLK_LOSS : Fld := ⟨A.GLB_CLK_EVENT, 2, 1⟩
abbrev R.GLB_CLK_EVENT.PLL_UNLOCK : Fld := ⟨A.GLB_CLK_EVENT, 1, 1⟩
abbrev R.GLB_CLK_EVENT.XTAL_FAIL : Fld := ⟨A.GLB_CLK_EVENT, 0, 1⟩
/-- GLB_ACC_ERR_ADDR (R25). -/
abbrev A.GLB_ACC_ERR_ADDR : Nat := 0x0020
abbrev R.GLB_ACC_ERR_ADDR.ADDR : Fld := ⟨A.GLB_ACC_ERR_ADDR, 0, 16⟩
/-- GLB_ACC_ERR_INFO (R25). -/
abbrev A.GLB_ACC_ERR_INFO : Nat := 0x0024
abbrev R.GLB_ACC_ERR_INFO.VALID : Fld := ⟨A.GLB_ACC_ERR_INFO, 31, 1⟩
abbrev R.GLB_ACC_ERR_INFO.COUNT : Fld := ⟨A.GLB_ACC_ERR_INFO, 8, 16⟩
abbrev R.GLB_ACC_ERR_INFO.CAUSE : Fld := ⟨A.GLB_ACC_ERR_INFO, 4, 4⟩
abbrev R.GLB_ACC_ERR_INFO.WRITE : Fld := ⟨A.GLB_ACC_ERR_INFO, 3, 1⟩
abbrev R.GLB_ACC_ERR_INFO.INITIATOR : Fld := ⟨A.GLB_ACC_ERR_INFO, 0, 3⟩
/-- MOD_MODE_STATUS (R50). -/
abbrev A.MOD_MODE_STATUS : Nat := 0x0400
abbrev R.MOD_MODE_STATUS.SAFE_SET : Fld := ⟨A.MOD_MODE_STATUS, 24, 8⟩
abbrev R.MOD_MODE_STATUS.SAFE_CAUSE : Fld := ⟨A.MOD_MODE_STATUS, 20, 4⟩
abbrev R.MOD_MODE_STATUS.POR_CAUSE : Fld := ⟨A.MOD_MODE_STATUS, 17, 3⟩
abbrev R.MOD_MODE_STATUS.CFG_DEFAULT : Fld := ⟨A.MOD_MODE_STATUS, 16, 1⟩
abbrev R.MOD_MODE_STATUS.DB_START : Fld := ⟨A.MOD_MODE_STATUS, 15, 1⟩
abbrev R.MOD_MODE_STATUS.PLATFORM_ON : Fld := ⟨A.MOD_MODE_STATUS, 14, 1⟩
abbrev R.MOD_MODE_STATUS.ENTRY_PENDING : Fld := ⟨A.MOD_MODE_STATUS, 13, 1⟩
abbrev R.MOD_MODE_STATUS.MODE : Fld := ⟨A.MOD_MODE_STATUS, 0, 4⟩
/-- MOD_STRAP (R50). -/
abbrev A.MOD_STRAP : Nat := 0x0404
abbrev R.MOD_STRAP.STRAP_ERR : Fld := ⟨A.MOD_STRAP, 31, 1⟩
abbrev R.MOD_STRAP.DB : Fld := ⟨A.MOD_STRAP, 20, 4⟩
abbrev R.MOD_STRAP.VMIN : Fld := ⟨A.MOD_STRAP, 17, 3⟩
abbrev R.MOD_STRAP.ICHG : Fld := ⟨A.MOD_STRAP, 14, 3⟩
abbrev R.MOD_STRAP.VCHG : Fld := ⟨A.MOD_STRAP, 11, 3⟩
abbrev R.MOD_STRAP.CELL : Fld := ⟨A.MOD_STRAP, 8, 3⟩
abbrev R.MOD_STRAP.COMPAT : Fld := ⟨A.MOD_STRAP, 3, 1⟩
abbrev R.MOD_STRAP.ROLE : Fld := ⟨A.MOD_STRAP, 2, 1⟩
abbrev R.MOD_STRAP.IDX : Fld := ⟨A.MOD_STRAP, 0, 2⟩
/-- MOD_PWRBTN_CFG (R50). -/
abbrev A.MOD_PWRBTN_CFG : Nat := 0x0408
abbrev R.MOD_PWRBTN_CFG.ACTION : Fld := ⟨A.MOD_PWRBTN_CFG, 27, 1⟩
abbrev R.MOD_PWRBTN_CFG.T_BATOPEN : Fld := ⟨A.MOD_PWRBTN_CFG, 16, 11⟩
abbrev R.MOD_PWRBTN_CFG.T_LONGPRESS : Fld := ⟨A.MOD_PWRBTN_CFG, 0, 5⟩
/-- MOD_LOWPWR_CFG (R50). -/
abbrev A.MOD_LOWPWR_CFG : Nat := 0x040C
abbrev R.MOD_LOWPWR_CFG.AUTO_KA : Fld := ⟨A.MOD_LOWPWR_CFG, 31, 1⟩
abbrev R.MOD_LOWPWR_CFG.KA_IDLE : Fld := ⟨A.MOD_LOWPWR_CFG, 21, 10⟩
abbrev R.MOD_LOWPWR_CFG.HYB_DWELL : Fld := ⟨A.MOD_LOWPWR_CFG, 11, 10⟩
abbrev R.MOD_LOWPWR_CFG.VCUT : Fld := ⟨A.MOD_LOWPWR_CFG, 0, 11⟩
/-- MOD_SAFE_CFG (R50). -/
abbrev A.MOD_SAFE_CFG : Nat := 0x0410
abbrev R.MOD_SAFE_CFG.VSYS_OVP : Fld := ⟨A.MOD_SAFE_CFG, 0, 16⟩
/-- MOD_MATRIX_CFG (R101). -/
abbrev A.MOD_MATRIX_CFG : Nat := 0x0420
abbrev R.MOD_MATRIX_CFG.PAIR_TON : Fld := ⟨A.MOD_MATRIX_CFG, 16, 8⟩
abbrev R.MOD_MATRIX_CFG.COMBINE : Fld := ⟨A.MOD_MATRIX_CFG, 8, 1⟩
abbrev R.MOD_MATRIX_CFG.FIT_B : Fld := ⟨A.MOD_MATRIX_CFG, 4, 4⟩
abbrev R.MOD_MATRIX_CFG.FIT_A : Fld := ⟨A.MOD_MATRIX_CFG, 0, 4⟩
/-- MOD_MATRIX_STATUS (R101). -/
abbrev A.MOD_MATRIX_STATUS : Nat := 0x0424
abbrev R.MOD_MATRIX_STATUS.SRC : Fld := ⟨A.MOD_MATRIX_STATUS, 12, 4⟩
abbrev R.MOD_MATRIX_STATUS.SNK : Fld := ⟨A.MOD_MATRIX_STATUS, 8, 4⟩
abbrev R.MOD_MATRIX_STATUS.B_CONN : Fld := ⟨A.MOD_MATRIX_STATUS, 7, 1⟩
abbrev R.MOD_MATRIX_STATUS.B_AUTO : Fld := ⟨A.MOD_MATRIX_STATUS, 6, 1⟩
abbrev R.MOD_MATRIX_STATUS.B_PORT : Fld := ⟨A.MOD_MATRIX_STATUS, 4, 2⟩
abbrev R.MOD_MATRIX_STATUS.A_CONN : Fld := ⟨A.MOD_MATRIX_STATUS, 3, 1⟩
abbrev R.MOD_MATRIX_STATUS.A_AUTO : Fld := ⟨A.MOD_MATRIX_STATUS, 2, 1⟩
abbrev R.MOD_MATRIX_STATUS.A_PORT : Fld := ⟨A.MOD_MATRIX_STATUS, 0, 2⟩
/-- MOD_VSYS_CFG (R101). -/
abbrev A.MOD_VSYS_CFG : Nat := 0x0428
abbrev R.MOD_VSYS_CFG.VSYS_NOBAT : Fld := ⟨A.MOD_VSYS_CFG, 16, 16⟩
abbrev R.MOD_VSYS_CFG.VSYS_MIN : Fld := ⟨A.MOD_VSYS_CFG, 0, 16⟩
/-- MOD_VSYS_STATUS (R101). -/
abbrev A.MOD_VSYS_STATUS : Nat := 0x042C
abbrev R.MOD_VSYS_STATUS.VSYS : Fld := ⟨A.MOD_VSYS_STATUS, 16, 16⟩
abbrev R.MOD_VSYS_STATUS.TARGET : Fld := ⟨A.MOD_VSYS_STATUS, 0, 16⟩
/-- MOD_BATFET_CFG (R101). -/
abbrev A.MOD_BATFET_CFG : Nat := 0x0430
abbrev R.MOD_BATFET_CFG.ID_OFS : Fld := ⟨A.MOD_BATFET_CFG, 24, 8⟩
abbrev R.MOD_BATFET_CFG.RSNS_BAT : Fld := ⟨A.MOD_BATFET_CFG, 16, 8⟩
abbrev R.MOD_BATFET_CFG.PLIN_MAX : Fld := ⟨A.MOD_BATFET_CFG, 0, 16⟩
/-- MOD_BATFET_STATUS (R101). -/
abbrev A.MOD_BATFET_STATUS : Nat := 0x0434
abbrev R.MOD_BATFET_STATUS.FASTON : Fld := ⟨A.MOD_BATFET_STATUS, 6, 1⟩
abbrev R.MOD_BATFET_STATUS.LIN_FOLD : Fld := ⟨A.MOD_BATFET_STATUS, 5, 1⟩
abbrev R.MOD_BATFET_STATUS.SUPPLEMENT : Fld := ⟨A.MOD_BATFET_STATUS, 4, 1⟩
abbrev R.MOD_BATFET_STATUS.STATE : Fld := ⟨A.MOD_BATFET_STATUS, 0, 2⟩
/-- MOD_BAT_MEAS (R101). -/
abbrev A.MOD_BAT_MEAS : Nat := 0x0438
abbrev R.MOD_BAT_MEAS.VBAT : Fld := ⟨A.MOD_BAT_MEAS, 16, 16⟩
abbrev R.MOD_BAT_MEAS.IBAT : Fld := ⟨A.MOD_BAT_MEAS, 0, 16⟩
/-- MOD_SYS_MEAS (R101). -/
abbrev A.MOD_SYS_MEAS : Nat := 0x043C
abbrev R.MOD_SYS_MEAS.ISYS : Fld := ⟨A.MOD_SYS_MEAS, 16, 16⟩
abbrev R.MOD_SYS_MEAS.RSNS_SYS : Fld := ⟨A.MOD_SYS_MEAS, 0, 9⟩
/-- MOD_IN_CFG (R101). -/
abbrev A.MOD_IN_CFG (i : Nat) : Nat := 0x0440 + 0x10 * i
abbrev R.MOD_IN_CFG.DROP_PCT (i : Nat) : Fld := ⟨A.MOD_IN_CFG i, 24, 8⟩
abbrev R.MOD_IN_CFG.FLOOR_PCT (i : Nat) : Fld := ⟨A.MOD_IN_CFG i, 16, 8⟩
abbrev R.MOD_IN_CFG.IIN_MAX (i : Nat) : Fld := ⟨A.MOD_IN_CFG i, 0, 16⟩
/-- MOD_IN_HW (R101). -/
abbrev A.MOD_IN_HW (i : Nat) : Nat := 0x0444 + 0x10 * i
abbrev R.MOD_IN_HW.IIN_EFF (i : Nat) : Fld := ⟨A.MOD_IN_HW i, 16, 16⟩
abbrev R.MOD_IN_HW.RSNS_IN (i : Nat) : Fld := ⟨A.MOD_IN_HW i, 0, 10⟩
/-- MOD_IN_MEAS (R101). -/
abbrev A.MOD_IN_MEAS (i : Nat) : Nat := 0x0448 + 0x10 * i
abbrev R.MOD_IN_MEAS.VIN (i : Nat) : Fld := ⟨A.MOD_IN_MEAS i, 16, 16⟩
abbrev R.MOD_IN_MEAS.IIN (i : Nat) : Fld := ⟨A.MOD_IN_MEAS i, 0, 16⟩
/-- MOD_IN_STATE (R101). -/
abbrev A.MOD_IN_STATE (i : Nat) : Nat := 0x044C + 0x10 * i
abbrev R.MOD_IN_STATE.V_EXP (i : Nat) : Fld := ⟨A.MOD_IN_STATE i, 16, 16⟩
abbrev R.MOD_IN_STATE.DROP (i : Nat) : Fld := ⟨A.MOD_IN_STATE i, 7, 1⟩
abbrev R.MOD_IN_STATE.OVP (i : Nat) : Fld := ⟨A.MOD_IN_STATE i, 6, 1⟩
abbrev R.MOD_IN_STATE.REV (i : Nat) : Fld := ⟨A.MOD_IN_STATE i, 5, 1⟩
abbrev R.MOD_IN_STATE.FLOOR (i : Nat) : Fld := ⟨A.MOD_IN_STATE i, 4, 1⟩
/-- MOD_SRC_PMAX_PORT (R101). -/
abbrev A.MOD_SRC_PMAX_PORT : Nat := 0x0460
abbrev R.MOD_SRC_PMAX_PORT.PMAX : Fld := ⟨A.MOD_SRC_PMAX_PORT, 0, 32⟩
/-- MOD_SRC_PMAX_UNIT (R101). -/
abbrev A.MOD_SRC_PMAX_UNIT : Nat := 0x0464
abbrev R.MOD_SRC_PMAX_UNIT.PMAX : Fld := ⟨A.MOD_SRC_PMAX_UNIT, 0, 32⟩
/-- MOD_PP_EVENT (R101). -/
abbrev A.MOD_PP_EVENT : Nat := 0x0468
abbrev R.MOD_PP_EVENT.SRC_SHORT : Fld := ⟨A.MOD_PP_EVENT, 12, 4⟩
abbrev R.MOD_PP_EVENT.SRC_OVL : Fld := ⟨A.MOD_PP_EVENT, 8, 4⟩
abbrev R.MOD_PP_EVENT.SRC_REV : Fld := ⟨A.MOD_PP_EVENT, 4, 4⟩
abbrev R.MOD_PP_EVENT.OVP_LOCK : Fld := ⟨A.MOD_PP_EVENT, 0, 4⟩
/-- CNV_STATUS (R74). -/
abbrev A.CNV_STATUS : Nat := 0x0800
abbrev R.CNV_STATUS.RETIRED : Fld := ⟨A.CNV_STATUS, 24, 6⟩
abbrev R.CNV_STATUS.SHED : Fld := ⟨A.CNV_STATUS, 16, 6⟩
abbrev R.CNV_STATUS.SWITCHING : Fld := ⟨A.CNV_STATUS, 8, 6⟩
abbrev R.CNV_STATUS.VDRV_UV : Fld := ⟨A.CNV_STATUS, 4, 1⟩
abbrev R.CNV_STATUS.VDRV_OK : Fld := ⟨A.CNV_STATUS, 3, 1⟩
abbrev R.CNV_STATUS.STAGE_EN : Fld := ⟨A.CNV_STATUS, 0, 1⟩
/-- CNV_PHASE_MAP (R74). -/
abbrev A.CNV_PHASE_MAP : Nat := 0x0804
abbrev R.CNV_PHASE_MAP.REINST_CNT : Fld := ⟨A.CNV_PHASE_MAP, 12, 12⟩
abbrev R.CNV_PHASE_MAP.MAP : Fld := ⟨A.CNV_PHASE_MAP, 0, 12⟩
/-- CNV_UNIT_LIMIT (R74). -/
abbrev A.CNV_UNIT_LIMIT : Nat := 0x0808
abbrev R.CNV_UNIT_LIMIT.PMAX : Fld := ⟨A.CNV_UNIT_LIMIT, 0, 32⟩
/-- CNV_GRP_CFG (R74). -/
abbrev A.CNV_GRP_CFG (i : Nat) : Nat := 0x0810 + 0x20 * i
abbrev R.CNV_GRP_CFG.DIR (i : Nat) : Fld := ⟨A.CNV_GRP_CFG i, 31, 1⟩
abbrev R.CNV_GRP_CFG.SHED_MIN (i : Nat) : Fld := ⟨A.CNV_GRP_CFG i, 28, 3⟩
abbrev R.CNV_GRP_CFG.SHED_EN (i : Nat) : Fld := ⟨A.CNV_GRP_CFG i, 27, 1⟩
abbrev R.CNV_GRP_CFG.HALF_PERIOD (i : Nat) : Fld := ⟨A.CNV_GRP_CFG i, 0, 16⟩
/-- CNV_GRP_LOOP (R74). -/
abbrev A.CNV_GRP_LOOP (i : Nat) : Nat := 0x0814 + 0x20 * i
abbrev R.CNV_GRP_LOOP.KI (i : Nat) : Fld := ⟨A.CNV_GRP_LOOP i, 16, 16⟩
abbrev R.CNV_GRP_LOOP.KP (i : Nat) : Fld := ⟨A.CNV_GRP_LOOP i, 0, 16⟩
/-- CNV_GRP_DYN (R74). -/
abbrev A.CNV_GRP_DYN (i : Nat) : Nat := 0x0818 + 0x20 * i
abbrev R.CNV_GRP_DYN.SLEW (i : Nat) : Fld := ⟨A.CNV_GRP_DYN i, 24, 8⟩
abbrev R.CNV_GRP_DYN.SHED_HI (i : Nat) : Fld := ⟨A.CNV_GRP_DYN i, 8, 8⟩
abbrev R.CNV_GRP_DYN.SHED_LO (i : Nat) : Fld := ⟨A.CNV_GRP_DYN i, 0, 8⟩
/-- CNV_GRP_STATUS (R74). -/
abbrev A.CNV_GRP_STATUS (i : Nat) : Nat := 0x081C + 0x20 * i
abbrev R.CNV_GRP_STATUS.IREF (i : Nat) : Fld := ⟨A.CNV_GRP_STATUS i, 16, 16⟩
abbrev R.CNV_GRP_STATUS.LIMITER (i : Nat) : Fld := ⟨A.CNV_GRP_STATUS i, 6, 10⟩
abbrev R.CNV_GRP_STATUS.REGION (i : Nat) : Fld := ⟨A.CNV_GRP_STATUS i, 4, 2⟩
abbrev R.CNV_GRP_STATUS.SAT (i : Nat) : Fld := ⟨A.CNV_GRP_STATUS i, 3, 1⟩
abbrev R.CNV_GRP_STATUS.N_SW (i : Nat) : Fld := ⟨A.CNV_GRP_STATUS i, 0, 3⟩
/-- CNV_GRP_PMAX (R74). -/
abbrev A.CNV_GRP_PMAX (i : Nat) : Nat := 0x0820 + 0x20 * i
abbrev R.CNV_GRP_PMAX.PMAX (i : Nat) : Fld := ⟨A.CNV_GRP_PMAX i, 0, 32⟩
/-- CHG_STATUS (R133). -/
abbrev A.CHG_STATUS : Nat := 0x1000
abbrev R.CHG_STATUS.PHASE : Fld := ⟨A.CHG_STATUS, 28, 4⟩
abbrev R.CHG_STATUS.STEP : Fld := ⟨A.CHG_STATUS, 25, 3⟩
abbrev R.CHG_STATUS.ZONE : Fld := ⟨A.CHG_STATUS, 22, 3⟩
abbrev R.CHG_STATUS.STOPPED : Fld := ⟨A.CHG_STATUS, 21, 1⟩
abbrev R.CHG_STATUS.CYCLE : Fld := ⟨A.CHG_STATUS, 20, 1⟩
abbrev R.CHG_STATUS.HALF_RATE : Fld := ⟨A.CHG_STATUS, 19, 1⟩
abbrev R.CHG_STATUS.TAPS : Fld := ⟨A.CHG_STATUS, 18, 1⟩
abbrev R.CHG_STATUS.PM_ACTIVE : Fld := ⟨A.CHG_STATUS, 17, 1⟩
abbrev R.CHG_STATUS.LEARN_CAP : Fld := ⟨A.CHG_STATUS, 16, 1⟩
abbrev R.CHG_STATUS.LIM : Fld := ⟨A.CHG_STATUS, 12, 4⟩
abbrev R.CHG_STATUS.SUSP : Fld := ⟨A.CHG_STATUS, 8, 4⟩
abbrev R.CHG_STATUS.FAULT : Fld := ⟨A.CHG_STATUS, 0, 4⟩
/-- CHG_CURRENT (R133). -/
abbrev A.CHG_CURRENT : Nat := 0x1004
abbrev R.CHG_CURRENT.I_TGT : Fld := ⟨A.CHG_CURRENT, 16, 16⟩
abbrev R.CHG_CURRENT.I_SET : Fld := ⟨A.CHG_CURRENT, 0, 16⟩
/-- CHG_VOLTAGE (R133). -/
abbrev A.CHG_VOLTAGE : Nat := 0x1008
abbrev R.CHG_VOLTAGE.VCHG_PACK : Fld := ⟨A.CHG_VOLTAGE, 16, 16⟩
abbrev R.CHG_VOLTAGE.VCELL_HI : Fld := ⟨A.CHG_VOLTAGE, 0, 16⟩
/-- CHG_LIMIT (R133). -/
abbrev A.CHG_LIMIT : Nat := 0x100C
abbrev R.CHG_LIMIT.ICHG_HOST : Fld := ⟨A.CHG_LIMIT, 16, 16⟩
abbrev R.CHG_LIMIT.ICHG_STRAP : Fld := ⟨A.CHG_LIMIT, 0, 16⟩
/-- CHG_TIMER (R133). -/
abbrev A.CHG_TIMER : Nat := 0x1010
abbrev R.CHG_TIMER.FAST : Fld := ⟨A.CHG_TIMER, 16, 16⟩
abbrev R.CHG_TIMER.PRE : Fld := ⟨A.CHG_TIMER, 0, 16⟩
/-- CHG_FAULT (R133). -/
abbrev A.CHG_FAULT : Nat := 0x1014
abbrev R.CHG_FAULT.CAUSE : Fld := ⟨A.CHG_FAULT, 28, 4⟩
abbrev R.CHG_FAULT.RUN_LIM : Fld := ⟨A.CHG_FAULT, 24, 4⟩
abbrev R.CHG_FAULT.COV_TRIPS : Fld := ⟨A.CHG_FAULT, 8, 2⟩
/-- CHG_COV_CFG (R133). -/
abbrev A.CHG_COV_CFG : Nat := 0x1018
abbrev R.CHG_COV_CFG.TAPS_OFF : Fld := ⟨A.CHG_COV_CFG, 31, 1⟩
abbrev R.CHG_COV_CFG.COV_TH : Fld := ⟨A.CHG_COV_CFG, 0, 16⟩
/-- CHG_COV_STATUS (R133). -/
abbrev A.CHG_COV_STATUS : Nat := 0x101C
abbrev R.CHG_COV_STATUS.LATCH : Fld := ⟨A.CHG_COV_STATUS, 15, 1⟩
abbrev R.CHG_COV_STATUS.PACK_LVL : Fld := ⟨A.CHG_COV_STATUS, 14, 1⟩
abbrev R.CHG_COV_STATUS.ACTIVE : Fld := ⟨A.CHG_COV_STATUS, 8, 5⟩
abbrev R.CHG_COV_STATUS.SEEN : Fld := ⟨A.CHG_COV_STATUS, 0, 5⟩
/-- CHG_TEMP_CFG (R133). -/
abbrev A.CHG_TEMP_CFG : Nat := 0x1020
abbrev R.CHG_TEMP_CFG.PACK_NTC : Fld := ⟨A.CHG_TEMP_CFG, 28, 4⟩
abbrev R.CHG_TEMP_CFG.PRES_NTC : Fld := ⟨A.CHG_TEMP_CFG, 27, 1⟩
/-- CHG_PACK_STATUS (R133). -/
abbrev A.CHG_PACK_STATUS : Nat := 0x1024
abbrev R.CHG_PACK_STATUS.TPACK : Fld := ⟨A.CHG_PACK_STATUS, 16, 16⟩
abbrev R.CHG_PACK_STATUS.PRESENT : Fld := ⟨A.CHG_PACK_STATUS, 2, 1⟩
abbrev R.CHG_PACK_STATUS.NTC_FAULT : Fld := ⟨A.CHG_PACK_STATUS, 1, 1⟩
abbrev R.CHG_PACK_STATUS.PROFILE_OK : Fld := ⟨A.CHG_PACK_STATUS, 0, 1⟩
/-- CHG_EST_STATUS (R133). -/
abbrev A.CHG_EST_STATUS : Nat := 0x1028
abbrev R.CHG_EST_STATUS.STATE : Fld := ⟨A.CHG_EST_STATUS, 28, 4⟩
abbrev R.CHG_EST_STATUS.DATA_S : Fld := ⟨A.CHG_EST_STATUS, 16, 12⟩
abbrev R.CHG_EST_STATUS.VAR : Fld := ⟨A.CHG_EST_STATUS, 8, 8⟩
abbrev R.CHG_EST_STATUS.SNAP_SEQ : Fld := ⟨A.CHG_EST_STATUS, 0, 8⟩
/-- CHG_EST_LIMIT (R133). -/
abbrev A.CHG_EST_LIMIT : Nat := 0x102C
abbrev R.CHG_EST_LIMIT.I_PLATE : Fld := ⟨A.CHG_EST_LIMIT, 16, 16⟩
abbrev R.CHG_EST_LIMIT.MARGIN : Fld := ⟨A.CHG_EST_LIMIT, 0, 16⟩
/-- CHG_CELL_R (R134). -/
abbrev A.CHG_CELL_R (i : Nat) : Nat := 0x1040 + 0x10 * i
abbrev R.CHG_CELL_R.RCT (i : Nat) : Fld := ⟨A.CHG_CELL_R i, 16, 16⟩
abbrev R.CHG_CELL_R.ROHM (i : Nat) : Fld := ⟨A.CHG_CELL_R i, 0, 16⟩
/-- CHG_CELL_M (R134). -/
abbrev A.CHG_CELL_M (i : Nat) : Nat := 0x1044 + 0x10 * i
abbrev R.CHG_CELL_M.MARGIN (i : Nat) : Fld := ⟨A.CHG_CELL_M i, 16, 16⟩
abbrev R.CHG_CELL_M.TAU (i : Nat) : Fld := ⟨A.CHG_CELL_M i, 0, 16⟩
/-- CHG_CELL_V (R134). -/
abbrev A.CHG_CELL_V (i : Nat) : Nat := 0x1048 + 0x10 * i
abbrev R.CHG_CELL_V.VCELL (i : Nat) : Fld := ⟨A.CHG_CELL_V i, 0, 16⟩
/-- CHG_PROFILE (R134). -/
abbrev A.CHG_PROFILE (i : Nat) : Nat := 0x1100 + 0x4 * i
abbrev R.CHG_PROFILE.W (i : Nat) : Fld := ⟨A.CHG_PROFILE i, 0, 32⟩
/-- BGT_STATUS (R157). -/
abbrev A.BGT_STATUS : Nat := 0x1400
abbrev R.BGT_STATUS.SOURCE : Fld := ⟨A.BGT_STATUS, 30, 2⟩
abbrev R.BGT_STATUS.OVL : Fld := ⟨A.BGT_STATUS, 20, 4⟩
abbrev R.BGT_STATUS.SHED : Fld := ⟨A.BGT_STATUS, 16, 4⟩
abbrev R.BGT_STATUS.MEMBERS : Fld := ⟨A.BGT_STATUS, 12, 4⟩
abbrev R.BGT_STATUS.INTENTS : Fld := ⟨A.BGT_STATUS, 8, 4⟩
abbrev R.BGT_STATUS.THROT : Fld := ⟨A.BGT_STATUS, 3, 1⟩
abbrev R.BGT_STATUS.RELIEF : Fld := ⟨A.BGT_STATUS, 0, 3⟩
/-- BGT_SUPPLY_CFG (R157). -/
abbrev A.BGT_SUPPLY_CFG : Nat := 0x1404
abbrev R.BGT_SUPPLY_CFG.FALLBACK_PCT : Fld := ⟨A.BGT_SUPPLY_CFG, 16, 8⟩
abbrev R.BGT_SUPPLY_CFG.OVL_TIER : Fld := ⟨A.BGT_SUPPLY_CFG, 8, 2⟩
abbrev R.BGT_SUPPLY_CFG.MARGIN_PCT : Fld := ⟨A.BGT_SUPPLY_CFG, 0, 8⟩
/-- BGT_PACK_CFG (R157). -/
abbrev A.BGT_PACK_CFG : Nat := 0x1408
abbrev R.BGT_PACK_CFG.IDSG_PEAK : Fld := ⟨A.BGT_PACK_CFG, 16, 16⟩
abbrev R.BGT_PACK_CFG.IDSG_CONT : Fld := ⟨A.BGT_PACK_CFG, 0, 16⟩
/-- BGT_PACK_PEAK (R157). -/
abbrev A.BGT_PACK_PEAK : Nat := 0x140C
abbrev R.BGT_PACK_PEAK.CREDIT : Fld := ⟨A.BGT_PACK_PEAK, 16, 16⟩
abbrev R.BGT_PACK_PEAK.PEAK_T : Fld := ⟨A.BGT_PACK_PEAK, 0, 16⟩
/-- BGT_THROT_CFG (R157). -/
abbrev A.BGT_THROT_CFG : Nat := 0x1410
abbrev R.BGT_THROT_CFG.HYST : Fld := ⟨A.BGT_THROT_CFG, 24, 8⟩
abbrev R.BGT_THROT_CFG.HOLD : Fld := ⟨A.BGT_THROT_CFG, 0, 16⟩
/-- BGT_SRC_CFG (R157). -/
abbrev A.BGT_SRC_CFG : Nat := 0x1414
abbrev R.BGT_SRC_CFG.RESTORE_T : Fld := ⟨A.BGT_SRC_CFG, 26, 6⟩
abbrev R.BGT_SRC_CFG.SHED_T : Fld := ⟨A.BGT_SRC_CFG, 14, 12⟩
abbrev R.BGT_SRC_CFG.HR_DELAY : Fld := ⟨A.BGT_SRC_CFG, 0, 10⟩
/-- BGT_SRC_PRIO (R157). -/
abbrev A.BGT_SRC_PRIO : Nat := 0x1418
abbrev R.BGT_SRC_PRIO.PRIO : Fld := ⟨A.BGT_SRC_PRIO, 0, 8⟩
/-- BGT_SRC_FLOOR (R157). -/
abbrev A.BGT_SRC_FLOOR : Nat := 0x141C
abbrev R.BGT_SRC_FLOOR.FLOOR : Fld := ⟨A.BGT_SRC_FLOOR, 0, 32⟩
/-- BGT_INTENT_CFG (R157). -/
abbrev A.BGT_INTENT_CFG : Nat := 0x1420
abbrev R.BGT_INTENT_CFG.LEAD : Fld := ⟨A.BGT_INTENT_CFG, 0, 16⟩
/-- BGT_EVENT (R157). -/
abbrev A.BGT_EVENT : Nat := 0x1424
abbrev R.BGT_EVENT.CHG_OVERRUN : Fld := ⟨A.BGT_EVENT, 7, 1⟩
abbrev R.BGT_EVENT.FOLLOWER_LOST : Fld := ⟨A.BGT_EVENT, 6, 1⟩
abbrev R.BGT_EVENT.MASTER_LOST : Fld := ⟨A.BGT_EVENT, 5, 1⟩
abbrev R.BGT_EVENT.SRC_HR : Fld := ⟨A.BGT_EVENT, 0, 4⟩
/-- BGT_THROT_CNT (R157). -/
abbrev A.BGT_THROT_CNT : Nat := 0x1428
abbrev R.BGT_THROT_CNT.COUNT : Fld := ⟨A.BGT_THROT_CNT, 0, 16⟩
/-- BGT_STR_CHG (R157). -/
abbrev A.BGT_STR_CHG : Nat := 0x1430
abbrev R.BGT_STR_CHG.P : Fld := ⟨A.BGT_STR_CHG, 0, 32⟩
/-- BGT_P_BAT (R157). -/
abbrev A.BGT_P_BAT : Nat := 0x1434
abbrev R.BGT_P_BAT.P : Fld := ⟨A.BGT_P_BAT, 0, 32⟩
/-- BGT_THROT_CEIL (R157). -/
abbrev A.BGT_THROT_CEIL : Nat := 0x1438
abbrev R.BGT_THROT_CEIL.P : Fld := ⟨A.BGT_THROT_CEIL, 0, 32⟩
/-- BGT_STR_IN (R157). -/
abbrev A.BGT_STR_IN (i : Nat) : Nat := 0x1440 + 0x4 * i
abbrev R.BGT_STR_IN.P (i : Nat) : Fld := ⟨A.BGT_STR_IN i, 0, 32⟩
/-- BGT_STR_SRC (R157). -/
abbrev A.BGT_STR_SRC (i : Nat) : Nat := 0x1450 + 0x4 * i
abbrev R.BGT_STR_SRC.P (i : Nat) : Fld := ⟨A.BGT_STR_SRC i, 0, 32⟩
/-- BGT_SNAP_SUPPLY (R157). -/
abbrev A.BGT_SNAP_SUPPLY : Nat := 0x1460
abbrev R.BGT_SNAP_SUPPLY.P : Fld := ⟨A.BGT_SNAP_SUPPLY, 0, 32⟩
/-- BGT_SNAP_DEMAND (R157). -/
abbrev A.BGT_SNAP_DEMAND : Nat := 0x1464
abbrev R.BGT_SNAP_DEMAND.P : Fld := ⟨A.BGT_SNAP_DEMAND, 0, 32⟩
/-- BGT_SNAP_SHORT (R157). -/
abbrev A.BGT_SNAP_SHORT : Nat := 0x1468
abbrev R.BGT_SNAP_SHORT.P : Fld := ⟨A.BGT_SNAP_SHORT, 0, 32⟩
/-- BGT_SNAP_SEQ (R157). -/
abbrev A.BGT_SNAP_SEQ : Nat := 0x146C
abbrev R.BGT_SNAP_SEQ.SEQ : Fld := ⟨A.BGT_SNAP_SEQ, 0, 8⟩
/-- PD_TC_CFG (R188). -/
abbrev A.PD_TC_CFG (i : Nat) : Nat := 0x1800 + 0x200 * i
abbrev R.PD_TC_CFG.ROLE (i : Nat) : Fld := ⟨A.PD_TC_CFG i, 30, 2⟩
abbrev R.PD_TC_CFG.TRY (i : Nat) : Fld := ⟨A.PD_TC_CFG i, 28, 2⟩
abbrev R.PD_TC_CFG.RP_LVL (i : Nat) : Fld := ⟨A.PD_TC_CFG i, 26, 2⟩
abbrev R.PD_TC_CFG.ACC_EN (i : Nat) : Fld := ⟨A.PD_TC_CFG i, 25, 1⟩
abbrev R.PD_TC_CFG.MOIST_EN (i : Nat) : Fld := ⟨A.PD_TC_CFG i, 24, 1⟩
abbrev R.PD_TC_CFG.VCONN_EN (i : Nat) : Fld := ⟨A.PD_TC_CFG i, 23, 1⟩
abbrev R.PD_TC_CFG.DB (i : Nat) : Fld := ⟨A.PD_TC_CFG i, 19, 1⟩
/-- PD_TC_TIMING (R188). -/
abbrev A.PD_TC_TIMING (i : Nat) : Nat := 0x1804 + 0x200 * i
abbrev R.PD_TC_TIMING.ATTACH_DB (i : Nat) : Fld := ⟨A.PD_TC_TIMING i, 24, 8⟩
abbrev R.PD_TC_TIMING.DRP_PERIOD (i : Nat) : Fld := ⟨A.PD_TC_TIMING i, 16, 8⟩
abbrev R.PD_TC_TIMING.DRP_DUTY (i : Nat) : Fld := ⟨A.PD_TC_TIMING i, 8, 8⟩
abbrev R.PD_TC_TIMING.KA_SCAN (i : Nat) : Fld := ⟨A.PD_TC_TIMING i, 0, 8⟩
/-- PD_CC_STATUS (R188). -/
abbrev A.PD_CC_STATUS (i : Nat) : Nat := 0x1808 + 0x200 * i
abbrev R.PD_CC_STATUS.TC_STATE (i : Nat) : Fld := ⟨A.PD_CC_STATUS i, 28, 4⟩
abbrev R.PD_CC_STATUS.ATTACHED (i : Nat) : Fld := ⟨A.PD_CC_STATUS i, 27, 1⟩
abbrev R.PD_CC_STATUS.POLARITY (i : Nat) : Fld := ⟨A.PD_CC_STATUS i, 26, 1⟩
abbrev R.PD_CC_STATUS.POWER_ROLE (i : Nat) : Fld := ⟨A.PD_CC_STATUS i, 24, 2⟩
abbrev R.PD_CC_STATUS.PARTNER (i : Nat) : Fld := ⟨A.PD_CC_STATUS i, 21, 3⟩
abbrev R.PD_CC_STATUS.SRC_AVAIL (i : Nat) : Fld := ⟨A.PD_CC_STATUS i, 20, 1⟩
abbrev R.PD_CC_STATUS.VBUS_OK (i : Nat) : Fld := ⟨A.PD_CC_STATUS i, 19, 1⟩
abbrev R.PD_CC_STATUS.SINK_TX (i : Nat) : Fld := ⟨A.PD_CC_STATUS i, 16, 2⟩
abbrev R.PD_CC_STATUS.CC2_V (i : Nat) : Fld := ⟨A.PD_CC_STATUS i, 8, 8⟩
abbrev R.PD_CC_STATUS.CC1_V (i : Nat) : Fld := ⟨A.PD_CC_STATUS i, 0, 8⟩
/-- PD_VCONN (R188). -/
abbrev A.PD_VCONN (i : Nat) : Nat := 0x180C + 0x200 * i
abbrev R.PD_VCONN.ON (i : Nat) : Fld := ⟨A.PD_VCONN i, 15, 1⟩
abbrev R.PD_VCONN.PIN (i : Nat) : Fld := ⟨A.PD_VCONN i, 14, 1⟩
abbrev R.PD_VCONN.OCP (i : Nat) : Fld := ⟨A.PD_VCONN i, 11, 1⟩
abbrev R.PD_VCONN.REV (i : Nat) : Fld := ⟨A.PD_VCONN i, 10, 1⟩
abbrev R.PD_VCONN.IVCONN (i : Nat) : Fld := ⟨A.PD_VCONN i, 0, 10⟩
/-- PD_MOIST_CFG (R188). -/
abbrev A.PD_MOIST_CFG (i : Nat) : Nat := 0x1810 + 0x200 * i
abbrev R.PD_MOIST_CFG.WET_Z (i : Nat) : Fld := ⟨A.PD_MOIST_CFG i, 24, 8⟩
abbrev R.PD_MOIST_CFG.DRY_SCAN (i : Nat) : Fld := ⟨A.PD_MOIST_CFG i, 16, 8⟩
abbrev R.PD_MOIST_CFG.GALV_MV (i : Nat) : Fld := ⟨A.PD_MOIST_CFG i, 8, 8⟩
/-- PD_MOIST_STATUS (R188). -/
abbrev A.PD_MOIST_STATUS (i : Nat) : Nat := 0x1814 + 0x200 * i
abbrev R.PD_MOIST_STATUS.WET (i : Nat) : Fld := ⟨A.PD_MOIST_STATUS i, 31, 1⟩
abbrev R.PD_MOIST_STATUS.CORRODED (i : Nat) : Fld := ⟨A.PD_MOIST_STATUS i, 30, 1⟩
abbrev R.PD_MOIST_STATUS.CLEAN_CNT (i : Nat) : Fld := ⟨A.PD_MOIST_STATUS i, 28, 2⟩
abbrev R.PD_MOIST_STATUS.WET_PINS (i : Nat) : Fld := ⟨A.PD_MOIST_STATUS i, 24, 4⟩
abbrev R.PD_MOIST_STATUS.WET_CNT (i : Nat) : Fld := ⟨A.PD_MOIST_STATUS i, 16, 8⟩
/-- PD_MOIST_Z (R188). -/
abbrev A.PD_MOIST_Z (i : Nat) : Nat := 0x1818 + 0x200 * i
abbrev R.PD_MOIST_Z.SBU2 (i : Nat) : Fld := ⟨A.PD_MOIST_Z i, 24, 8⟩
abbrev R.PD_MOIST_Z.SBU1 (i : Nat) : Fld := ⟨A.PD_MOIST_Z i, 16, 8⟩
abbrev R.PD_MOIST_Z.CC2 (i : Nat) : Fld := ⟨A.PD_MOIST_Z i, 8, 8⟩
abbrev R.PD_MOIST_Z.CC1 (i : Nat) : Fld := ⟨A.PD_MOIST_Z i, 0, 8⟩
/-- PD_PRL_STATUS (R188). -/
abbrev A.PD_PRL_STATUS (i : Nat) : Nat := 0x1820 + 0x200 * i
abbrev R.PD_PRL_STATUS.PARTNER_REV (i : Nat) : Fld := ⟨A.PD_PRL_STATUS i, 30, 2⟩
abbrev R.PD_PRL_STATUS.CABLE_REV (i : Nat) : Fld := ⟨A.PD_PRL_STATUS i, 28, 2⟩
abbrev R.PD_PRL_STATUS.TX_FAIL (i : Nat) : Fld := ⟨A.PD_PRL_STATUS i, 16, 8⟩
abbrev R.PD_PRL_STATUS.RX_DISC (i : Nat) : Fld := ⟨A.PD_PRL_STATUS i, 8, 8⟩
abbrev R.PD_PRL_STATUS.HR_CNT (i : Nat) : Fld := ⟨A.PD_PRL_STATUS i, 0, 8⟩
/-- PD_CABLE (R188). -/
abbrev A.PD_CABLE (i : Nat) : Nat := 0x1824 + 0x200 * i
abbrev R.PD_CABLE.VALID (i : Nat) : Fld := ⟨A.PD_CABLE i, 31, 1⟩
abbrev R.PD_CABLE.EPR (i : Nat) : Fld := ⟨A.PD_CABLE i, 30, 1⟩
abbrev R.PD_CABLE.VMAX (i : Nat) : Fld := ⟨A.PD_CABLE i, 28, 2⟩
abbrev R.PD_CABLE.IMAX (i : Nat) : Fld := ⟨A.PD_CABLE i, 26, 2⟩
abbrev R.PD_CABLE.ACTIVE (i : Nat) : Fld := ⟨A.PD_CABLE i, 25, 1⟩
abbrev R.PD_CABLE.CABLE_VID (i : Nat) : Fld := ⟨A.PD_CABLE i, 0, 16⟩
/-- PD_EVENT (R188). -/
abbrev A.PD_EVENT (i : Nat) : Nat := 0x1828 + 0x200 * i
abbrev R.PD_EVENT.ATTACH (i : Nat) : Fld := ⟨A.PD_EVENT i, 7, 1⟩
abbrev R.PD_EVENT.DETACH (i : Nat) : Fld := ⟨A.PD_EVENT i, 6, 1⟩
abbrev R.PD_EVENT.WET (i : Nat) : Fld := ⟨A.PD_EVENT i, 5, 1⟩
abbrev R.PD_EVENT.DRY (i : Nat) : Fld := ⟨A.PD_EVENT i, 4, 1⟩
abbrev R.PD_EVENT.VCONN_FAULT (i : Nat) : Fld := ⟨A.PD_EVENT i, 3, 1⟩
abbrev R.PD_EVENT.CABLE (i : Nat) : Fld := ⟨A.PD_EVENT i, 2, 1⟩
abbrev R.PD_EVENT.TX_FAIL (i : Nat) : Fld := ⟨A.PD_EVENT i, 1, 1⟩
abbrev R.PD_EVENT.ACCESSORY (i : Nat) : Fld := ⟨A.PD_EVENT i, 0, 1⟩
/-- PD_CTRL (R188). -/
abbrev A.PD_CTRL (i : Nat) : Nat := 0x182C + 0x200 * i
abbrev R.PD_CTRL.DISABLE (i : Nat) : Fld := ⟨A.PD_CTRL i, 31, 1⟩
abbrev R.PD_CTRL.ERR_RECOVERY (i : Nat) : Fld := ⟨A.PD_CTRL i, 30, 1⟩
/-- PD_VBUS_MEAS (R188). -/
abbrev A.PD_VBUS_MEAS (i : Nat) : Nat := 0x1830 + 0x200 * i
abbrev R.PD_VBUS_MEAS.VBUS (i : Nat) : Fld := ⟨A.PD_VBUS_MEAS i, 16, 16⟩
/-- PD_PE_CFG (R223). -/
abbrev A.PD_PE_CFG (i : Nat) : Nat := 0x1840 + 0x200 * i
abbrev R.PD_PE_CFG.EPR_EN (i : Nat) : Fld := ⟨A.PD_PE_CFG i, 31, 1⟩
abbrev R.PD_PE_CFG.PPS_EN (i : Nat) : Fld := ⟨A.PD_PE_CFG i, 30, 1⟩
abbrev R.PD_PE_CFG.FRS_EN (i : Nat) : Fld := ⟨A.PD_PE_CFG i, 29, 1⟩
abbrev R.PD_PE_CFG.PRS_ACCEPT (i : Nat) : Fld := ⟨A.PD_PE_CFG i, 28, 1⟩
abbrev R.PD_PE_CFG.VCS_ACCEPT (i : Nat) : Fld := ⟨A.PD_PE_CFG i, 27, 1⟩
abbrev R.PD_PE_CFG.HOST_VDM (i : Nat) : Fld := ⟨A.PD_PE_CFG i, 26, 1⟩
abbrev R.PD_PE_CFG.HOST_DRS (i : Nat) : Fld := ⟨A.PD_PE_CFG i, 25, 1⟩
abbrev R.PD_PE_CFG.PREF (i : Nat) : Fld := ⟨A.PD_PE_CFG i, 24, 1⟩
abbrev R.PD_PE_CFG.FRS_CUR (i : Nat) : Fld := ⟨A.PD_PE_CFG i, 22, 2⟩
abbrev R.PD_PE_CFG.HOST_TO (i : Nat) : Fld := ⟨A.PD_PE_CFG i, 8, 8⟩
/-- PD_PE_SNK_CFG (R223). -/
abbrev A.PD_PE_SNK_CFG (i : Nat) : Nat := 0x1844 + 0x200 * i
abbrev R.PD_PE_SNK_CFG.APDO_V (i : Nat) : Fld := ⟨A.PD_PE_SNK_CFG i, 16, 16⟩
abbrev R.PD_PE_SNK_CFG.VMAX (i : Nat) : Fld := ⟨A.PD_PE_SNK_CFG i, 0, 16⟩
/-- PD_PE_SNK_PMIN (R223). -/
abbrev A.PD_PE_SNK_PMIN (i : Nat) : Nat := 0x1848 + 0x200 * i
abbrev R.PD_PE_SNK_PMIN.PMIN (i : Nat) : Fld := ⟨A.PD_PE_SNK_PMIN i, 0, 32⟩
/-- PD_PE_KA (R223). -/
abbrev A.PD_PE_KA (i : Nat) : Nat := 0x184C + 0x200 * i
abbrev R.PD_PE_KA.PPS_KA (i : Nat) : Fld := ⟨A.PD_PE_KA i, 16, 8⟩
abbrev R.PD_PE_KA.EPR_KA (i : Nat) : Fld := ⟨A.PD_PE_KA i, 8, 8⟩
abbrev R.PD_PE_KA.SRC_SLEW (i : Nat) : Fld := ⟨A.PD_PE_KA i, 0, 8⟩
/-- PD_PE_STATUS (R223). -/
abbrev A.PD_PE_STATUS (i : Nat) : Nat := 0x1850 + 0x200 * i
abbrev R.PD_PE_STATUS.PE_STATE (i : Nat) : Fld := ⟨A.PD_PE_STATUS i, 26, 6⟩
abbrev R.PD_PE_STATUS.EXPLICIT (i : Nat) : Fld := ⟨A.PD_PE_STATUS i, 25, 1⟩
abbrev R.PD_PE_STATUS.EPR_MODE (i : Nat) : Fld := ⟨A.PD_PE_STATUS i, 24, 1⟩
abbrev R.PD_PE_STATUS.CONTRACT (i : Nat) : Fld := ⟨A.PD_PE_STATUS i, 22, 2⟩
abbrev R.PD_PE_STATUS.FRS_ARMED (i : Nat) : Fld := ⟨A.PD_PE_STATUS i, 21, 1⟩
abbrev R.PD_PE_STATUS.VCONN_SRC (i : Nat) : Fld := ⟨A.PD_PE_STATUS i, 20, 1⟩
abbrev R.PD_PE_STATUS.DATA_ROLE (i : Nat) : Fld := ⟨A.PD_PE_STATUS i, 19, 1⟩
abbrev R.PD_PE_STATUS.HOST_WAIT (i : Nat) : Fld := ⟨A.PD_PE_STATUS i, 18, 1⟩
abbrev R.PD_PE_STATUS.HOST_REQ (i : Nat) : Fld := ⟨A.PD_PE_STATUS i, 17, 1⟩
abbrev R.PD_PE_STATUS.SUPPLY_ONLY (i : Nat) : Fld := ⟨A.PD_PE_STATUS i, 16, 1⟩
abbrev R.PD_PE_STATUS.OBJ_POS (i : Nat) : Fld := ⟨A.PD_PE_STATUS i, 12, 4⟩
abbrev R.PD_PE_STATUS.HR_COUNT (i : Nat) : Fld := ⟨A.PD_PE_STATUS i, 10, 2⟩
/-- PD_PE_CONTRACT (R223). -/
abbrev A.PD_PE_CONTRACT (i : Nat) : Nat := 0x1854 + 0x200 * i
abbrev R.PD_PE_CONTRACT.VOLTAGE (i : Nat) : Fld := ⟨A.PD_PE_CONTRACT i, 16, 16⟩
abbrev R.PD_PE_CONTRACT.CURRENT (i : Nat) : Fld := ⟨A.PD_PE_CONTRACT i, 0, 16⟩
/-- PD_PE_CONTRACT_PWR (R223). -/
abbrev A.PD_PE_CONTRACT_PWR (i : Nat) : Nat := 0x1858 + 0x200 * i
abbrev R.PD_PE_CONTRACT_PWR.PWR (i : Nat) : Fld := ⟨A.PD_PE_CONTRACT_PWR i, 0, 32⟩
/-- PD_PE_EVENT (R223). -/
abbrev A.PD_PE_EVENT (i : Nat) : Nat := 0x185C + 0x200 * i
abbrev R.PD_PE_EVENT.CONTRACT (i : Nat) : Fld := ⟨A.PD_PE_EVENT i, 7, 1⟩
abbrev R.PD_PE_EVENT.EPR_FAIL (i : Nat) : Fld := ⟨A.PD_PE_EVENT i, 6, 1⟩
abbrev R.PD_PE_EVENT.EPR_EXIT (i : Nat) : Fld := ⟨A.PD_PE_EVENT i, 5, 1⟩
abbrev R.PD_PE_EVENT.SWAP (i : Nat) : Fld := ⟨A.PD_PE_EVENT i, 4, 1⟩
abbrev R.PD_PE_EVENT.HARD_RESET (i : Nat) : Fld := ⟨A.PD_PE_EVENT i, 3, 1⟩
abbrev R.PD_PE_EVENT.HOST_TIMEOUT (i : Nat) : Fld := ⟨A.PD_PE_EVENT i, 2, 1⟩
abbrev R.PD_PE_EVENT.FRS (i : Nat) : Fld := ⟨A.PD_PE_EVENT i, 1, 1⟩
abbrev R.PD_PE_EVENT.MISMATCH (i : Nat) : Fld := ⟨A.PD_PE_EVENT i, 0, 1⟩
/-- PD_SRC_PDO (R223). -/
abbrev A.PD_SRC_PDO (i k : Nat) : Nat := 0x1880 + 0x200 * i + 0x4 * k
abbrev R.PD_SRC_PDO.W (i k : Nat) : Fld := ⟨A.PD_SRC_PDO i k, 0, 32⟩
/-- PD_SNK_PDO (R223). -/
abbrev A.PD_SNK_PDO (i k : Nat) : Nat := 0x18A0 + 0x200 * i + 0x4 * k
abbrev R.PD_SNK_PDO.W (i k : Nat) : Fld := ⟨A.PD_SNK_PDO i k, 0, 32⟩
/-- PD_OFFER_PDO (R223). -/
abbrev A.PD_OFFER_PDO (i k : Nat) : Nat := 0x18D0 + 0x200 * i + 0x4 * k
abbrev R.PD_OFFER_PDO.W (i k : Nat) : Fld := ⟨A.PD_OFFER_PDO i k, 0, 32⟩
/-- PD_PARTNER_SRC_PDO (R223). -/
abbrev A.PD_PARTNER_SRC_PDO (i k : Nat) : Nat := 0x1900 + 0x200 * i + 0x4 * k
abbrev R.PD_PARTNER_SRC_PDO.W (i k : Nat) : Fld := ⟨A.PD_PARTNER_SRC_PDO i k, 0, 32⟩
/-- PD_PARTNER_SNK_PDO (R223). -/
abbrev A.PD_PARTNER_SNK_PDO (i k : Nat) : Nat := 0x1940 + 0x200 * i + 0x4 * k
abbrev R.PD_PARTNER_SNK_PDO.W (i k : Nat) : Fld := ⟨A.PD_PARTNER_SNK_PDO i k, 0, 32⟩
/-- PD_RDO_SENT (R223). -/
abbrev A.PD_RDO_SENT (i : Nat) : Nat := 0x1980 + 0x200 * i
abbrev R.PD_RDO_SENT.W (i : Nat) : Fld := ⟨A.PD_RDO_SENT i, 0, 32⟩
/-- PD_RDO_RECEIVED (R223). -/
abbrev A.PD_RDO_RECEIVED (i : Nat) : Nat := 0x1984 + 0x200 * i
abbrev R.PD_RDO_RECEIVED.W (i : Nat) : Fld := ⟨A.PD_RDO_RECEIVED i, 0, 32⟩
/-- HIF_CTRL (R262). -/
abbrev A.HIF_CTRL : Nat := 0x2000
abbrev R.HIF_CTRL.POLL_US : Fld := ⟨A.HIF_CTRL, 16, 16⟩
abbrev R.HIF_CTRL.ENABLE : Fld := ⟨A.HIF_CTRL, 0, 1⟩
/-- HIF_STATUS (R262). -/
abbrev A.HIF_STATUS : Nat := 0x2004
abbrev R.HIF_STATUS.IN_FLIGHT : Fld := ⟨A.HIF_STATUS, 16, 8⟩
abbrev R.HIF_STATUS.FW : Fld := ⟨A.HIF_STATUS, 6, 2⟩
abbrev R.HIF_STATUS.BME : Fld := ⟨A.HIF_STATUS, 5, 1⟩
abbrev R.HIF_STATUS.L0 : Fld := ⟨A.HIF_STATUS, 4, 1⟩
abbrev R.HIF_STATUS.FETCHING : Fld := ⟨A.HIF_STATUS, 2, 1⟩
abbrev R.HIF_STATUS.KICK_PEND : Fld := ⟨A.HIF_STATUS, 1, 1⟩
abbrev R.HIF_STATUS.RUNNING : Fld := ⟨A.HIF_STATUS, 0, 1⟩
/-- HIF_KICK (R262). -/
abbrev A.HIF_KICK : Nat := 0x2008
abbrev R.HIF_KICK.KICK : Fld := ⟨A.HIF_KICK, 0, 32⟩
/-- HIF_VEC_CFG (R262). -/
abbrev A.HIF_VEC_CFG : Nat := 0x200C
abbrev R.HIF_VEC_CFG.MBX_VEC : Fld := ⟨A.HIF_VEC_CFG, 8, 5⟩
abbrev R.HIF_VEC_CFG.ERR_VEC : Fld := ⟨A.HIF_VEC_CFG, 0, 5⟩
/-- HIF_DB_BASE_LO (R262). -/
abbrev A.HIF_DB_BASE_LO : Nat := 0x2010
abbrev R.HIF_DB_BASE_LO.ADDR : Fld := ⟨A.HIF_DB_BASE_LO, 12, 20⟩
/-- HIF_DB_BASE_HI (R262). -/
abbrev A.HIF_DB_BASE_HI : Nat := 0x2014
abbrev R.HIF_DB_BASE_HI.ADDR : Fld := ⟨A.HIF_DB_BASE_HI, 0, 32⟩
/-- HIF_ST_BASE_LO (R262). -/
abbrev A.HIF_ST_BASE_LO : Nat := 0x2018
abbrev R.HIF_ST_BASE_LO.ADDR : Fld := ⟨A.HIF_ST_BASE_LO, 12, 20⟩
/-- HIF_ST_BASE_HI (R262). -/
abbrev A.HIF_ST_BASE_HI : Nat := 0x201C
abbrev R.HIF_ST_BASE_HI.ADDR : Fld := ⟨A.HIF_ST_BASE_HI, 0, 32⟩
/-- HIF_EVQ_BASE_LO (R262). -/
abbrev A.HIF_EVQ_BASE_LO : Nat := 0x2020
abbrev R.HIF_EVQ_BASE_LO.ADDR : Fld := ⟨A.HIF_EVQ_BASE_LO, 12, 20⟩
/-- HIF_EVQ_BASE_HI (R262). -/
abbrev A.HIF_EVQ_BASE_HI : Nat := 0x2024
abbrev R.HIF_EVQ_BASE_HI.ADDR : Fld := ⟨A.HIF_EVQ_BASE_HI, 0, 32⟩
/-- HIF_EVQ_CFG (R262). -/
abbrev A.HIF_EVQ_CFG : Nat := 0x2028
abbrev R.HIF_EVQ_CFG.EN : Fld := ⟨A.HIF_EVQ_CFG, 31, 1⟩
abbrev R.HIF_EVQ_CFG.VEC : Fld := ⟨A.HIF_EVQ_CFG, 26, 5⟩
abbrev R.HIF_EVQ_CFG.SIZE : Fld := ⟨A.HIF_EVQ_CFG, 16, 5⟩
abbrev R.HIF_EVQ_CFG.ICOUNT : Fld := ⟨A.HIF_EVQ_CFG, 8, 8⟩
abbrev R.HIF_EVQ_CFG.ITIME : Fld := ⟨A.HIF_EVQ_CFG, 0, 8⟩
/-- HIF_EVQ_STATUS (R262). -/
abbrev A.HIF_EVQ_STATUS : Nat := 0x202C
abbrev R.HIF_EVQ_STATUS.TAIL : Fld := ⟨A.HIF_EVQ_STATUS, 16, 16⟩
abbrev R.HIF_EVQ_STATUS.PHASE : Fld := ⟨A.HIF_EVQ_STATUS, 15, 1⟩
abbrev R.HIF_EVQ_STATUS.LOST : Fld := ⟨A.HIF_EVQ_STATUS, 0, 12⟩
/-- HIF_EVQ_MASK (R262). -/
abbrev A.HIF_EVQ_MASK : Nat := 0x2030
abbrev R.HIF_EVQ_MASK.MASK : Fld := ⟨A.HIF_EVQ_MASK, 1, 13⟩
/-- HIF_ERR (R262). -/
abbrev A.HIF_ERR : Nat := 0x2034
abbrev R.HIF_ERR.SQ_ERR : Fld := ⟨A.HIF_ERR, 24, 8⟩
abbrev R.HIF_ERR.CQ_ERR : Fld := ⟨A.HIF_ERR, 16, 8⟩
abbrev R.HIF_ERR.EVQ_ERR : Fld := ⟨A.HIF_ERR, 15, 1⟩
abbrev R.HIF_ERR.DB_ERR : Fld := ⟨A.HIF_ERR, 14, 1⟩
abbrev R.HIF_ERR.CFG : Fld := ⟨A.HIF_ERR, 13, 1⟩
/-- HIF_ERR_INFO (R262). -/
abbrev A.HIF_ERR_INFO : Nat := 0x2038
abbrev R.HIF_ERR_INFO.VALID : Fld := ⟨A.HIF_ERR_INFO, 31, 1⟩
abbrev R.HIF_ERR_INFO.CAUSE : Fld := ⟨A.HIF_ERR_INFO, 27, 4⟩
abbrev R.HIF_ERR_INFO.KIND : Fld := ⟨A.HIF_ERR_INFO, 25, 2⟩
abbrev R.HIF_ERR_INFO.RING : Fld := ⟨A.HIF_ERR_INFO, 22, 3⟩
abbrev R.HIF_ERR_INFO.VALUE : Fld := ⟨A.HIF_ERR_INFO, 0, 16⟩
/-- HIF_CAP_VEC (R262). -/
abbrev A.HIF_CAP_VEC (i : Nat) : Nat := 0x2040 + 0x4 * i
abbrev R.HIF_CAP_VEC.V0 (i : Nat) : Fld := ⟨A.HIF_CAP_VEC i, 0, 5⟩
abbrev R.HIF_CAP_VEC.V1 (i : Nat) : Fld := ⟨A.HIF_CAP_VEC i, 8, 5⟩
abbrev R.HIF_CAP_VEC.V2 (i : Nat) : Fld := ⟨A.HIF_CAP_VEC i, 16, 5⟩
abbrev R.HIF_CAP_VEC.V3 (i : Nat) : Fld := ⟨A.HIF_CAP_VEC i, 24, 5⟩
/-- HIF_SQ_BASE_LO (R263). -/
abbrev A.HIF_SQ_BASE_LO (i : Nat) : Nat := 0x2100 + 0x20 * i
abbrev R.HIF_SQ_BASE_LO.ADDR (i : Nat) : Fld := ⟨A.HIF_SQ_BASE_LO i, 12, 20⟩
/-- HIF_SQ_BASE_HI (R263). -/
abbrev A.HIF_SQ_BASE_HI (i : Nat) : Nat := 0x2104 + 0x20 * i
abbrev R.HIF_SQ_BASE_HI.ADDR (i : Nat) : Fld := ⟨A.HIF_SQ_BASE_HI i, 0, 32⟩
/-- HIF_SQ_CFG (R263). -/
abbrev A.HIF_SQ_CFG (i : Nat) : Nat := 0x2108 + 0x20 * i
abbrev R.HIF_SQ_CFG.EN (i : Nat) : Fld := ⟨A.HIF_SQ_CFG i, 31, 1⟩
abbrev R.HIF_SQ_CFG.CQ (i : Nat) : Fld := ⟨A.HIF_SQ_CFG i, 28, 3⟩
abbrev R.HIF_SQ_CFG.SIZE (i : Nat) : Fld := ⟨A.HIF_SQ_CFG i, 24, 4⟩
abbrev R.HIF_SQ_CFG.SHARE (i : Nat) : Fld := ⟨A.HIF_SQ_CFG i, 16, 8⟩
/-- HIF_SQ_STATUS (R263). -/
abbrev A.HIF_SQ_STATUS (i : Nat) : Nat := 0x210C + 0x20 * i
abbrev R.HIF_SQ_STATUS.HEAD (i : Nat) : Fld := ⟨A.HIF_SQ_STATUS i, 16, 16⟩
abbrev R.HIF_SQ_STATUS.OUTSTANDING (i : Nat) : Fld := ⟨A.HIF_SQ_STATUS i, 8, 8⟩
abbrev R.HIF_SQ_STATUS.STATE (i : Nat) : Fld := ⟨A.HIF_SQ_STATUS i, 0, 2⟩
/-- HIF_SQ_TAIL_SEEN (R263). -/
abbrev A.HIF_SQ_TAIL_SEEN (i : Nat) : Nat := 0x2110 + 0x20 * i
abbrev R.HIF_SQ_TAIL_SEEN.TAIL_SEEN (i : Nat) : Fld := ⟨A.HIF_SQ_TAIL_SEEN i, 0, 16⟩
/-- HIF_CQ_BASE_LO (R263). -/
abbrev A.HIF_CQ_BASE_LO (i : Nat) : Nat := 0x2200 + 0x20 * i
abbrev R.HIF_CQ_BASE_LO.ADDR (i : Nat) : Fld := ⟨A.HIF_CQ_BASE_LO i, 12, 20⟩
/-- HIF_CQ_BASE_HI (R263). -/
abbrev A.HIF_CQ_BASE_HI (i : Nat) : Nat := 0x2204 + 0x20 * i
abbrev R.HIF_CQ_BASE_HI.ADDR (i : Nat) : Fld := ⟨A.HIF_CQ_BASE_HI i, 0, 32⟩
/-- HIF_CQ_CFG (R263). -/
abbrev A.HIF_CQ_CFG (i : Nat) : Nat := 0x2208 + 0x20 * i
abbrev R.HIF_CQ_CFG.EN (i : Nat) : Fld := ⟨A.HIF_CQ_CFG i, 31, 1⟩
abbrev R.HIF_CQ_CFG.VEC (i : Nat) : Fld := ⟨A.HIF_CQ_CFG i, 26, 5⟩
abbrev R.HIF_CQ_CFG.SIZE (i : Nat) : Fld := ⟨A.HIF_CQ_CFG i, 20, 4⟩
abbrev R.HIF_CQ_CFG.ICOUNT (i : Nat) : Fld := ⟨A.HIF_CQ_CFG i, 8, 8⟩
abbrev R.HIF_CQ_CFG.ITIME (i : Nat) : Fld := ⟨A.HIF_CQ_CFG i, 0, 8⟩
/-- HIF_CQ_STATUS (R263). -/
abbrev A.HIF_CQ_STATUS (i : Nat) : Nat := 0x220C + 0x20 * i
abbrev R.HIF_CQ_STATUS.TAIL (i : Nat) : Fld := ⟨A.HIF_CQ_STATUS i, 16, 16⟩
abbrev R.HIF_CQ_STATUS.PHASE (i : Nat) : Fld := ⟨A.HIF_CQ_STATUS i, 15, 1⟩
abbrev R.HIF_CQ_STATUS.RESV_SLOTS (i : Nat) : Fld := ⟨A.HIF_CQ_STATUS i, 0, 8⟩
/-- HIF_CQ_HEAD_SEEN (R263). -/
abbrev A.HIF_CQ_HEAD_SEEN (i : Nat) : Nat := 0x2210 + 0x20 * i
abbrev R.HIF_CQ_HEAD_SEEN.HEAD_SEEN (i : Nat) : Fld := ⟨A.HIF_CQ_HEAD_SEEN i, 0, 16⟩
/-- HIF_MSIX_ADDR_LO (R227). -/
abbrev A.HIF_MSIX_ADDR_LO (i : Nat) : Nat := 0x2400 + 0x10 * i
abbrev R.HIF_MSIX_ADDR_LO.ADDR (i : Nat) : Fld := ⟨A.HIF_MSIX_ADDR_LO i, 2, 30⟩
/-- HIF_MSIX_ADDR_HI (R227). -/
abbrev A.HIF_MSIX_ADDR_HI (i : Nat) : Nat := 0x2404 + 0x10 * i
abbrev R.HIF_MSIX_ADDR_HI.ADDR (i : Nat) : Fld := ⟨A.HIF_MSIX_ADDR_HI i, 0, 32⟩
/-- HIF_MSIX_DATA (R227). -/
abbrev A.HIF_MSIX_DATA (i : Nat) : Nat := 0x2408 + 0x10 * i
abbrev R.HIF_MSIX_DATA.DATA (i : Nat) : Fld := ⟨A.HIF_MSIX_DATA i, 0, 32⟩
/-- HIF_MSIX_CTRL (R227). -/
abbrev A.HIF_MSIX_CTRL (i : Nat) : Nat := 0x240C + 0x10 * i
abbrev R.HIF_MSIX_CTRL.MASK (i : Nat) : Fld := ⟨A.HIF_MSIX_CTRL i, 0, 1⟩
/-- HIF_MSIX_PBA (R227). -/
abbrev A.HIF_MSIX_PBA (i : Nat) : Nat := 0x2600 + 0x4 * i
abbrev R.HIF_MSIX_PBA.PEND (i : Nat) : Fld := ⟨A.HIF_MSIX_PBA i, 0, 32⟩
/-- CAP_CFG (R290). -/
abbrev A.CAP_CFG : Nat := 0x2800
abbrev R.CAP_CFG.SLOW_RATE : Fld := ⟨A.CAP_CFG, 24, 4⟩
abbrev R.CAP_CFG.WM_KIB : Fld := ⟨A.CAP_CFG, 16, 8⟩
abbrev R.CAP_CFG.WM_US : Fld := ⟨A.CAP_CFG, 6, 10⟩
abbrev R.CAP_CFG.VMID_GRP : Fld := ⟨A.CAP_CFG, 4, 2⟩
/-- CAP_STATUS (R290). -/
abbrev A.CAP_STATUS : Nat := 0x2804
abbrev R.CAP_STATUS.BUF_KIB : Fld := ⟨A.CAP_STATUS, 14, 9⟩
abbrev R.CAP_STATUS.LEVEL : Fld := ⟨A.CAP_STATUS, 12, 2⟩
abbrev R.CAP_STATUS.ACTIVE : Fld := ⟨A.CAP_STATUS, 0, 8⟩
/-- CAP_EVENT (R290). -/
abbrev A.CAP_EVENT : Nat := 0x2808
abbrev R.CAP_EVENT.GAP : Fld := ⟨A.CAP_EVENT, 24, 8⟩
abbrev R.CAP_EVENT.ECC : Fld := ⟨A.CAP_EVENT, 16, 8⟩
abbrev R.CAP_EVENT.END : Fld := ⟨A.CAP_EVENT, 8, 8⟩
abbrev R.CAP_EVENT.TRIG : Fld := ⟨A.CAP_EVENT, 0, 8⟩
/-- CAP_ECC_CNT (R290). -/
abbrev A.CAP_ECC_CNT : Nat := 0x280C
abbrev R.CAP_ECC_CNT.UNCORR : Fld := ⟨A.CAP_ECC_CNT, 16, 16⟩
abbrev R.CAP_ECC_CNT.CORR : Fld := ⟨A.CAP_ECC_CNT, 0, 16⟩
/-- CAP_BW (R290). -/
abbrev A.CAP_BW : Nat := 0x2810
abbrev R.CAP_BW.RATE : Fld := ⟨A.CAP_BW, 0, 16⟩
/-- CAP_LTR (R290). -/
abbrev A.CAP_LTR : Nat := 0x2814
abbrev R.CAP_LTR.LT : Fld := ⟨A.CAP_LTR, 0, 16⟩
/-- CAP_TH_CFG (R290). -/
abbrev A.CAP_TH_CFG (i : Nat) : Nat := 0x2820 + 0x8 * i
abbrev R.CAP_TH_CFG.EN (i : Nat) : Fld := ⟨A.CAP_TH_CFG i, 31, 1⟩
abbrev R.CAP_TH_CFG.DIR (i : Nat) : Fld := ⟨A.CAP_TH_CFG i, 29, 2⟩
abbrev R.CAP_TH_CFG.CH (i : Nat) : Fld := ⟨A.CAP_TH_CFG i, 20, 4⟩
abbrev R.CAP_TH_CFG.HYST (i : Nat) : Fld := ⟨A.CAP_TH_CFG i, 0, 14⟩
/-- CAP_TH_LEVEL (R290). -/
abbrev A.CAP_TH_LEVEL (i : Nat) : Nat := 0x2824 + 0x8 * i
abbrev R.CAP_TH_LEVEL.LEVEL (i : Nat) : Fld := ⟨A.CAP_TH_LEVEL i, 0, 16⟩
/-- CAP_TRIG_PD (R290). -/
abbrev A.CAP_TRIG_PD : Nat := 0x2840
abbrev R.CAP_TRIG_PD.P0 : Fld := ⟨A.CAP_TRIG_PD, 0, 7⟩
abbrev R.CAP_TRIG_PD.P1 : Fld := ⟨A.CAP_TRIG_PD, 8, 7⟩
abbrev R.CAP_TRIG_PD.P2 : Fld := ⟨A.CAP_TRIG_PD, 16, 7⟩
abbrev R.CAP_TRIG_PD.P3 : Fld := ⟨A.CAP_TRIG_PD, 24, 7⟩
/-- CAP_ONESHOT (R290). -/
abbrev A.CAP_ONESHOT : Nat := 0x2850
abbrev R.CAP_ONESHOT.GO : Fld := ⟨A.CAP_ONESHOT, 31, 1⟩
abbrev R.CAP_ONESHOT.CH : Fld := ⟨A.CAP_ONESHOT, 16, 4⟩
abbrev R.CAP_ONESHOT.AVG_US : Fld := ⟨A.CAP_ONESHOT, 0, 16⟩
/-- CAP_ONESHOT_RES (R290). -/
abbrev A.CAP_ONESHOT_RES : Nat := 0x2854
abbrev R.CAP_ONESHOT_RES.STALE : Fld := ⟨A.CAP_ONESHOT_RES, 31, 1⟩
abbrev R.CAP_ONESHOT_RES.BUSY : Fld := ⟨A.CAP_ONESHOT_RES, 30, 1⟩
abbrev R.CAP_ONESHOT_RES.VALUE : Fld := ⟨A.CAP_ONESHOT_RES, 0, 16⟩
/-- CAP_RING_BASE_LO (R291). -/
abbrev A.CAP_RING_BASE_LO (i : Nat) : Nat := 0x2900 + 0x20 * i
abbrev R.CAP_RING_BASE_LO.BASE_LO (i : Nat) : Fld := ⟨A.CAP_RING_BASE_LO i, 12, 20⟩
/-- CAP_RING_BASE_HI (R291). -/
abbrev A.CAP_RING_BASE_HI (i : Nat) : Nat := 0x2904 + 0x20 * i
abbrev R.CAP_RING_BASE_HI.BASE_HI (i : Nat) : Fld := ⟨A.CAP_RING_BASE_HI i, 0, 32⟩
/-- CAP_RING_SIZE (R291). -/
abbrev A.CAP_RING_SIZE (i : Nat) : Nat := 0x2908 + 0x20 * i
abbrev R.CAP_RING_SIZE.SIZE (i : Nat) : Fld := ⟨A.CAP_RING_SIZE i, 0, 21⟩
/-- CAP_RING_STATE (R291). -/
abbrev A.CAP_RING_STATE (i : Nat) : Nat := 0x290C + 0x20 * i
abbrev R.CAP_RING_STATE.STATE (i : Nat) : Fld := ⟨A.CAP_RING_STATE i, 28, 4⟩
abbrev R.CAP_RING_STATE.FORMAT (i : Nat) : Fld := ⟨A.CAP_RING_STATE i, 24, 4⟩
abbrev R.CAP_RING_STATE.MODE (i : Nat) : Fld := ⟨A.CAP_RING_STATE i, 20, 4⟩
abbrev R.CAP_RING_STATE.NS_RO (i : Nat) : Fld := ⟨A.CAP_RING_STATE i, 16, 4⟩
abbrev R.CAP_RING_STATE.CHMASK_LO (i : Nat) : Fld := ⟨A.CAP_RING_STATE i, 0, 16⟩
/-- CAP_RING_TAIL_LO (R291). -/
abbrev A.CAP_RING_TAIL_LO (i : Nat) : Nat := 0x2910 + 0x20 * i
abbrev R.CAP_RING_TAIL_LO.TAIL (i : Nat) : Fld := ⟨A.CAP_RING_TAIL_LO i, 0, 32⟩
/-- CAP_RING_TAIL_HI (R291). -/
abbrev A.CAP_RING_TAIL_HI (i : Nat) : Nat := 0x2914 + 0x20 * i
abbrev R.CAP_RING_TAIL_HI.TAIL (i : Nat) : Fld := ⟨A.CAP_RING_TAIL_HI i, 0, 32⟩
/-- CAP_RING_HEAD_LO (R291). -/
abbrev A.CAP_RING_HEAD_LO (i : Nat) : Nat := 0x2918 + 0x20 * i
abbrev R.CAP_RING_HEAD_LO.HEAD (i : Nat) : Fld := ⟨A.CAP_RING_HEAD_LO i, 0, 32⟩
/-- CAP_RING_HEAD_HI (R291). -/
abbrev A.CAP_RING_HEAD_HI (i : Nat) : Nat := 0x291C + 0x20 * i
abbrev R.CAP_RING_HEAD_HI.HEAD (i : Nat) : Fld := ⟨A.CAP_RING_HEAD_HI i, 0, 32⟩
/-- THM_STATUS (R354). -/
abbrev A.THM_STATUS : Nat := 0x3000
abbrev R.THM_STATUS.REGION_LOST : Fld := ⟨A.THM_STATUS, 24, 4⟩
abbrev R.THM_STATUS.SD_LATCH : Fld := ⟨A.THM_STATUS, 23, 1⟩
abbrev R.THM_STATUS.FAST : Fld := ⟨A.THM_STATUS, 22, 1⟩
abbrev R.THM_STATUS.REG : Fld := ⟨A.THM_STATUS, 21, 1⟩
abbrev R.THM_STATUS.FOLD : Fld := ⟨A.THM_STATUS, 20, 1⟩
abbrev R.THM_STATUS.WARN : Fld := ⟨A.THM_STATUS, 19, 1⟩
abbrev R.THM_STATUS.TJ : Fld := ⟨A.THM_STATUS, 0, 16⟩
/-- THM_CFG (R354). -/
abbrev A.THM_CFG : Nat := 0x3004
abbrev R.THM_CFG.T_WARN : Fld := ⟨A.THM_CFG, 24, 8⟩
abbrev R.THM_CFG.T_REG : Fld := ⟨A.THM_CFG, 16, 8⟩
abbrev R.THM_CFG.T_FOLD : Fld := ⟨A.THM_CFG, 8, 8⟩
/-- THM_XCHK (R354). -/
abbrev A.THM_XCHK : Nat := 0x3008
abbrev R.THM_XCHK.NTC_DEV : Fld := ⟨A.THM_XCHK, 8, 5⟩
abbrev R.THM_XCHK.DIE_DEV : Fld := ⟨A.THM_XCHK, 0, 5⟩
/-- THM_SUSPECT (R354). -/
abbrev A.THM_SUSPECT : Nat := 0x300C
abbrev R.THM_SUSPECT.NTC : Fld := ⟨A.THM_SUSPECT, 16, 8⟩
abbrev R.THM_SUSPECT.DIE : Fld := ⟨A.THM_SUSPECT, 0, 12⟩
/-- THM_SD (R354). -/
abbrev A.THM_SD : Nat := 0x3010
abbrev R.THM_SD.RULE : Fld := ⟨A.THM_SD, 24, 1⟩
abbrev R.THM_SD.SENSORS : Fld := ⟨A.THM_SD, 0, 12⟩
/-- THM_SD_TS_LO (R354). -/
abbrev A.THM_SD_TS_LO : Nat := 0x3014
abbrev R.THM_SD_TS_LO.TS : Fld := ⟨A.THM_SD_TS_LO, 0, 32⟩
/-- THM_SD_TS_HI (R354). -/
abbrev A.THM_SD_TS_HI : Nat := 0x3018
abbrev R.THM_SD_TS_HI.TS : Fld := ⟨A.THM_SD_TS_HI, 0, 32⟩
/-- THM_EVENT (R354). -/
abbrev A.THM_EVENT : Nat := 0x301C
abbrev R.THM_EVENT.REGION : Fld := ⟨A.THM_EVENT, 6, 1⟩
abbrev R.THM_EVENT.SUSPECT : Fld := ⟨A.THM_EVENT, 5, 1⟩
abbrev R.THM_EVENT.NTC_FAULT : Fld := ⟨A.THM_EVENT, 4, 1⟩
abbrev R.THM_EVENT.REG : Fld := ⟨A.THM_EVENT, 3, 1⟩
abbrev R.THM_EVENT.WARN : Fld := ⟨A.THM_EVENT, 2, 1⟩
/-- THM_DIE (R355). -/
abbrev A.THM_DIE (i : Nat) : Nat := 0x3040 + 0x4 * i
abbrev R.THM_DIE.MEAS (i : Nat) : Fld := ⟨A.THM_DIE i, 16, 16⟩
abbrev R.THM_DIE.EFF (i : Nat) : Fld := ⟨A.THM_DIE i, 0, 16⟩
/-- THM_NTC_CFG (R355). -/
abbrev A.THM_NTC_CFG (i : Nat) : Nat := 0x3080 + 0x8 * i
abbrev R.THM_NTC_CFG.EN (i : Nat) : Fld := ⟨A.THM_NTC_CFG i, 31, 1⟩
abbrev R.THM_NTC_CFG.GROUP (i : Nat) : Fld := ⟨A.THM_NTC_CFG i, 28, 3⟩
abbrev R.THM_NTC_CFG.HI_DERATE (i : Nat) : Fld := ⟨A.THM_NTC_CFG i, 27, 1⟩
abbrev R.THM_NTC_CFG.HI (i : Nat) : Fld := ⟨A.THM_NTC_CFG i, 16, 8⟩
abbrev R.THM_NTC_CFG.BETA (i : Nat) : Fld := ⟨A.THM_NTC_CFG i, 0, 13⟩
/-- THM_NTC_TEMP (R355). -/
abbrev A.THM_NTC_TEMP (i : Nat) : Nat := 0x3084 + 0x8 * i
abbrev R.THM_NTC_TEMP.TEMP (i : Nat) : Fld := ⟨A.THM_NTC_TEMP i, 16, 16⟩
abbrev R.THM_NTC_TEMP.SUSPECT (i : Nat) : Fld := ⟨A.THM_NTC_TEMP i, 2, 1⟩
abbrev R.THM_NTC_TEMP.SHORT (i : Nat) : Fld := ⟨A.THM_NTC_TEMP i, 1, 1⟩
abbrev R.THM_NTC_TEMP.OPEN (i : Nat) : Fld := ⟨A.THM_NTC_TEMP i, 0, 1⟩
/-- TMR_TS_LO (R409). -/
abbrev A.TMR_TS_LO : Nat := 0x3400
abbrev R.TMR_TS_LO.TS_LO : Fld := ⟨A.TMR_TS_LO, 0, 32⟩
/-- TMR_TS_HI (R409). -/
abbrev A.TMR_TS_HI : Nat := 0x3404
abbrev R.TMR_TS_HI.TS_HI : Fld := ⟨A.TMR_TS_HI, 0, 32⟩
/-- TMR_FT_RUN (R409). -/
abbrev A.TMR_FT_RUN : Nat := 0x3408
abbrev R.TMR_FT_RUN.EN : Fld := ⟨A.TMR_FT_RUN, 0, 16⟩
/-- TMR_CMP_LO (R410). -/
abbrev A.TMR_CMP_LO (i : Nat) : Nat := 0x3440 + 0x10 * i
abbrev R.TMR_CMP_LO.CMP_LO (i : Nat) : Fld := ⟨A.TMR_CMP_LO i, 0, 32⟩
/-- TMR_CMP_HI (R410). -/
abbrev A.TMR_CMP_HI (i : Nat) : Nat := 0x3444 + 0x10 * i
abbrev R.TMR_CMP_HI.MISS (i : Nat) : Fld := ⟨A.TMR_CMP_HI i, 24, 8⟩
abbrev R.TMR_CMP_HI.CMP_HI (i : Nat) : Fld := ⟨A.TMR_CMP_HI i, 0, 22⟩
/-- TMR_CMP_CFG (R410). -/
abbrev A.TMR_CMP_CFG (i : Nat) : Nat := 0x3448 + 0x10 * i
abbrev R.TMR_CMP_CFG.EN (i : Nat) : Fld := ⟨A.TMR_CMP_CFG i, 31, 1⟩
abbrev R.TMR_CMP_CFG.WAKE (i : Nat) : Fld := ⟨A.TMR_CMP_CFG i, 30, 1⟩
abbrev R.TMR_CMP_CFG.FIRED (i : Nat) : Fld := ⟨A.TMR_CMP_CFG i, 29, 1⟩
abbrev R.TMR_CMP_CFG.PERIOD (i : Nat) : Fld := ⟨A.TMR_CMP_CFG i, 0, 24⟩
/-- TMR_FT_CFG (R411). -/
abbrev A.TMR_FT_CFG (i : Nat) : Nat := 0x3500 + 0x20 * i
abbrev R.TMR_FT_CFG.EN (i : Nat) : Fld := ⟨A.TMR_FT_CFG i, 31, 1⟩
abbrev R.TMR_FT_CFG.MODE (i : Nat) : Fld := ⟨A.TMR_FT_CFG i, 29, 2⟩
abbrev R.TMR_FT_CFG.DBG_FREEZE (i : Nat) : Fld := ⟨A.TMR_FT_CFG i, 28, 1⟩
abbrev R.TMR_FT_CFG.PRESC (i : Nat) : Fld := ⟨A.TMR_FT_CFG i, 24, 4⟩
abbrev R.TMR_FT_CFG.CMP0_DIR (i : Nat) : Fld := ⟨A.TMR_FT_CFG i, 22, 2⟩
abbrev R.TMR_FT_CFG.CMP1_DIR (i : Nat) : Fld := ⟨A.TMR_FT_CFG i, 20, 2⟩
abbrev R.TMR_FT_CFG.CMP0_ACT (i : Nat) : Fld := ⟨A.TMR_FT_CFG i, 18, 2⟩
abbrev R.TMR_FT_CFG.CMP1_ACT (i : Nat) : Fld := ⟨A.TMR_FT_CFG i, 16, 2⟩
abbrev R.TMR_FT_CFG.CMP1_STOP (i : Nat) : Fld := ⟨A.TMR_FT_CFG i, 15, 1⟩
abbrev R.TMR_FT_CFG.CAP_NOW (i : Nat) : Fld := ⟨A.TMR_FT_CFG i, 14, 1⟩
abbrev R.TMR_FT_CFG.CAP_EDGE (i : Nat) : Fld := ⟨A.TMR_FT_CFG i, 12, 2⟩
abbrev R.TMR_FT_CFG.CAP_GPIO (i : Nat) : Fld := ⟨A.TMR_FT_CFG i, 8, 3⟩
abbrev R.TMR_FT_CFG.OUT (i : Nat) : Fld := ⟨A.TMR_FT_CFG i, 0, 1⟩
/-- TMR_FT_TOP (R411). -/
abbrev A.TMR_FT_TOP (i : Nat) : Nat := 0x3504 + 0x20 * i
abbrev R.TMR_FT_TOP.TOP (i : Nat) : Fld := ⟨A.TMR_FT_TOP i, 0, 32⟩
/-- TMR_FT_CNT (R411). -/
abbrev A.TMR_FT_CNT (i : Nat) : Nat := 0x3508 + 0x20 * i
abbrev R.TMR_FT_CNT.CNT (i : Nat) : Fld := ⟨A.TMR_FT_CNT i, 0, 32⟩
/-- TMR_FT_CMP0 (R411). -/
abbrev A.TMR_FT_CMP0 (i : Nat) : Nat := 0x350C + 0x20 * i
abbrev R.TMR_FT_CMP0.CMP0 (i : Nat) : Fld := ⟨A.TMR_FT_CMP0 i, 0, 32⟩
/-- TMR_FT_CMP1 (R411). -/
abbrev A.TMR_FT_CMP1 (i : Nat) : Nat := 0x3510 + 0x20 * i
abbrev R.TMR_FT_CMP1.CMP1 (i : Nat) : Fld := ⟨A.TMR_FT_CMP1 i, 0, 32⟩
/-- TMR_FT_CAPT (R411). -/
abbrev A.TMR_FT_CAPT (i : Nat) : Nat := 0x3514 + 0x20 * i
abbrev R.TMR_FT_CAPT.CAPT (i : Nat) : Fld := ⟨A.TMR_FT_CAPT i, 0, 32⟩
/-- TMR_FT_STATUS (R411). -/
abbrev A.TMR_FT_STATUS (i : Nat) : Nat := 0x3518 + 0x20 * i
abbrev R.TMR_FT_STATUS.WRAP (i : Nat) : Fld := ⟨A.TMR_FT_STATUS i, 5, 1⟩
abbrev R.TMR_FT_STATUS.DIR (i : Nat) : Fld := ⟨A.TMR_FT_STATUS i, 4, 1⟩
abbrev R.TMR_FT_STATUS.OVR (i : Nat) : Fld := ⟨A.TMR_FT_STATUS i, 3, 1⟩
abbrev R.TMR_FT_STATUS.NEW (i : Nat) : Fld := ⟨A.TMR_FT_STATUS i, 2, 1⟩
abbrev R.TMR_FT_STATUS.CMP1 (i : Nat) : Fld := ⟨A.TMR_FT_STATUS i, 1, 1⟩
abbrev R.TMR_FT_STATUS.CMP0 (i : Nat) : Fld := ⟨A.TMR_FT_STATUS i, 0, 1⟩
/-- SEQ_CTRL (R389). -/
abbrev A.SEQ_CTRL : Nat := 0x3800
abbrev R.SEQ_CTRL.T_MINOFF : Fld := ⟨A.SEQ_CTRL, 0, 7⟩
/-- SEQ_STATUS (R389). -/
abbrev A.SEQ_STATUS : Nat := 0x3804
abbrev R.SEQ_STATUS.CFG_ERR : Fld := ⟨A.SEQ_STATUS, 31, 1⟩
abbrev R.SEQ_STATUS.LATCHED_ON : Fld := ⟨A.SEQ_STATUS, 30, 1⟩
abbrev R.SEQ_STATUS.PLATFORM : Fld := ⟨A.SEQ_STATUS, 28, 2⟩
abbrev R.SEQ_STATUS.ENABLED : Fld := ⟨A.SEQ_STATUS, 12, 12⟩
abbrev R.SEQ_STATUS.GOOD : Fld := ⟨A.SEQ_STATUS, 0, 12⟩
/-- SEQ_FAULT (R389). -/
abbrev A.SEQ_FAULT : Nat := 0x3808
abbrev R.SEQ_FAULT.LOST : Fld := ⟨A.SEQ_FAULT, 16, 12⟩
abbrev R.SEQ_FAULT.TIMEOUT : Fld := ⟨A.SEQ_FAULT, 0, 12⟩
/-- SEQ_STUCK (R389). -/
abbrev A.SEQ_STUCK : Nat := 0x380C
abbrev R.SEQ_STUCK.STUCK : Fld := ⟨A.SEQ_STUCK, 0, 12⟩
/-- SEQ_AUX3_CFG (R389). -/
abbrev A.SEQ_AUX3_CFG : Nat := 0x3820
abbrev R.SEQ_AUX3_CFG.VOUT : Fld := ⟨A.SEQ_AUX3_CFG, 0, 16⟩
/-- SEQ_AUX_CFG (R389). -/
abbrev A.SEQ_AUX_CFG : Nat := 0x3824
abbrev R.SEQ_AUX_CFG.LPM : Fld := ⟨A.SEQ_AUX_CFG, 0, 4⟩
/-- SEQ_AUX_STATUS (R389). -/
abbrev A.SEQ_AUX_STATUS : Nat := 0x3828
abbrev R.SEQ_AUX_STATUS.OCP : Fld := ⟨A.SEQ_AUX_STATUS, 8, 4⟩
abbrev R.SEQ_AUX_STATUS.DROPOUT : Fld := ⟨A.SEQ_AUX_STATUS, 4, 4⟩
abbrev R.SEQ_AUX_STATUS.PG : Fld := ⟨A.SEQ_AUX_STATUS, 0, 4⟩
/-- SEQ_RAIL_CFG (R390). -/
abbrev A.SEQ_RAIL_CFG (i : Nat) : Nat := 0x3840 + 0x10 * i
abbrev R.SEQ_RAIL_CFG.OFF_DELAY (i : Nat) : Fld := ⟨A.SEQ_RAIL_CFG i, 24, 8⟩
abbrev R.SEQ_RAIL_CFG.DELAY (i : Nat) : Fld := ⟨A.SEQ_RAIL_CFG i, 16, 8⟩
abbrev R.SEQ_RAIL_CFG.ACTION (i : Nat) : Fld := ⟨A.SEQ_RAIL_CFG i, 14, 2⟩
abbrev R.SEQ_RAIL_CFG.GROUP (i : Nat) : Fld := ⟨A.SEQ_RAIL_CFG i, 12, 2⟩
abbrev R.SEQ_RAIL_CFG.DEPS (i : Nat) : Fld := ⟨A.SEQ_RAIL_CFG i, 0, 12⟩
/-- SEQ_RAIL_TIME (R390). -/
abbrev A.SEQ_RAIL_TIME (i : Nat) : Nat := 0x3844 + 0x10 * i
abbrev R.SEQ_RAIL_TIME.PG_DEB (i : Nat) : Fld := ⟨A.SEQ_RAIL_TIME i, 26, 6⟩
abbrev R.SEQ_RAIL_TIME.STUCK_TO (i : Nat) : Fld := ⟨A.SEQ_RAIL_TIME i, 16, 10⟩
abbrev R.SEQ_RAIL_TIME.PG_TO (i : Nat) : Fld := ⟨A.SEQ_RAIL_TIME i, 0, 10⟩
/-- SEQ_RAIL_STATE (R390). -/
abbrev A.SEQ_RAIL_STATE (i : Nat) : Nat := 0x3848 + 0x10 * i
abbrev R.SEQ_RAIL_STATE.STATE (i : Nat) : Fld := ⟨A.SEQ_RAIL_STATE i, 0, 4⟩
/-- WDG_CTRL (R374). -/
abbrev A.WDG_CTRL : Nat := 0x3C00
abbrev R.WDG_CTRL.DIS : Fld := ⟨A.WDG_CTRL, 31, 1⟩
abbrev R.WDG_CTRL.LOCK : Fld := ⟨A.WDG_CTRL, 30, 1⟩
/-- WDG_CFG (R374). -/
abbrev A.WDG_CFG : Nat := 0x3C04
abbrev R.WDG_CFG.OPEN : Fld := ⟨A.WDG_CFG, 16, 16⟩
abbrev R.WDG_CFG.PERIOD : Fld := ⟨A.WDG_CFG, 0, 16⟩
/-- WDG_TASK_EN (R374). -/
abbrev A.WDG_TASK_EN : Nat := 0x3C08
abbrev R.WDG_TASK_EN.TASK_EN : Fld := ⟨A.WDG_TASK_EN, 0, 8⟩
/-- WDG_SEED (R374). -/
abbrev A.WDG_SEED : Nat := 0x3C0C
abbrev R.WDG_SEED.SEED_LOCK : Fld := ⟨A.WDG_SEED, 31, 1⟩
abbrev R.WDG_SEED.SEED : Fld := ⟨A.WDG_SEED, 0, 16⟩
/-- WDG_QUESTION (R374). -/
abbrev A.WDG_QUESTION : Nat := 0x3C10
abbrev R.WDG_QUESTION.Q : Fld := ⟨A.WDG_QUESTION, 0, 16⟩
/-- WDG_ANSWER (R374). -/
abbrev A.WDG_ANSWER : Nat := 0x3C14
abbrev R.WDG_ANSWER.ANSWER : Fld := ⟨A.WDG_ANSWER, 0, 16⟩
/-- WDG_CHECKIN (R374). -/
abbrev A.WDG_CHECKIN : Nat := 0x3C18
abbrev R.WDG_CHECKIN.CHECKIN : Fld := ⟨A.WDG_CHECKIN, 0, 8⟩
/-- WDG_STATUS (R374). -/
abbrev A.WDG_STATUS : Nat := 0x3C1C
abbrev R.WDG_STATUS.TICK : Fld := ⟨A.WDG_STATUS, 16, 16⟩
abbrev R.WDG_STATUS.STATE : Fld := ⟨A.WDG_STATUS, 14, 2⟩
abbrev R.WDG_STATUS.ANSWERED : Fld := ⟨A.WDG_STATUS, 13, 1⟩
abbrev R.WDG_STATUS.FAULTY : Fld := ⟨A.WDG_STATUS, 12, 1⟩
abbrev R.WDG_STATUS.PREV_FAULTY : Fld := ⟨A.WDG_STATUS, 11, 1⟩
/-- WDG_CAUSE (R374). -/
abbrev A.WDG_CAUSE : Nat := 0x3C20
abbrev R.WDG_CAUSE.CAUSE_SET : Fld := ⟨A.WDG_CAUSE, 16, 7⟩
abbrev R.WDG_CAUSE.TASK_MISS : Fld := ⟨A.WDG_CAUSE, 8, 8⟩
abbrev R.WDG_CAUSE.TASK_DOUBLE : Fld := ⟨A.WDG_CAUSE, 0, 8⟩
/-- WDG_EVENT (R374). -/
abbrev A.WDG_EVENT : Nat := 0x3C24
abbrev R.WDG_EVENT.KEY_ERR : Fld := ⟨A.WDG_EVENT, 3, 1⟩
abbrev R.WDG_EVENT.REFUSED : Fld := ⟨A.WDG_EVENT, 2, 1⟩
abbrev R.WDG_EVENT.FALLBACK : Fld := ⟨A.WDG_EVENT, 1, 1⟩
abbrev R.WDG_EVENT.RESET : Fld := ⟨A.WDG_EVENT, 0, 1⟩
/-- WDG_KEY (R374). -/
abbrev A.WDG_KEY : Nat := 0x3C28
abbrev R.WDG_KEY.KEY : Fld := ⟨A.WDG_KEY, 0, 16⟩
/-- WDG_COUNTS (R374). -/
abbrev A.WDG_COUNTS : Nat := 0x3C2C
abbrev R.WDG_COUNTS.RESET_CNT : Fld := ⟨A.WDG_COUNTS, 16, 16⟩
abbrev R.WDG_COUNTS.FALLBACK_CNT : Fld := ⟨A.WDG_COUNTS, 8, 8⟩
abbrev R.WDG_COUNTS.LAST_CAUSE : Fld := ⟨A.WDG_COUNTS, 0, 4⟩
/-- WDG_FALLBACK (R374). -/
abbrev A.WDG_FALLBACK : Nat := 0x3C30
abbrev R.WDG_FALLBACK.ARMED : Fld := ⟨A.WDG_FALLBACK, 31, 1⟩
abbrev R.WDG_FALLBACK.LEFT : Fld := ⟨A.WDG_FALLBACK, 0, 11⟩
/-- TWB_CFG (R319). -/
abbrev A.TWB_CFG : Nat := 0x4000
abbrev R.TWB_CFG.PEC_REQ : Fld := ⟨A.TWB_CFG, 31, 1⟩
abbrev R.TWB_CFG.NOTIFY_MODE : Fld := ⟨A.TWB_CFG, 29, 2⟩
abbrev R.TWB_CFG.NOTIFY_KHZ : Fld := ⟨A.TWB_CFG, 27, 2⟩
abbrev R.TWB_CFG.NOTIFY_HOLD : Fld := ⟨A.TWB_CFG, 16, 8⟩
abbrev R.TWB_CFG.ARP_AUTO : Fld := ⟨A.TWB_CFG, 4, 1⟩
abbrev R.TWB_CFG.FILTER : Fld := ⟨A.TWB_CFG, 0, 4⟩
/-- TWB_ADDR (R319). -/
abbrev A.TWB_ADDR : Nat := 0x4004
abbrev R.TWB_ADDR.AV : Fld := ⟨A.TWB_ADDR, 31, 1⟩
abbrev R.TWB_ADDR.AR : Fld := ⟨A.TWB_ADDR, 30, 1⟩
abbrev R.TWB_ADDR.SRC : Fld := ⟨A.TWB_ADDR, 28, 2⟩
abbrev R.TWB_ADDR.COMPAT : Fld := ⟨A.TWB_ADDR, 27, 1⟩
abbrev R.TWB_ADDR.EC_ARP : Fld := ⟨A.TWB_ADDR, 26, 1⟩
abbrev R.TWB_ADDR.ADDR : Fld := ⟨A.TWB_ADDR, 0, 7⟩
/-- TWB_UDID (R319). -/
abbrev A.TWB_UDID (i : Nat) : Nat := 0x4008 + 0x4 * i
abbrev R.TWB_UDID.UDID (i : Nat) : Fld := ⟨A.TWB_UDID i, 0, 32⟩
/-- TWB_STATUS (R319). -/
abbrev A.TWB_STATUS : Nat := 0x4018
abbrev R.TWB_STATUS.Q_FREE : Fld := ⟨A.TWB_STATUS, 21, 3⟩
abbrev R.TWB_STATUS.CPL_PEND : Fld := ⟨A.TWB_STATUS, 18, 3⟩
abbrev R.TWB_STATUS.ALERT : Fld := ⟨A.TWB_STATUS, 17, 1⟩
abbrev R.TWB_STATUS.GATED : Fld := ⟨A.TWB_STATUS, 16, 1⟩
abbrev R.TWB_STATUS.PENDING : Fld := ⟨A.TWB_STATUS, 0, 16⟩
/-- TWB_ALERT_MASK (R319). -/
abbrev A.TWB_ALERT_MASK : Nat := 0x401C
abbrev R.TWB_ALERT_MASK.MBX : Fld := ⟨A.TWB_ALERT_MASK, 15, 1⟩
abbrev R.TWB_ALERT_MASK.CPL : Fld := ⟨A.TWB_ALERT_MASK, 14, 1⟩
abbrev R.TWB_ALERT_MASK.TYPES : Fld := ⟨A.TWB_ALERT_MASK, 1, 13⟩
/-- TWB_EVENT (R319). -/
abbrev A.TWB_EVENT : Nat := 0x4020
abbrev R.TWB_EVENT.ADDR_REJECT : Fld := ⟨A.TWB_EVENT, 7, 1⟩
abbrev R.TWB_EVENT.NOTIFY_FAIL : Fld := ⟨A.TWB_EVENT, 6, 1⟩
abbrev R.TWB_EVENT.SCL_TO : Fld := ⟨A.TWB_EVENT, 5, 1⟩
abbrev R.TWB_EVENT.SDA_TO : Fld := ⟨A.TWB_EVENT, 4, 1⟩
abbrev R.TWB_EVENT.STUCK : Fld := ⟨A.TWB_EVENT, 3, 1⟩
abbrev R.TWB_EVENT.PEC_ERR : Fld := ⟨A.TWB_EVENT, 2, 1⟩
abbrev R.TWB_EVENT.LEN_ERR : Fld := ⟨A.TWB_EVENT, 1, 1⟩
abbrev R.TWB_EVENT.Q_OVF : Fld := ⟨A.TWB_EVENT, 0, 1⟩
/-- TWB_STATS (R319). -/
abbrev A.TWB_STATS : Nat := 0x4024
abbrev R.TWB_STATS.NACK_BUSY : Fld := ⟨A.TWB_STATS, 24, 8⟩
abbrev R.TWB_STATS.ARB_LOST : Fld := ⟨A.TWB_STATS, 16, 8⟩
abbrev R.TWB_STATS.NOTIFY_SENT : Fld := ⟨A.TWB_STATS, 8, 8⟩
abbrev R.TWB_STATS.PEC_CNT : Fld := ⟨A.TWB_STATS, 0, 8⟩
/-- TWB_COMPAT_VCHG (R319). -/
abbrev A.TWB_COMPAT_VCHG : Nat := 0x4028
abbrev R.TWB_COMPAT_VCHG.VCHG : Fld := ⟨A.TWB_COMPAT_VCHG, 0, 16⟩
/-- TWB_LAST (R319). -/
abbrev A.TWB_LAST : Nat := 0x402C
abbrev R.TWB_LAST.CODE : Fld := ⟨A.TWB_LAST, 8, 8⟩
abbrev R.TWB_LAST.RESULT : Fld := ⟨A.TWB_LAST, 0, 8⟩
/-- CSC_CFG (R339). -/
abbrev A.CSC_CFG : Nat := 0x4400
abbrev R.CSC_CFG.EXPECT : Fld := ⟨A.CSC_CFG, 28, 4⟩
abbrev R.CSC_CFG.LINK_EN : Fld := ⟨A.CSC_CFG, 0, 1⟩
/-- CSC_STATUS (R339). -/
abbrev A.CSC_STATUS : Nat := 0x4404
abbrev R.CSC_STATUS.HEARD : Fld := ⟨A.CSC_STATUS, 28, 4⟩
abbrev R.CSC_STATUS.EXCLUDED : Fld := ⟨A.CSC_STATUS, 24, 4⟩
abbrev R.CSC_STATUS.STATE : Fld := ⟨A.CSC_STATUS, 22, 2⟩
abbrev R.CSC_STATUS.DISCOVERY : Fld := ⟨A.CSC_STATUS, 21, 1⟩
abbrev R.CSC_STATUS.SYNC_LOCK : Fld := ⟨A.CSC_STATUS, 20, 1⟩
abbrev R.CSC_STATUS.FRAME : Fld := ⟨A.CSC_STATUS, 0, 16⟩
/-- CSC_SYNC_CFG (R339). -/
abbrev A.CSC_SYNC_CFG : Nat := 0x4408
abbrev R.CSC_SYNC_CFG.SYNC_EN : Fld := ⟨A.CSC_SYNC_CFG, 31, 1⟩
abbrev R.CSC_SYNC_CFG.HALF_PERIOD : Fld := ⟨A.CSC_SYNC_CFG, 0, 16⟩
/-- CSC_LOCK (R339). -/
abbrev A.CSC_LOCK (i : Nat) : Nat := 0x440C + 0x4 * i
abbrev R.CSC_LOCK.LOCK (i : Nat) : Fld := ⟨A.CSC_LOCK i, 31, 1⟩
abbrev R.CSC_LOCK.OFS (i : Nat) : Fld := ⟨A.CSC_LOCK i, 0, 16⟩
/-- CSC_PAR_CFG (R339). -/
abbrev A.CSC_PAR_CFG : Nat := 0x4414
abbrev R.CSC_PAR_CFG.EN : Fld := ⟨A.CSC_PAR_CFG, 31, 1⟩
abbrev R.CSC_PAR_CFG.OWNER : Fld := ⟨A.CSC_PAR_CFG, 30, 1⟩
abbrev R.CSC_PAR_CFG.GROUP : Fld := ⟨A.CSC_PAR_CFG, 29, 1⟩
abbrev R.CSC_PAR_CFG.P_GROUP : Fld := ⟨A.CSC_PAR_CFG, 28, 1⟩
abbrev R.CSC_PAR_CFG.PARTNER : Fld := ⟨A.CSC_PAR_CFG, 26, 2⟩
/-- CSC_EVENT (R339). -/
abbrev A.CSC_EVENT : Nat := 0x4418
abbrev R.CSC_EVENT.PAR_LOST : Fld := ⟨A.CSC_EVENT, 5, 1⟩
abbrev R.CSC_EVENT.TUN_TO : Fld := ⟨A.CSC_EVENT, 4, 1⟩
abbrev R.CSC_EVENT.SYNC_LOST : Fld := ⟨A.CSC_EVENT, 3, 1⟩
abbrev R.CSC_EVENT.INDEX_CLASH : Fld := ⟨A.CSC_EVENT, 2, 1⟩
abbrev R.CSC_EVENT.TWO_MASTERS : Fld := ⟨A.CSC_EVENT, 1, 1⟩
abbrev R.CSC_EVENT.CRC_ERR : Fld := ⟨A.CSC_EVENT, 0, 1⟩
/-- CSC_STATS (R339). -/
abbrev A.CSC_STATS : Nat := 0x441C
abbrev R.CSC_STATS.CRC_CNT : Fld := ⟨A.CSC_STATS, 16, 16⟩
abbrev R.CSC_STATS.SILENT_CNT : Fld := ⟨A.CSC_STATS, 0, 16⟩
/-- CSC_FRAME_TS_LO (R339). -/
abbrev A.CSC_FRAME_TS_LO : Nat := 0x4420
abbrev R.CSC_FRAME_TS_LO.TS : Fld := ⟨A.CSC_FRAME_TS_LO, 0, 32⟩
/-- CSC_FRAME_TS_HI (R339). -/
abbrev A.CSC_FRAME_TS_HI : Nat := 0x4424
abbrev R.CSC_FRAME_TS_HI.TS : Fld := ⟨A.CSC_FRAME_TS_HI, 0, 32⟩
/-- MBX_H2U_DATA (R412). -/
abbrev A.MBX_H2U_DATA : Nat := 0x4800
abbrev R.MBX_H2U_DATA.DATA : Fld := ⟨A.MBX_H2U_DATA, 0, 32⟩
/-- MBX_H2U_STATUS (R412). -/
abbrev A.MBX_H2U_STATUS : Nat := 0x4804
abbrev R.MBX_H2U_STATUS.H2U_OVF : Fld := ⟨A.MBX_H2U_STATUS, 31, 1⟩
abbrev R.MBX_H2U_STATUS.USED : Fld := ⟨A.MBX_H2U_STATUS, 0, 5⟩
/-- MBX_H2U_ACK (R412). -/
abbrev A.MBX_H2U_ACK : Nat := 0x4808
abbrev R.MBX_H2U_ACK.VALID : Fld := ⟨A.MBX_H2U_ACK, 31, 1⟩
abbrev R.MBX_H2U_ACK.TAG : Fld := ⟨A.MBX_H2U_ACK, 8, 16⟩
abbrev R.MBX_H2U_ACK.STATUS : Fld := ⟨A.MBX_H2U_ACK, 0, 8⟩
/-- MBX_U2H_DATA (R412). -/
abbrev A.MBX_U2H_DATA : Nat := 0x480C
abbrev R.MBX_U2H_DATA.DATA : Fld := ⟨A.MBX_U2H_DATA, 0, 32⟩
/-- MBX_U2H_STATUS (R412). -/
abbrev A.MBX_U2H_STATUS : Nat := 0x4810
abbrev R.MBX_U2H_STATUS.ACK_ERR : Fld := ⟨A.MBX_U2H_STATUS, 31, 1⟩
abbrev R.MBX_U2H_STATUS.WAIT : Fld := ⟨A.MBX_U2H_STATUS, 30, 1⟩
abbrev R.MBX_U2H_STATUS.USED : Fld := ⟨A.MBX_U2H_STATUS, 0, 5⟩
/-- MBX_U2H_ACK (R412). -/
abbrev A.MBX_U2H_ACK : Nat := 0x4814
abbrev R.MBX_U2H_ACK.TAG : Fld := ⟨A.MBX_U2H_ACK, 8, 16⟩
abbrev R.MBX_U2H_ACK.STATUS : Fld := ⟨A.MBX_U2H_ACK, 0, 8⟩
/-- MBX_EC2U (R412). -/
abbrev A.MBX_EC2U : Nat := 0x4820
abbrev R.MBX_EC2U.W : Fld := ⟨A.MBX_EC2U, 0, 32⟩
/-- MBX_U2EC (R412). -/
abbrev A.MBX_U2EC : Nat := 0x4824
abbrev R.MBX_U2EC.W : Fld := ⟨A.MBX_U2EC, 0, 32⟩
/-- MBX_EC_STATUS (R412). -/
abbrev A.MBX_EC_STATUS : Nat := 0x4828
abbrev R.MBX_EC_STATUS.E2U_FULL : Fld := ⟨A.MBX_EC_STATUS, 31, 1⟩
abbrev R.MBX_EC_STATUS.U2E_FULL : Fld := ⟨A.MBX_EC_STATUS, 30, 1⟩
abbrev R.MBX_EC_STATUS.U2E_WAIT : Fld := ⟨A.MBX_EC_STATUS, 29, 1⟩
abbrev R.MBX_EC_STATUS.UNIT_ACK : Fld := ⟨A.MBX_EC_STATUS, 8, 8⟩
abbrev R.MBX_EC_STATUS.EC_ACK : Fld := ⟨A.MBX_EC_STATUS, 0, 8⟩
/-- MBX_LOCK_STATE (R412). -/
abbrev A.MBX_LOCK_STATE : Nat := 0x4840
abbrev R.MBX_LOCK_STATE.HELD : Fld := ⟨A.MBX_LOCK_STATE, 0, 16⟩
/-- MBX_LOCK_ERR (R412). -/
abbrev A.MBX_LOCK_ERR : Nat := 0x4844
abbrev R.MBX_LOCK_ERR.ERR_INIT : Fld := ⟨A.MBX_LOCK_ERR, 16, 3⟩
abbrev R.MBX_LOCK_ERR.LOCK_ERR : Fld := ⟨A.MBX_LOCK_ERR, 0, 16⟩
/-- MBX_LOCK (R412). -/
abbrev A.MBX_LOCK (i : Nat) : Nat := 0x4880 + 0x4 * i
abbrev R.MBX_LOCK.HELD (i : Nat) : Fld := ⟨A.MBX_LOCK i, 31, 1⟩
abbrev R.MBX_LOCK.OWNER (i : Nat) : Fld := ⟨A.MBX_LOCK i, 0, 3⟩
/-- LOG_CFG (R433). -/
abbrev A.LOG_CFG : Nat := 0x4C00
abbrev R.LOG_CFG.TYPES : Fld := ⟨A.LOG_CFG, 1, 13⟩
/-- LOG_STATUS (R433). -/
abbrev A.LOG_STATUS : Nat := 0x4C04
abbrev R.LOG_STATUS.DROPPED : Fld := ⟨A.LOG_STATUS, 24, 8⟩
abbrev R.LOG_STATUS.INVALID : Fld := ⟨A.LOG_STATUS, 12, 12⟩
abbrev R.LOG_STATUS.NEXT : Fld := ⟨A.LOG_STATUS, 0, 12⟩
/-- LOG_NEXT_SEQ (R433). -/
abbrev A.LOG_NEXT_SEQ : Nat := 0x4C08
abbrev R.LOG_NEXT_SEQ.LSEQ : Fld := ⟨A.LOG_NEXT_SEQ, 0, 32⟩
/-- LOG_RETAIN (R433). -/
abbrev A.LOG_RETAIN : Nat := 0x4C0C
abbrev R.LOG_RETAIN.ABANDON_CNT : Fld := ⟨A.LOG_RETAIN, 16, 16⟩
abbrev R.LOG_RETAIN.BOOT : Fld := ⟨A.LOG_RETAIN, 0, 16⟩
/-- SEC_FW_STATUS (R433). -/
abbrev A.SEC_FW_STATUS : Nat := 0x5000
abbrev R.SEC_FW_STATUS.TRIAL : Fld := ⟨A.SEC_FW_STATUS, 31, 1⟩
abbrev R.SEC_FW_STATUS.STAGED : Fld := ⟨A.SEC_FW_STATUS, 30, 1⟩
abbrev R.SEC_FW_STATUS.GAP : Fld := ⟨A.SEC_FW_STATUS, 29, 1⟩
abbrev R.SEC_FW_STATUS.DBG_FUSE : Fld := ⟨A.SEC_FW_STATUS, 28, 1⟩
abbrev R.SEC_FW_STATUS.ACTIVE : Fld := ⟨A.SEC_FW_STATUS, 24, 1⟩
abbrev R.SEC_FW_STATUS.RUN_SVN : Fld := ⟨A.SEC_FW_STATUS, 16, 8⟩
abbrev R.SEC_FW_STATUS.CFG_SLOT : Fld := ⟨A.SEC_FW_STATUS, 8, 1⟩
/-- SEC_FW_VER0 (R433). -/
abbrev A.SEC_FW_VER0 : Nat := 0x5004
abbrev R.SEC_FW_VER0.VER : Fld := ⟨A.SEC_FW_VER0, 0, 32⟩
/-- SEC_FW_VER1 (R433). -/
abbrev A.SEC_FW_VER1 : Nat := 0x5008
abbrev R.SEC_FW_VER1.VER : Fld := ⟨A.SEC_FW_VER1, 0, 32⟩
/-- SEC_RB (R433). -/
abbrev A.SEC_RB : Nat := 0x500C
abbrev R.SEC_RB.CNT : Fld := ⟨A.SEC_RB, 0, 7⟩
/-- SEC_DBG_CTRL (R433). -/
abbrev A.SEC_DBG_CTRL : Nat := 0x5010
abbrev R.SEC_DBG_CTRL.DBG_EN : Fld := ⟨A.SEC_DBG_CTRL, 31, 1⟩
/-- SEC_NONCE (R433). -/
abbrev A.SEC_NONCE : Nat := 0x5014
abbrev R.SEC_NONCE.NONCE : Fld := ⟨A.SEC_NONCE, 0, 32⟩
/-- SEC_MRAM_ECC (R433). -/
abbrev A.SEC_MRAM_ECC : Nat := 0x5018
abbrev R.SEC_MRAM_ECC.UNCORR : Fld := ⟨A.SEC_MRAM_ECC, 16, 16⟩
abbrev R.SEC_MRAM_ECC.CORR : Fld := ⟨A.SEC_MRAM_ECC, 0, 16⟩
/-- SEC_CFG_STATUS (R433). -/
abbrev A.SEC_CFG_STATUS : Nat := 0x501C
abbrev R.SEC_CFG_STATUS.VALID : Fld := ⟨A.SEC_CFG_STATUS, 31, 1⟩
abbrev R.SEC_CFG_STATUS.REC_ERR : Fld := ⟨A.SEC_CFG_STATUS, 0, 16⟩
/-- PIN_GPIO_CFG (R460). -/
abbrev A.PIN_GPIO_CFG (i : Nat) : Nat := 0x5400 + 0x4 * i
abbrev R.PIN_GPIO_CFG.FUNC (i : Nat) : Fld := ⟨A.PIN_GPIO_CFG i, 28, 4⟩
abbrev R.PIN_GPIO_CFG.FT_SEL (i : Nat) : Fld := ⟨A.PIN_GPIO_CFG i, 24, 4⟩
abbrev R.PIN_GPIO_CFG.PULL (i : Nat) : Fld := ⟨A.PIN_GPIO_CFG i, 22, 2⟩
abbrev R.PIN_GPIO_CFG.OD (i : Nat) : Fld := ⟨A.PIN_GPIO_CFG i, 21, 1⟩
abbrev R.PIN_GPIO_CFG.OE (i : Nat) : Fld := ⟨A.PIN_GPIO_CFG i, 20, 1⟩
abbrev R.PIN_GPIO_CFG.FILT (i : Nat) : Fld := ⟨A.PIN_GPIO_CFG i, 16, 4⟩
abbrev R.PIN_GPIO_CFG.WAKE_EDGE (i : Nat) : Fld := ⟨A.PIN_GPIO_CFG i, 15, 1⟩
/-- PIN_GPIO_IN (R460). -/
abbrev A.PIN_GPIO_IN : Nat := 0x5420
abbrev R.PIN_GPIO_IN.IN : Fld := ⟨A.PIN_GPIO_IN, 0, 8⟩
/-- PIN_GPIO_OUT (R460). -/
abbrev A.PIN_GPIO_OUT : Nat := 0x5424
abbrev R.PIN_GPIO_OUT.OUT : Fld := ⟨A.PIN_GPIO_OUT, 0, 8⟩
/-- PIN_GPIO_EVENT (R460). -/
abbrev A.PIN_GPIO_EVENT : Nat := 0x5428
abbrev R.PIN_GPIO_EVENT.FALL : Fld := ⟨A.PIN_GPIO_EVENT, 8, 8⟩
abbrev R.PIN_GPIO_EVENT.RISE : Fld := ⟨A.PIN_GPIO_EVENT, 0, 8⟩
/-- PIN_PAD_CFG (R460). -/
abbrev A.PIN_PAD_CFG : Nat := 0x542C
abbrev R.PIN_PAD_CFG.EN_OD : Fld := ⟨A.PIN_PAD_CFG, 8, 1⟩
abbrev R.PIN_PAD_CFG.FMP : Fld := ⟨A.PIN_PAD_CFG, 4, 1⟩
abbrev R.PIN_PAD_CFG.GPIO_DRV : Fld := ⟨A.PIN_PAD_CFG, 0, 2⟩
/-- PH_CFG (R75). -/
abbrev A.PH_CFG (i : Nat) : Nat := 0x6000 + 0x40 * i
abbrev R.PH_CFG.IPH_LIM (i : Nat) : Fld := ⟨A.PH_CFG i, 16, 16⟩
abbrev R.PH_CFG.IPK_LIM (i : Nat) : Fld := ⟨A.PH_CFG i, 0, 16⟩
/-- PH_HW (R75). -/
abbrev A.PH_HW (i : Nat) : Nat := 0x6004 + 0x40 * i
abbrev R.PH_HW.SNS (i : Nat) : Fld := ⟨A.PH_HW i, 23, 9⟩
abbrev R.PH_HW.L_NOM (i : Nat) : Fld := ⟨A.PH_HW i, 13, 10⟩
abbrev R.PH_HW.DRV_LVL (i : Nat) : Fld := ⟨A.PH_HW i, 12, 1⟩
abbrev R.PH_HW.OC_CNT (i : Nat) : Fld := ⟨A.PH_HW i, 8, 4⟩
abbrev R.PH_HW.SW_WIN (i : Nat) : Fld := ⟨A.PH_HW i, 0, 8⟩
/-- PH_DT (R75). -/
abbrev A.PH_DT (i : Nat) : Nat := 0x6008 + 0x40 * i
abbrev R.PH_DT.DT_MAX (i : Nat) : Fld := ⟨A.PH_DT i, 20, 10⟩
abbrev R.PH_DT.DT_MIN (i : Nat) : Fld := ⟨A.PH_DT i, 10, 10⟩
abbrev R.PH_DT.DT_INIT (i : Nat) : Fld := ⟨A.PH_DT i, 0, 10⟩
/-- PH_TMIN (R75). -/
abbrev A.PH_TMIN (i : Nat) : Nat := 0x600C + 0x40 * i
abbrev R.PH_TMIN.TOFF_MIN (i : Nat) : Fld := ⟨A.PH_TMIN i, 16, 16⟩
abbrev R.PH_TMIN.TON_MIN (i : Nat) : Fld := ⟨A.PH_TMIN i, 0, 16⟩
/-- PH_STATUS (R75). -/
abbrev A.PH_STATUS (i : Nat) : Nat := 0x6010 + 0x40 * i
abbrev R.PH_STATUS.IVAL (i : Nat) : Fld := ⟨A.PH_STATUS i, 16, 16⟩
abbrev R.PH_STATUS.GROUP (i : Nat) : Fld := ⟨A.PH_STATUS i, 6, 2⟩
abbrev R.PH_STATUS.RETIRED (i : Nat) : Fld := ⟨A.PH_STATUS i, 5, 1⟩
abbrev R.PH_STATUS.SHED (i : Nat) : Fld := ⟨A.PH_STATUS i, 4, 1⟩
abbrev R.PH_STATUS.SWITCHING (i : Nat) : Fld := ⟨A.PH_STATUS i, 3, 1⟩
abbrev R.PH_STATUS.SAT (i : Nat) : Fld := ⟨A.PH_STATUS i, 2, 1⟩
abbrev R.PH_STATUS.FF_HOLD (i : Nat) : Fld := ⟨A.PH_STATUS i, 1, 1⟩
abbrev R.PH_STATUS.CL_ACTIVE (i : Nat) : Fld := ⟨A.PH_STATUS i, 0, 1⟩
/-- PH_FAULT (R75). -/
abbrev A.PH_FAULT (i : Nat) : Nat := 0x6014 + 0x40 * i
abbrev R.PH_FAULT.CAUSE (i : Nat) : Fld := ⟨A.PH_FAULT i, 28, 4⟩
abbrev R.PH_FAULT.REINST (i : Nat) : Fld := ⟨A.PH_FAULT i, 26, 2⟩
abbrev R.PH_FAULT.CL_HITS (i : Nat) : Fld := ⟨A.PH_FAULT i, 8, 8⟩
abbrev R.PH_FAULT.FLAGS (i : Nat) : Fld := ⟨A.PH_FAULT i, 0, 4⟩
/-- PH_SLOPE (R75). -/
abbrev A.PH_SLOPE (i : Nat) : Nat := 0x6018 + 0x40 * i
abbrev R.PH_SLOPE.M_F (i : Nat) : Fld := ⟨A.PH_SLOPE i, 16, 16⟩
abbrev R.PH_SLOPE.M_R (i : Nat) : Fld := ⟨A.PH_SLOPE i, 0, 16⟩
/-- PH_DTMEAS (R75). -/
abbrev A.PH_DTMEAS (i : Nat) : Nat := 0x601C + 0x40 * i
abbrev R.PH_DTMEAS.B_FALL (i : Nat) : Fld := ⟨A.PH_DTMEAS i, 24, 8⟩
abbrev R.PH_DTMEAS.B_RISE (i : Nat) : Fld := ⟨A.PH_DTMEAS i, 16, 8⟩
abbrev R.PH_DTMEAS.A_FALL (i : Nat) : Fld := ⟨A.PH_DTMEAS i, 8, 8⟩
abbrev R.PH_DTMEAS.A_RISE (i : Nat) : Fld := ⟨A.PH_DTMEAS i, 0, 8⟩
/-- CAP_FCH_SCALE (R292). -/
abbrev A.CAP_FCH_SCALE (i : Nat) : Nat := 0x7000 + 0x20 * i
abbrev R.CAP_FCH_SCALE.SCALE (i : Nat) : Fld := ⟨A.CAP_FCH_SCALE i, 0, 32⟩
/-- CAP_FCH_LAST (R292). -/
abbrev A.CAP_FCH_LAST (i : Nat) : Nat := 0x7004 + 0x20 * i
abbrev R.CAP_FCH_LAST.LAST (i : Nat) : Fld := ⟨A.CAP_FCH_LAST i, 0, 16⟩
/-- CAP_FCH_MINMAX (R292). -/
abbrev A.CAP_FCH_MINMAX (i : Nat) : Nat := 0x7008 + 0x20 * i
abbrev R.CAP_FCH_MINMAX.MAX (i : Nat) : Fld := ⟨A.CAP_FCH_MINMAX i, 16, 16⟩
abbrev R.CAP_FCH_MINMAX.MIN (i : Nat) : Fld := ⟨A.CAP_FCH_MINMAX i, 0, 16⟩
/-- CAP_SCH_VALUE (R292). -/
abbrev A.CAP_SCH_VALUE (i : Nat) : Nat := 0x7200 + 0x10 * i
abbrev R.CAP_SCH_VALUE.NEW (i : Nat) : Fld := ⟨A.CAP_SCH_VALUE i, 31, 1⟩
abbrev R.CAP_SCH_VALUE.VALUE (i : Nat) : Fld := ⟨A.CAP_SCH_VALUE i, 0, 16⟩
/-- CAP_SCH_TS (R292). -/
abbrev A.CAP_SCH_TS (i : Nat) : Nat := 0x7204 + 0x10 * i
abbrev R.CAP_SCH_TS.TS_LO (i : Nat) : Fld := ⟨A.CAP_SCH_TS i, 0, 32⟩

end Sys2Proof.Machine
end

