-- ==== Sys2Proof/Config.lean ====
section
/-! DEFINITION. What one part or one run fixes and the spec leaves open: free values without a body, so that no proof
can see what they are (log entries 2 and 3). -/

namespace Sys2Proof

/-- A value the spec leaves open, drawn afresh at every use: applied to the counter `free` of the state. -/
opaque Config.freeWord : Nat → BitVec 32

/-- A byte the spec leaves open, drawn afresh at every use. -/
opaque Config.freeByte : Nat → BitVec 8

/-- The 64-bit unique number programmed into OTP at the factory (R297). -/
opaque Config.uniqueNumber : BitVec 64

end Sys2Proof
end

