-- ==== Sys2Proof/Machine/StateBase.lean ====
section
/-! DEFINITION. The parts of the state that every block uses: the events, the commands outstanding, and the record of
what the unit sends out. -/

namespace Sys2Proof.Machine

/-- The AON supply (R38): absent, present with AON power-on reset asserted, or running. -/
inductive Power where
  | off | por | on
  deriving DecidableEq, Repr

/-- An event record (R243) without the ring's PHASE and LOST flags. -/
structure Event where
  typ     : Nat
  seq     : Nat
  ts      : Nat
  payload : List Byte
  deriving DecidableEq, Repr

/-- Where a command came from: a submission ring, the EC queue, or a record of the configuration image. -/
inductive CmdSrc where
  | ring (q : Nat)
  | ec
  | image
  deriving DecidableEq, Repr

/-- A completion's content (R240, R241), before the ring adds PHASE, ring number and SQ_HEAD. `buf` is a buffered
result (R239). -/
structure Reply where
  status   : Nat
  diagOfs  : Nat := 0xFF
  diagCode : Nat := 0
  result   : Nat := 0
  buf      : List Byte := []
  deriving DecidableEq, Repr

/-- An outstanding command (R246): fetched, and started or not. `params` are parameter bytes 0 to 47 (R237);
`bad` is the completion of an entry that fails the checks of R238. -/
structure Cmd where
  handle     : Nat
  src        : CmdSrc
  cid        : Nat
  opcode     : Nat
  fence      : Bool
  resultLen  : Nat
  resultAddr : Nat
  params     : List Byte
  started    : Bool
  noCpl      : Bool
  bad        : Option Reply
  deriving DecidableEq, Repr

/-- What a command's operation answers: it completes, or it stays outstanding. -/
inductive CmdRes where
  | done (r : Reply)
  | wait
  deriving DecidableEq, Repr

/-- A PD message on the wire of a port: 0 for SOP or 1 for SOP', its kind, and its data objects or a mode's action. -/
structure PdMsg where
  sop  : Nat
  kind : MsgKind
  objs : List Nat
  deriving DecidableEq, Repr

/-- What the unit sends out, newest first in the record of the state. -/
inductive Emit where
  | hostWrite (addr : Nat) (data : List Byte)
  | hostRead (addr len : Nat)
  | msix (vec : Nat)
  | pd (port : Nat) (m : PdMsg)
  | pdHardReset (port : Nat)
  | twb (addr : Nat) (data : List Byte)
  | csc (slot : Slot)
  | cscBurst
  | reply (data : List Byte)
  | regRead (ini : Initiator) (addr : Nat) (value : Word)
  deriving DecidableEq, Repr

end Sys2Proof.Machine
end

