-- ==== Sys2Proof/Machine/State.lean ====
section
/-! DEFINITION. The state of the unit: plain data. It holds the register space, the state that the rules give the
machine beside the registers (one structure per block), the record of what the unit sent out, and the queue of waiting
commands. `State.reset` is the machine with AON power-on reset just asserted (R38, R39): every register at its reset
value, nothing in progress, an empty queue. -/

namespace Sys2Proof.Machine

/-- No meaning of this model stops with a fault: the spec gives every command an effect. -/
inductive Fault where
  /-- Raised by nothing; kept because an outcome needs a fault type. Safe. -/
  | none
  deriving DecidableEq, Repr

/-- Reasons to refuse a command. -/
inductive Refusal where
  /-- Raised by an arm of the dispatch whose command has no meaning yet. Safe. -/
  | notModelled (mnemonic : String)
  deriving DecidableEq, Repr

/-! ### Power stage (03_power_stage.md) -/

/-- A phase beside its registers: marked for reinstatement and self-check running (R72), bootstrap precharge running
(R53), consecutive cycle-limit periods (R69), balance trim in µA and share ramp in periods (R64), the four
applied dead times (R54), L_EST (R60), a held and the applied drive level (R52), periods since the last refresh (R53),
the rising interval and length of the last period (R59), a cycle-limit hit in the running period (R69), and the move of
a map change (R67). -/
structure Phase where
  marked     : Bool := false
  checking   : Bool := false
  precharge  : Bool := false
  ocRun      : Nat := 0
  trim       : Int := 0
  ramp       : Nat := 0
  dtARise    : Nat := 0
  dtAFall    : Nat := 0
  dtBRise    : Nat := 0
  dtBFall    : Nat := 0
  lEst       : Nat := 330
  drvHeld    : Option Nat := none
  drvApplied : Nat := 0
  refresh    : Nat := 0
  tOn        : Nat := 0
  lastLen    : Nat := 0
  clHit      : Bool := false
  moving     : Bool := false
  deriving DecidableEq, Repr

/-- A phase group beside its registers: a direction change in progress and its target (R65), periods left of a
re-interleave (R56), the half-period in force (R55), the voltage loops'
integrators in µA (R63), and a start from 0 A in progress (R64). -/
structure Group where
  dirTarget : Option Nat := none
  reint     : Nat := 0
  half      : Nat := 10667
  intVsys   : Int := 0
  intVbus   : Int := 0
  starting  : Bool := false
  deriving DecidableEq, Repr

/-- A PHASE_MAP_SET in progress (R67): the command it completes, if one, and the map it leads to. -/
structure MapChange where
  handle : Option Nat
  target : Nat
  deriving DecidableEq, Repr

structure Stage where
  phases    : Vector Phase 6 := Vector.replicate 6 {}
  groups    : Vector Group 2 := Vector.replicate 2 {}
  mapChange : Option MapChange := none
  delayCal  : Nat := 0
  /-- The unit-level candidate in mA of the latest reference valley (R85, R325). -/
  cand      : Int := 0
  deriving DecidableEq, Repr

/-! ### Power path (04_power_path.md) -/

/-- The step of R79 that a bus is in: IREF ramping to 0 A before the old pair opens, the bus discharging toward the new
port's VBUS, or the new pair closing. -/
inductive BusMove where
  | idle
  | ramp (p : Option (Fin 4))
  | settle (p : Fin 4)
  | closing (p : Fin 4) (fast : Bool)
  deriving DecidableEq, Repr

/-- Why a bus is held for a port (R73, R79, R99). -/
inductive HoldWhy where
  | ovp | rev | vdrv
  deriving DecidableEq, Repr

/-- A bus of the input matrix: what host selection names while automatic selection is off (R81), its move, the hold,
and whether the running INPUT_SELECT moves it. -/
structure Bus where
  hostPort : Option (Fin 4) := none
  move     : BusMove := .idle
  held     : Option (Fin 4 × HoldWhy) := none
  selMove  : Bool := false
  deriving DecidableEq, Repr

/-- An INPUT_SELECT in progress (R81, R100). -/
structure InputSel where
  handle : Option Nat
  begun  : Bool
  deriving DecidableEq, Repr

/-- The stage of a port's sourcing (R97). -/
inductive SrcStage where
  | off | dirRamp | raising | closing | on
  deriving DecidableEq, Repr

/-- A port on the power path: old and new voltage of a contract transition (R82), the times of its over-voltage
trips (R99), the stage and the bus of its sourcing (R97). -/
structure PortPath where
  trans    : Option (Nat × Nat) := none
  ovpTrips : List Nat := []
  src      : SrcStage := .off
  srcBus   : Option (Fin 2) := none
  deriving DecidableEq, Repr

structure Path where
  buses    : Vector Bus 2 := Vector.replicate 2 {}
  ports    : Vector PortPath 4 := Vector.replicate 4 {}
  inputSel : Option InputSel := none
  /-- The BATFET stands fully on after fast-on, in IDEAL DIODE or LINEAR (R90). -/
  fastOn   : Bool := false
  deriving DecidableEq, Repr

/-! ### Charger (05_charging.md) -/

/-- A staging buffer of CHARGE_PROFILE_LOAD (R131): its bytes and the sections stored since section 0. -/
structure ProfileBuf where
  bytes    : List Byte := []
  sections : Nat := 0
  deriving DecidableEq, Repr

/-- The estimator's values of one cell: Rohm and Rct in 10 µΩ, τ in 0.1 ms, margin in 0.1 mV (R124, R125). -/
structure CellEst where
  rohm   : Nat := 0
  rct    : Nat := 0
  tau    : Nat := 0
  margin : Int := 0
  deriving DecidableEq, Repr

/-- The live state of the estimator (R124 to R126): values per cell, state code, seconds of data, normalised variance
in 0.1 %, I_PLATE in mA, lowest margin in 0.1 mV, seconds above 15 % variance, and seconds of agreement after a
restore (R127). -/
structure Estimator where
  cells   : Vector CellEst 5 := Vector.replicate 5 {}
  state   : Nat := 0
  dataS   : Nat := 0
  var     : Nat := 0
  /-- I_PLATE in mA; none until it is first computed. -/
  iPlate  : Option Int := none
  margin  : Int := 0
  highS   : Nat := 0
  agreeS  : Nat := 0
  deriving DecidableEq, Repr

structure Charger where
  bufHost    : ProfileBuf := {}
  bufEc      : ProfileBuf := {}
  /-- An accepted profile that waits for the next evaluation (R109). -/
  pending    : Option (List Byte) := none
  /-- PACK_ID in force came with a profile since the last absence declaration (R127). -/
  confirmed  : Bool := false
  /-- The pack was declared absent since the estimator state was last confirmed (R127). -/
  unverified : Bool := false
  /-- VBAT at the start of the presence probe that is running (R105). -/
  probe      : Option Nat := none
  /-- A cycle's phase choice waits for its probe (R115). -/
  probeStart : Bool := false
  /-- VSYS is being brought to VBAT after an insertion (R106). -/
  inserting  : Bool := false
  /-- Safety-timer counts in ms, and ms spent in CV (R120, R116). -/
  fastMs     : Nat := 0
  preMs      : Nat := 0
  cvMs       : Nat := 0
  /-- The battery currents of the last second's evaluations in mA, newest first (R121). -/
  iLog       : List Int := []
  /-- TS of the cell over-voltage trips on record, newest first (R119). -/
  trips      : List Nat := []
  /-- PRBS register and present sign of the perturbation (R123). -/
  prbs       : Nat := 0x7FF
  plus       : Bool := true
  /-- The set point is forced to 0 mA until the next computation (R143). -/
  forcedZero : Bool := false
  /-- The filtered cell voltages V_LO and V_HI of the latest evaluation, in mV (R103). -/
  vLo        : Nat := 0
  vHi        : Nat := 0
  est        : Estimator := {}
  /-- Saved estimator state with its PACK_ID, newest valid copy (R127, R421). -/
  saved      : Option (Nat × Estimator) := none
  /-- The last I_PLATE in mA, a ceiling after the fallback until the cycle ends (R128). -/
  ceil       : Option Int := none
  deriving DecidableEq, Repr

/-! ### Budget (06_budget_arbitration.md) -/

/-- An intent (R147, R153): slot, generation, ΔP in mW, start and end in TS, the unit whose host sent it, active. -/
structure Intent where
  slot   : Nat
  gen    : Nat
  dP     : Nat
  start  : Nat
  stop   : Nat
  owner  : Nat
  active : Bool
  deriving DecidableEq, Repr

/-- An overload window of R141: time at the extended string in µs, the percentage granted, a grant standing. -/
structure OvlWindow where
  usedUs   : Nat
  pct      : Nat
  granting : Bool
  deriving DecidableEq, Repr

/-- A source port in shed (R144): the cut string, the string of before the cut, and whether the STRING limiter has
taken the cut string. -/
structure Shed where
  cut     : Nat
  before  : Nat
  taken   : Bool
  deriving DecidableEq, Repr

/-- A port's part in the budget: its window, its shed, a cut to be restored with the string of before it (R145), and a
power that bounds its offers in place of the allowance, until its next contract: a restore, or the cut string after a
Hard Reset at the end of a shed (R144, R145). -/
structure PortBudget where
  window   : Option OvlWindow := none
  shed     : Option Shed := none
  restore  : Option Nat := none
  bound    : Option Nat := none
  deriving DecidableEq, Repr

structure Budget where
  intents  : List Intent := []
  gens     : Vector Nat 8 := Vector.replicate 8 0
  ports    : Vector PortBudget 4 := Vector.replicate 4 {}
  /-- Values of the latest computation (R156): supply S + P_BAT + OVL, demand D + DRW + CHG, max(0, over), and S. -/
  supply   : Nat := 0
  demand   : Nat := 0
  short    : Nat := 0
  sTotal   : Nat := 0
  dTotal   : Nat := 0
  strTotal : Nat := 0
  overNow  : Int := 0
  /-- P_AUX and DRW of this unit in mW, as last computed (R138). -/
  pAux     : Nat := 0
  drw      : Nat := 0
  /-- STRING candidates of the groups in mA (R142). -/
  strCand  : Vector Nat 2 := Vector.replicate 2 0
  /-- The supply falls short of demand without the pack, and charge of its request (R139): RELIEF 2 and 1. -/
  lacks    : Bool := false
  chgCut   : Bool := false
  /-- CHG of the latest computation in mW, over every unit (R139, R142). -/
  chgAll   : Nat := 0
  /-- BUDGET_SET_POLICY commands that wait for the next computation: handle and parameters (R151, R155). -/
  policies : List (Nat × List Byte) := []
  /-- Peak credit in units of 10 µs (R137). -/
  credit   : Nat := 1000000
  deriving DecidableEq, Repr

/-! ### Type-C and policy engine (07, 08) -/

/-- What a port presents on its CC pins (R159, R161). -/
inductive CcTerm where
  | open_ | rd | rp (level : Nat)
  deriving DecidableEq, Repr

/-- Which multi-message sequence a port runs, or holds for SinkTxOK (R203, R214). -/
inductive PeSeq where
  | none | request | eprEnter | eprExit | prSwap | vconnSwap | drSwap | frSwap | hostMsg | softReset | keepAlive
  | getSourceCap | getSinkCap | getStatus | sourceCaps | discover
  deriving DecidableEq, Repr

/-- A message given to the protocol layer (R179): what it is, its retries, its MessageID. -/
structure TxMsg where
  sop     : Nat
  kind    : MsgKind
  objs    : List Nat
  retries : Nat
  deriving DecidableEq, Repr

/-- A chunked exchange (R182): sending or receiving, the message, bytes so far, total. -/
structure ChunkXfer where
  sending : Bool
  kind    : MsgKind
  data    : List Byte
  total   : Nat
  deriving DecidableEq, Repr

/-- A port's Type-C and link state beside its registers. -/
structure TypeC where
  term       : CcTerm := .open_
  /-- Role in which the port last entered Attached.SNK or Attached.SRC: true for source (R211). -/
  attachSrc  : Bool := false
  /-- VCONN stays off until detach after an overcurrent (R171). -/
  vconnLock  : Bool := false
  /-- Ra was read on the other CC pin at the attach (R166, R171). -/
  ra         : Bool := false
  /-- VBUS discharge running, and its target in mV (R172, R209). -/
  discharge  : Option Nat := none
  /-- A moisture test is running (pins tested), whether it repeats an unclean one, and whether it is attach-time. -/
  moistPins  : Option Nat := none
  moistRe    : Bool := false
  moistAtt   : Bool := false
  /-- An unclean test waits for its repeat; the attach waits too when it is attach-time (R174). -/
  moistHold  : Bool := false
  /-- The next wet retest covers all four pins (R177). -/
  moistAll   : Bool := false
  /-- The lower Rp level of a debug accessory's pins (R168). -/
  accLvl     : Nat := 0
  /-- BIST mode: 0 none, 1 carrier, 2 test data (R185). -/
  bist       : Nat := 0
  /-- MessageID counters sent and received, for SOP and SOP' (R179). -/
  txId0      : Nat := 0
  txId1      : Nat := 0
  rxId0      : Option Nat := none
  rxId1      : Option Nat := none
  tx         : Option TxMsg := none
  chunk      : Option ChunkXfer := none
  /-- Discover Identity attempts made, while discovery runs (R184). -/
  discover   : Option Nat := none
  /-- BMC receiver on. -/
  bmc        : Bool := false
  deriving DecidableEq, Repr

/-- A contract as the engine holds it: object position, kind (1 fixed, 2 PPS, 3 AVS), mV, mA, and the RDO. -/
structure Contract where
  pos  : Nat
  kind : Nat
  mv   : Nat
  ma   : Nat
  rdo  : Nat
  deriving DecidableEq, Repr

/-- A PD_REQUEST hold (R192, R219). -/
structure HoldReq where
  pos : Nat
  mv  : Nat
  ma  : Nat
  deriving DecidableEq, Repr

/-- A port's policy engine beside its registers. -/
structure Policy where
  /-- The contract asked for or accepted, not yet in force. -/
  next      : Option Contract := none
  /-- The state to return to after a swap, BIST or Soft_Reset. -/
  back      : Nat := 0
  seq       : PeSeq := .none
  /-- A sequence that waits for SinkTxOK (sink) or tSinkTx (source) (R181, R203). -/
  held      : PeSeq := .none
  /-- Sequences that wait behind it, in order of arrival. -/
  later     : List PeSeq := []
  heldMsg   : Option (Nat × MsgKind × List Nat) := none
  /-- The command whose sequence runs or waits on the port. -/
  cmd       : Option Nat := none
  /-- The sequence that this command starts. -/
  cmdSeq    : PeSeq := .none
  /-- The clamped parameters that its completion reports (R9). -/
  cmdClamp  : List (Nat × Nat) := []
  hold      : Option HoldReq := none
  waits     : Nat := 0
  /-- A response is awaited (tSenderResponse running), and to what. -/
  await     : PeSeq := .none
  eprTried  : Bool := false
  /-- 1 Enter sent, 2 acknowledged, 3 succeeded and capabilities awaited (R197). -/
  eprStage  : Nat := 0
  /-- EPR exit: the SPR contract is asked for first (R198). -/
  eprLeave  : Bool := false
  kaPending : Bool := false
  capsCount : Nat := 0
  /-- Stage of a swap: 1 message sent, 2 accepted, 3 PS_RDY sent. -/
  swapStage : Nat := 0
  /-- Hard Resets sent while waiting for capabilities (R195). -/
  capHr     : Nat := 0
  /-- A message from the partner that waits for the host's reply (R213). -/
  hostMsg   : Option MsgKind := none
  /-- The host reply deadline has passed for the last host-routed message (R220). -/
  hostLate  : Bool := false
  /-- Fast Role Swap: the signal was sent, and FR_Swap is awaited (R209). -/
  frsSent   : Bool := false
  /-- After a Fast Role Swap the default contract's FRS current holds (R98, R208). -/
  frsCur    : Bool := false
  deriving DecidableEq, Repr

structure Port where
  tc : TypeC := {}
  pe : Policy := {}
  deriving DecidableEq, Repr

/-- A posted write to an AON-domain register (R22): initiator, address, value and the bits it changes. -/
structure AonWrite where
  ini  : Initiator
  addr : Nat
  data : Word
  mask : Word
  deriving DecidableEq, Repr

/-! ### Modes and boot (02_modes_and_startup.md) -/

/-- How far the boot of R39 has come. -/
inductive BootStage where
  | held | released | strapped | clocked | running | configured | staged | ready
  deriving DecidableEq, Repr

/-- A KEEP-ALIVE or SHIP entry (R30, R33): pending its delay, platform power-down running, rails off, mirrored. -/
inductive LowEntry where
  | none | ka | ship | shipDown | shipOff
  deriving DecidableEq, Repr

structure Modes where
  boot      : BootStage := .held
  entry     : LowEntry := .none
  /-- The ship keeper's cause latch (R34, R38). -/
  keeper    : Nat := 0
  /-- The last wake source returns to KEEP-ALIVE (R32). -/
  kaReturn  : Bool := false
  /-- PWRBTN# has read high for 10 ms since AON power-on reset (R43). -/
  btnArmed  : Bool := false
  /-- Long press: 0 none, 1 started, 2 rails off and BATFET open (R44). -/
  longPress : Nat := 0
  /-- The pack stands below the cutoff level, and its event was raised (R35). -/
  packLow   : Bool := false
  /-- BAR0 accepts accesses (R39). -/
  bar0      : Bool := false
  /-- The first MODE_CHANGE event since boot is still to come (R29). -/
  firstEvt  : Bool := true
  /-- The boot is one of R34 with a low pack and no input: rails wait for VSYS_MIN. -/
  lowBoot   : Bool := false
  /-- A dead-battery start waits for VSYS_MIN, the BATFET in OFF (R41). -/
  dbHold    : Bool := false
  /-- The port that boots the unit from a dead battery, and that it counts as attached (R41). -/
  dbPort    : Option (Fin 4) := none
  /-- The unit runs the stand-alone behaviour of R47. -/
  standAlone : Bool := false
  /-- MODE_CHANGE cause of the KEEP-ALIVE entry that is pending (R244). -/
  kaCause   : Nat := 1
  /-- HYBRID is reported while the dwell of R28 runs. -/
  dwell     : Bool := false
  /-- Subsystem Vendor ID and Subsystem ID (R224). -/
  subVendor : Nat := 0x1D5A
  subId     : Nat := 0x4896
  deriving DecidableEq, Repr

/-! ### Host interface (09_host_rings.md) -/

/-- An entry read in flight (R246): ring, first index, number of entries. -/
structure EntryFetch where
  ring  : Nat
  first : Nat
  count : Nat
  deriving DecidableEq, Repr

/-- A completion held while DMA is off (R260): its completion ring, submission ring, record fields and buffer. -/
structure HeldCpl where
  cq    : Fin 8
  ring  : Nat
  head  : Nat
  cid   : Nat
  reply : Reply
  addr  : Nat
  deriving DecidableEq, Repr

structure HostIf where
  /-- Data link up; PERST# asserted; function in D3hot. -/
  linkUp   : Bool := false
  perst    : Bool := true
  d3       : Bool := false
  /-- The link is in L1, where PIPE stops (R18, R226). -/
  l1       : Bool := false
  /-- Rings in error, one bit per completion ring; event ring in error (R259). -/
  cqBad    : Nat := 0
  evqBad   : Bool := false
  fetches  : List EntryFetch := []
  /-- Ring last served by the fetch turns, the EC queue being ring 8 (R246). -/
  turn     : Nat := 8
  /-- Entries counted since the last message, per completion ring and for the event ring (R228). -/
  cqCount  : Vector Nat 8 := Vector.replicate 8 0
  evCount  : Nat := 0
  /-- EVQ_HEAD of the last doorbell fetch; records held; a record was lost since the last one written (R236). -/
  evHead   : Nat := 0
  evHeld   : List Event := []
  evLost   : Bool := false
  /-- Completions held while DMA is off, oldest first (R260). -/
  cplHeld  : List HeldCpl := []
  /-- WRITE_SEQ of the status page; a head or tail has changed since its last write (R231). -/
  stSeq    : Nat := 0
  stDue    : Bool := false
  deriving DecidableEq, Repr

/-! ### Two-wire bus and EC queue (11_two_wire_bus.md) -/

/-- A completion waiting on the EC queue with its result area (R310). -/
structure EcCpl where
  cpl  : List Byte
  area : List Byte
  deriving DecidableEq, Repr

structure TwoWire where
  /-- EC entries accepted since AON power-on reset, modulo 65,536 (R310). -/
  accepted  : Nat := 0
  cpls      : List EcCpl := []
  /-- ALERT# was released by an Alert Response, and no pending bit has set since (R313). -/
  released  : Bool := false
  /-- A Host Notify is due; failed attempts made (R314, R315). -/
  notifyDue : Bool := false
  notifyTry : Nat := 0
  /-- Newest record of each event type that has arisen (R308). -/
  last      : List Event := []
  /-- A write transaction is still being applied (R303). -/
  applying  : Bool := false
  /-- Register pointer of the compatibility file (R316). -/
  ptr       : Nat := 0
  /-- SCL must be clocked before the next START as controller (R306). -/
  clockOut  : Bool := false
  /-- Assignment by the master (R301): started, and repeats made per follower. -/
  assigning : Bool := false
  tries     : Vector Nat 4 := Vector.replicate 4 0
  deriving DecidableEq, Repr

/-! ### Firmware, configuration store and fault log (17_firmware_security_log.md) -/

/-- A firmware bank: the verdict of R415 on its image, its security version and FW_VERSION. -/
structure Bank where
  valid   : Bool := false
  svn     : Nat := 0
  version : Nat := 0
  deriving DecidableEq, Repr

/-- A configuration slot (R421, R422). -/
structure CfgSlot where
  valid   : Bool := false
  records : List CfgRecord := []
  deriving DecidableEq, Repr

/-- The boot record (R416): active bank, active slot, TRIAL, and the sequence number of its newest copy. -/
structure BootRecord where
  bank  : Nat := 0
  slot  : Nat := 0
  trial : Bool := false
  seq   : Nat := 0
  deriving DecidableEq, Repr

/-- An entry of the fault log (R424) that is committed. -/
structure LogEntry where
  slot : Nat
  typ  : Nat
  kind : Nat
  lseq : Nat
  ts   : Nat
  boot : Nat
  data : List Byte
  deriving DecidableEq, Repr

/-- A control gap of an activation (R419): the bank it starts, whether it goes back to the old bank, the command that waits
for it, and the code of a failure. -/
structure Gap where
  bank    : Nat
  back    : Bool
  handle  : Option Nat
  diag    : Nat
  deriving DecidableEq, Repr

structure Firmware where
  bank0     : Bank := {}
  bank1     : Bank := {}
  slot0     : CfgSlot := {}
  slot1     : CfgSlot := {}
  record    : BootRecord := {}
  /-- Bytes staged in the inactive bank, while staging is valid (R418). -/
  staged    : Option Nat := none
  gap       : Option Gap := none
  /-- An FW_ACTIVATE or FW_ABORT that waits for the other commands (R419). -/
  actWait   : Option Nat := none
  /-- The boot ROM is in its recovery loop (R40, R416). -/
  recovery  : Bool := false
  /-- Rollback fuses blown (R417), and the debug fuse (R430). -/
  fuses     : Nat := 0
  /-- The advance of the rollback counter is to be retried at the next boot (R417). -/
  fuseRetry : Bool := false
  dbgFuse   : Bool := false
  /-- Chunk 0 of DBG_UNLOCK was received (R430). -/
  unlock0   : Bool := false
  /-- The fault log: valid entries by rising LSEQ, the queue of events to log, the records kept while no firmware
  runs (R425). -/
  log       : List LogEntry := []
  logQ      : List Event := []
  kept      : List Event := []
  /-- A retained counter has changed since its last mirror entry (R427). -/
  mirror    : Bool := false
  deriving DecidableEq, Repr



/-! ### Cascade (12_cascade.md) -/

/-- A tunnelled request in the queue (R331): the command that waits for it, the access, and frames since it was sent. -/
structure TunReq where
  handle  : Nat
  target  : Fin 4
  isWrite : Bool
  addr    : Nat
  value   : Word
  mask    : Word
  sent    : Option Nat
  deriving DecidableEq, Repr

/-- What a unit knows of another from its slots (R324, R326, R328, R332, R336): its latest report and flags, consecutive
silent, valid and clashing slots, CRC failures of its last 100 frames, UDID with the parts of it received, channel
summaries. -/
structure Peer where
  report : Option ReportPart := none
  flags  : FlagPart := {}
  silent : Nat := 0
  good   : Nat := 0
  clash  : Nat := 0
  crcs   : List Bool := []
  udid   : List Byte := List.replicate 16 0
  parts  : Nat := 0
  sums   : Vector (Nat × Nat × Nat) 16 := Vector.replicate 16 (0, 0, 0)
  deriving DecidableEq, Repr

/-- The cascade engine. `parts` are the candidates in mA that U0 sent for this follower's groups (R325). A parallel
pair (R330): the partner group sinks, the other unit's non-retired phases, IIN_EFF in mA, IN_p in mW and V_EXP in mV as the
owner sent them. -/
structure Cascade where
  parts    : Vector Int 2 := Vector.replicate 2 0
  parRun   : Bool := false
  parN     : Nat := 0
  parIin   : Nat := 0
  parInP   : Nat := 0
  parVexp  : Nat := 0
  /-- A PAR_CFG write that waits for the local group's bus to be empty (R330). -/
  parHeld  : Option Word := none
  peers    : Vector Peer 4 := Vector.replicate 4 {}
  /-- What U0 computed for each follower (R149, R324). -/
  grants   : Vector Grant 4 := Vector.replicate 4 {}
  /-- VSYS as U0 last reported it (R327). -/
  vsysRep  : Nat := 0
  /-- Indices heard in the discovery window (R322). -/
  heardWin : Nat := 0
  /-- Requests to other units, and the reply owed in the next slot (R331). -/
  queue    : List TunReq := []
  owed     : Option Tunnel := none
  /-- Intents that wait to be forwarded (R148). -/
  forward  : List IntentFwd := []
  /-- The long-press flag is due in the next slot (R334). -/
  pressDue : Bool := false
  /-- Frames with the sleep flag so far, and a refusal among them (R333). -/
  sleepN   : Option Nat := none
  refused  : Bool := false
  /-- Silence follows the sleep flag, or a wake within 1 ms (frames left of it): it does not count (R333). -/
  asleep   : Bool := false
  waking   : Nat := 0
  /-- The sync carrier's half-period to which the groups are locked, 0 for none (R329). -/
  syncHalf : Nat := 0
  /-- The unit stays alone, or in local fallback, until AON power-on reset (R328). -/
  barred   : Bool := false
  deriving DecidableEq, Repr

/-! ### Sequencer (15_aux_rails_and_sequencing.md) -/

/-- A power-up or power-down that runs, or an on request that is latched (R379 to R382): its direction, its rails as a mask,
the rail or group (0xFF and the group) that the request names, whether it is the platform's, and the commands that complete
with it. -/
structure SeqRun where
  up    : Bool
  rails : Nat
  rail  : Nat
  group : Nat
  plat  : Bool
  cmds  : List Nat
  deriving DecidableEq, Repr

/-- The sequencer: what runs, the latched on requests in their order, and the rails that wait for the parameters of R48 (R384). -/
structure Sequencer where
  runs     : List SeqRun := []
  latch    : List SeqRun := []
  defaults : Nat := 0
  deriving DecidableEq, Repr

/-! ### Kaleidoscope (10_capture_engine.md) -/

/-- A closed capture block before its write-out (R273): what its header carries, and its payload. `trig` is the trigger
frame with its source and index. -/
structure CapBlock where
  rate    : Nat
  flags   : Nat
  nframes : Nat
  bits    : Nat
  frameNo : Nat
  ts      : Nat
  trig    : Option (Nat × Nat × Nat)
  gap     : Nat
  level   : Nat
  payload : List Byte
  deriving DecidableEq, Repr

/-- A channel's filter state (R271): the four integrators and the four combs. -/
structure Cic where
  int  : Vector (BitVec 64) 4 := Vector.replicate 4 0
  comb : Vector (BitVec 64) 4 := Vector.replicate 4 0
  deriving DecidableEq, Repr

/-- A stream beside its ring's registers: the configuration of R282; the pressure level of the block being formed and of
the previous one (R275); retained pretrigger blocks and blocks due, oldest first (R277, R281); a trigger not yet in a closed block;
blocks of a one-shot left; FIRST still to be given; its next block finds no room (R276); blocks written since the last message
(R287); the LAST block has closed; the event kind of a stop (R284, R288); the head fetch of R267 runs; a message is due; the end
state and event kind that a written last block brings; filter states and input frames since arm (R271). -/
structure CapStream where
  conf    : Bool := false
  fmt     : Nat := 0
  dec     : Nat := 0
  mode    : Nat := 0
  chmask  : Nat := 0
  src     : Nat := 0
  idx     : Nat := 0
  pre     : Nat := 0
  len     : Nat := 0
  flush   : Nat := 1
  irq     : Nat := 1
  rate    : Nat := 0
  prev    : Option Nat := none
  kept    : List CapBlock := []
  due     : List CapBlock := []
  trig    : Option (Nat × Nat × Nat) := none
  left    : Nat := 0
  fresh   : Bool := true
  noRoom  : Bool := false
  irqN    : Nat := 0
  ended   : Bool := false
  stop    : Option Nat := none
  heading : Bool := false
  fire    : Bool := false
  fin     : Option (Nat × Nat) := none
  cic     : List Cic := []
  cicN    : Nat := 0
  deriving DecidableEq, Repr

/-- The capture engine: its streams, the bytes of the blocks being formed as last known, the slow rate in force and a change
of it that has not taken effect (R265), and the CAPTURE_STOP commands that wait, each with its rings (R284). -/
structure Capture where
  streams  : Vector CapStream 8 := Vector.replicate 8 {}
  forming  : Nat := 0
  slowRate : Nat := 1
  slowWait : Bool := false
  stops    : List (Nat × Nat) := []
  /-- Fast channels with a sample since the last read of MINMAX, and TS of each slow channel's latest sample and of the one
  last read (R292). -/
  seen     : Nat := 0
  slowTs   : Vector Nat 32 := Vector.replicate 32 0
  deriving DecidableEq, Repr

/-! ### Mailboxes (16_timers_mailboxes_locks.md) -/

/-- A reply that waits for room or for the acknowledge of the one before it (R403): tag, acknowledge status, words. -/
structure MbxReply where
  tag    : Nat
  status : Nat
  words  : List Word
  deriving DecidableEq, Repr

/-- The host queues, oldest word first; the tag of the reply that awaits its acknowledge; a message taken whose reply waits
(R402, R403). -/
structure Mailbox where
  h2u    : List Word := []
  u2h    : List Word := []
  ackTag : Nat := 0
  reply  : Option MbxReply := none
  deriving DecidableEq, Repr

/-! ### Jack (14_watchdog_and_continuity.md) -/

/-- Jack beside its registers: keys of the disable sequence written (R366); PERIOD, OPEN and TASK_EN of the running period
(R356); the first timed period starts at the next tick (R363); what a suspension interrupted (R365): 0 a timed period, 1 the
wait for it, 3 the wait for a return. -/
structure Jack where
  key    : Nat := 0
  period : Nat := 1000
  opens  : Nat := 500
  tasks  : Nat := 1
  due    : Bool := false
  susp   : Nat := 0
  deriving DecidableEq, Repr

/-! ### Timers (16_timers_mailboxes_locks.md) -/

/-- The latches of TS[63:32] by initiator (R391), the compare values in force (R392), and the debugger's halt of the
application core (R399). -/
structure Timers where
  latch  : Vector (Option Nat) 6 := Vector.replicate 6 none
  cmp    : Vector Nat 8 := Vector.replicate 8 0
  halted : Bool := false
  deriving DecidableEq, Repr

/-! ### Thermal (13_thermal.md) -/

/-- The sampling beside its registers: consecutive deviating samples per die sensor and per NTC (R343, R344), consecutive
samples beyond either end of an NTC's ratio (R341), samples since AON power-on reset up to four (R345), and NTCs above their
limit HI (R355). -/
structure Thermal where
  dieN    : Vector Nat 12 := Vector.replicate 12 0
  ntcN    : Vector Nat 8 := Vector.replicate 8 0
  openN   : Vector Nat 8 := Vector.replicate 8 0
  shortN  : Vector Nat 8 := Vector.replicate 8 0
  samples : Nat := 0
  high    : Nat := 0
  deriving DecidableEq, Repr

/-- The state of the unit. -/
structure State where
  power   : Power
  /-- TS (R11): [63:10] AON ticks, [9:0] the fraction. -/
  ts      : Nat
  /-- The register space: sorted (address, word) pairs; an unlisted address reads its reset word. -/
  regs    : List (Nat × Word)
  /-- Posted writes to AON-domain registers, oldest first (R22, R440). -/
  aonq    : List AonWrite
  /-- The crystal has failed since AON power-on reset (R20). -/
  xtalBad : Bool
  /-- Events raised since AON power-on reset, modulo 2^32 (R243). -/
  evSeq   : Nat
  /-- The model's own counter of free values drawn. -/
  free    : Nat
  /-- The model's own numbering of outstanding commands. -/
  nextH   : Nat
  /-- Outstanding commands, in fetch order (R246). -/
  cmds    : List Cmd
  /-- What the unit sent out, newest first (the model's own record). -/
  out     : List Emit
  stage   : Stage
  path    : Path
  chg     : Charger
  bgt     : Budget
  ports   : Vector Port 4
  md      : Modes
  hif     : HostIf
  twb     : TwoWire
  fw      : Firmware
  csc     : Cascade
  seq     : Sequencer
  cap     : Capture
  mbx     : Mailbox
  jk      : Jack
  tmr     : Timers
  thm     : Thermal
  pending : List Instr
  deriving DecidableEq, Repr

/-- The machine with AON power-on reset just asserted for the first time (R38): every register reads its reset value, nothing
is in progress, no command waits. -/
def State.reset : State :=
  { power := .por, ts := 0, regs := [], aonq := [], xtalBad := false, evSeq := 0, free := 0, nextH := 1, cmds := [], out := [],
    stage := {}, path := {}, chg := {}, bgt := {}, ports := Vector.replicate 4 {}, md := {}, hif := {}, twb := {}, fw := {},
    csc := {}, seq := {}, cap := {}, mbx := {}, jk := {}, tmr := {}, thm := {}, pending := [] }

end Sys2Proof.Machine
end

