-- ==== Sys2Proof/Machine/Ops.lean ====
section
/-! DEFINITION. The named operations over the state: register words and fields, time, free values, the output record,
and the views of registers that show state kept elsewhere. -/

namespace Sys2Proof.Machine

/-- What a meaning answers. -/
abbrev Res := Host.Outcome State Fault Refusal

/-! ### Registers -/

/-- The stored word at an address. -/
def State.word (s : State) (a : Nat) : Word := regRead s.regs a

/-- The word at an address, written whole by the unit. -/
def State.setWord (s : State) (a : Nat) (w : Word) : State := { s with regs := regWrite s.regs a w }

/-- A field's value. -/
def State.get (s : State) (f : Fld) : Nat := getBits (s.word f.addr) f.lo f.width

/-- A one-bit field is 1. -/
def State.on (s : State) (f : Fld) : Bool := s.get f = 1

/-- A signed field's value (R7, R10). -/
def State.geti (s : State) (f : Fld) : Int := toSigned f.width (s.get f)

/-- Sets a field, modulo its width. -/
def State.set (s : State) (f : Fld) (v : Nat) : State :=
  s.setWord f.addr (putBits (s.word f.addr) f.lo f.width v)

/-- Sets a one-bit field. -/
def State.setb (s : State) (f : Fld) (b : Bool) : State := s.set f (ofBool b)

/-- Sets a field to the nearest representable value (R8). -/
def State.setSat (s : State) (f : Fld) (v : Nat) : State := s.set f (satNat f.width v)

/-- Sets a signed field to the nearest representable value (R8). -/
def State.seti (s : State) (f : Fld) (v : Int) : State := s.set f (ofSignedSat f.width v)

/-- A saturating count (R25, R75, R188 and others). -/
def State.bump (s : State) (f : Fld) : State := s.setSat f (s.get f + 1)

/-- Bit `k` of a field. -/
def State.bit (s : State) (f : Fld) (k : Nat) : Bool := bitAt (s.get f) k

/-- Sets bit `k` of a field to `b`. -/
def State.setBit (s : State) (f : Fld) (k : Nat) (b : Bool) : State :=
  s.set f (if b then setBitAt (s.get f) k else clearBitAt (s.get f) k)

/-! ### Guards -/

/-- The unit acts only with the AON domain running and where the command's own condition holds; otherwise the event
cannot have arisen, and nothing changes (log entry 5). -/
def State.when (s : State) (c : Bool) (f : State → State) : State := if s.power = .on && c then f s else s

/-- Applies `f` where `c` holds. -/
def State.ifDo (s : State) (c : Bool) (f : State → State) : State := if c then f s else s

/-! ### Time -/

/-- TS as a register read or a timestamp shows it: the fraction reads 0 until the LPO FLL locks (R11, R19). -/
def State.tsNow (s : State) : Nat :=
  if s.on R.GLB_CLK_STATUS.FLL_LOCK then s.ts else s.ts / 1024 * 1024

/-- TS units in `us` microseconds (33.554432 MHz). -/
def tsUs (us : Nat) : Nat := us * 33554432 / 1000000

/-- TS units in seconds. -/
def tsSec (n : Nat) : Nat := n * 33554432

/-! ### Free values and output -/

/-- A free value of `w` bits, and the state that has drawn it. -/
def State.draw (s : State) : Word × State := (Config.freeWord s.free, { s with free := s.free + 1 })

/-- The link is in L0: every access of the host's memory and every access through BAR0 brings it there (R226). -/
def State.toL0 (s : State) : State :=
  { s.setb R.HIF_STATUS.L0 s.hif.linkUp with hif := { s.hif with l1 := false } }

/-- Something sent out goes over the PCIe link. -/
def overLink (e : Emit) : Bool :=
  match e with
  | .hostWrite _ _ => true
  | .hostRead _ _ => true
  | .msix _ => true
  | _ => false

/-- Records something sent out. -/
def State.emit (s : State) (e : Emit) : State :=
  let t := if overLink e then s.toL0 else s
  { t with out := e :: t.out }

/-! ### Firmware -/

/-- Firmware runs, outside a control gap (R12, R419). -/
def State.fwRuns (s : State) : Bool := s.get R.HIF_STATUS.FW = 1 && s.fw.gap.isNone

end Sys2Proof.Machine
end

