-- ==== Sys2Proof/Machine/Queries.lean ====
section
/-! DEFINITION. What the rules ask of the state: phases and groups, buses and ports, the BATFET, roles; and the view of
a register word, whose derived fields are computed from the state that the rules give them. -/

namespace Sys2Proof.Machine

/-! ### Phases and groups (R67, R70, R72, R78) -/

/-- Map code of a phase: 0 unassigned, 1 GROUP A, 2 GROUP B. -/
def State.mapOf (s : State) (ph : Nat) : Nat := s.get R.CNV_PHASE_MAP.MAP / 4 ^ ph % 4

/-- Phase retired. -/
def State.retired (s : State) (ph : Nat) : Bool := s.bit R.CNV_STATUS.RETIRED ph

/-- Phase switching. -/
def State.switching (s : State) (ph : Nat) : Bool := s.bit R.CNV_STATUS.SWITCHING ph

/-- Phase shed. -/
def State.shed (s : State) (ph : Nat) : Bool := s.bit R.CNV_STATUS.SHED ph

/-- Reinstatements used by a phase. -/
def State.reinst (s : State) (ph : Nat) : Nat := s.get R.CNV_PHASE_MAP.REINST_CNT / 4 ^ ph % 4

/-- The phases. -/
def allPhases : List (Fin 6) := [0, 1, 2, 3, 4, 5]

/-- The ports. -/
def allPorts : List (Fin 4) := [0, 1, 2, 3]

/-- The phases that the map gives a group. -/
def State.groupPhases (s : State) (g : Fin 2) : List (Fin 6) := allPhases.filter fun (ph : Fin 6) => s.mapOf ph = g + 1

/-- The phase counts as non-retired for the connection rules (R72): not retired, marked, or in its self-check. -/
def State.connects (s : State) (ph : Fin 6) : Bool :=
  let x := s.stage.phases.get ph
  !s.retired ph || x.marked || x.checking

/-- The group has a phase that counts for the connection rules (R78). -/
def State.groupUsable (s : State) (g : Fin 2) : Bool := (s.groupPhases g).any fun ph => s.connects ph

/-- Non-retired phases of a group, shed ones included (R66, R72). -/
def State.nonRetired (s : State) (g : Fin 2) : Nat :=
  ((s.groupPhases g).filter fun (ph : Fin 6) => !s.retired ph && !(s.stage.phases.get ph).checking).length

/-- Switching phases of a group (R56). -/
def State.nSwitch (s : State) (g : Fin 2) : Nat := ((s.groupPhases g).filter fun (ph : Fin 6) => s.switching ph).length

/-- The group's reference phase: the lowest-numbered one that switches (R55). -/
def State.refPhase (s : State) (g : Fin 2) : Option (Fin 6) := (s.groupPhases g).find? fun (ph : Fin 6) => s.switching ph

/-- A group's direction is source. -/
def State.isSource (s : State) (g : Fin 2) : Bool := s.on (R.CNV_GRP_CFG.DIR g)

/-! ### Buses and ports (R78, R80, R96) -/

/-- A port is connected to the bus. -/
def State.busConn (s : State) (b : Fin 2) : Bool :=
  if b = 0 then s.on R.MOD_MATRIX_STATUS.A_CONN else s.on R.MOD_MATRIX_STATUS.B_CONN

/-- The port that the bus shows, valid while one is connected. -/
def State.busPort (s : State) (b : Fin 2) : Fin 4 :=
  Fin.ofNat 4 (if b = 0 then s.get R.MOD_MATRIX_STATUS.A_PORT else s.get R.MOD_MATRIX_STATUS.B_PORT)

/-- The bus is under automatic selection. -/
def State.busAuto (s : State) (b : Fin 2) : Bool :=
  if b = 0 then s.on R.MOD_MATRIX_STATUS.A_AUTO else s.on R.MOD_MATRIX_STATUS.B_AUTO

/-- A pair from the port to the bus is fitted (R76). -/
def State.fitted (s : State) (p : Fin 4) (b : Fin 2) : Bool :=
  if b = 0 then s.bit R.MOD_MATRIX_CFG.FIT_A p else s.bit R.MOD_MATRIX_CFG.FIT_B p

/-- The port holds a sink contract. -/
def State.holdsSink (s : State) (p : Fin 4) : Bool := s.bit R.MOD_MATRIX_STATUS.SNK p

/-- The port is sourcing. -/
def State.sourcing (s : State) (p : Fin 4) : Bool := s.bit R.MOD_MATRIX_STATUS.SRC p

/-- The bus to which a sink port is connected. -/
def State.busOf (s : State) (p : Fin 4) : Option (Fin 2) :=
  if s.busConn 0 && s.busPort 0 = p then some 0
  else if s.busConn 1 && s.busPort 1 = p then some 1
  else none

/-- The bus is used by a port that sources, or starts to. -/
def State.busSources (s : State) (b : Fin 2) : Bool :=
  allPorts.any fun p => (s.path.ports.get p).srcBus = some b

/-- The bus is connected to a sink port. -/
def State.sinkConn (s : State) (b : Fin 2) : Bool := s.busConn b && !s.busSources b

/-- A sink port is connected through the input matrix (R27). -/
def State.anySink (s : State) : Bool := s.sinkConn 0 || s.sinkConn 1

/-- The port is the only connected sink input. -/
def State.onlySink (s : State) (p : Fin 4) : Bool :=
  (s.sinkConn 0 && s.busPort 0 = p && !s.sinkConn 1) || (s.sinkConn 1 && s.busPort 1 = p && !s.sinkConn 0)

/-- The bus stands empty: no port connected, no move running, not held, not used for sourcing (R79, R80, R99). -/
def State.busEmpty (s : State) (b : Fin 2) : Bool :=
  !s.busConn b && (s.path.buses.get b).move = .idle && (s.path.buses.get b).held.isNone && !s.busSources b

/-- The bus is free for sourcing (R96): empty, its group usable, and not held by the host for a sink port. -/
def State.busFree (s : State) (b : Fin 2) : Bool :=
  s.busEmpty b && s.groupUsable b && (s.busAuto b || (s.path.buses.get b).hostPort.isNone)

/-- The bus on which a port may source: free, and reached by a fitted pair. -/
def State.srcBusFor (s : State) (p : Fin 4) : Option (Fin 2) :=
  if s.busFree 0 && s.fitted p 0 then some 0
  else if s.busFree 1 && s.fitted p 1 then some 1
  else none

/-! ### Modes -/

/-- The mode's code (R50). -/
def State.mode (s : State) : Nat := s.get R.MOD_MODE_STATUS.MODE

/-- The unit is in SAFE. -/
def State.inSafe (s : State) : Bool := s.mode = 5

/-- A powered mode (R26). -/
def State.powered (s : State) : Bool := s.mode ≥ 2

/-- Any port is attached in any role. -/
def State.anyAttached (s : State) : Bool := allPorts.any fun p => s.on (R.PD_CC_STATUS.ATTACHED p)

/-- Strapped cell count, one cell in place of an invalid CELL (R45, R46). -/
def State.strapCells (s : State) : Nat :=
  let c := s.get R.MOD_STRAP.CELL
  if c ≤ 4 then c + 1 else 1

/-- The pack is present (R105). -/
def State.packPresent (s : State) : Bool := s.on R.CHG_PACK_STATUS.PRESENT

/-- BATFET state codes (R87, R101). -/
def batOff : Nat := 0
def batLinear : Nat := 1
def batSwitch : Nat := 2
def batIdeal : Nat := 3

/-- The BATFET's state. -/
def State.bat (s : State) : Nat := s.get R.MOD_BATFET_STATUS.STATE

/-- CELLS of the profile in force: byte 8 of the read-back (R107, R134). -/
def State.cells (s : State) : Nat := s.get (R.CHG_PROFILE.W 2) % 256

/-- A 16-bit field of the profile in force at byte offset `k` (R107). -/
def State.prof16 (s : State) (k : Nat) : Nat := s.get (R.CHG_PROFILE.W (k / 4)) / 2 ^ (8 * (k % 4)) % 65536

/-- A byte of the profile in force. -/
def State.prof8 (s : State) (k : Nat) : Nat := s.get (R.CHG_PROFILE.W (k / 4)) / 2 ^ (8 * (k % 4)) % 256

/-- P_BAT in mW from VBAT in mV (R137). IDSG fields are 2 mA per LSB. -/
def State.pBat (s : State) (vbat : Nat) : Nat :=
  let cells := max 1 s.cells
  if s.bat = batOff || s.bat = batLinear || !s.packPresent || vbat < s.get R.MOD_LOWPWR_CFG.VCUT * 2 * cells then 0
  else
    let i := if s.bgt.credit > 0 then s.get R.BGT_PACK_CFG.IDSG_PEAK else s.get R.BGT_PACK_CFG.IDSG_CONT
    vbat * (i * 2) / 1000

/-- P_BAT from the last measured VBAT. -/
def State.pBatNow (s : State) : Nat := s.pBat (s.get R.MOD_BAT_MEAS.VBAT)

/-! ### Roles (R164, R194, R208) -/

/-- The port is wet. -/
def State.wet (s : State) (p : Fin 4) : Bool := s.on (R.PD_MOIST_STATUS.WET p)

/-- The source role is available (R164). -/
def State.srcAvail (s : State) (p : Fin 4) : Bool :=
  s.get (R.PD_TC_CFG.ROLE p) != 0 && !s.md.standAlone && !s.inSafe && !s.wet p && (s.srcBusFor p).isSome

/-- The port's VBUS is the only supply of VSYS (R194). -/
def State.supplyOnly (s : State) (p : Fin 4) : Bool := s.onlySink p && s.pBatNow = 0

/-- Current of an FRS_CUR code in mA (R98, R208). -/
def frsMa (code : Nat) : Nat := if code = 1 then 900 else if code = 2 then 1500 else if code = 3 then 3000 else 0

/-- Source power in force over the unit's ports, in mW. -/
def State.srcPower (s : State) : Nat := allPorts.foldl (fun acc p => acc + s.get (R.BGT_STR_SRC.P p)) 0

/-- A swap or Hard Reset is in progress on the port. -/
def State.swapping (s : State) (p : Fin 4) : Bool :=
  let st := s.get (R.PD_PE_STATUS.PE_STATE p)
  (0x20 ≤ st && st ≤ 0x25) || st = 0x07 || st = 0x15 || (s.ports.get p).pe.swapStage != 0

/-- Fast Role Swap is armed: detection as sink (R208), or sending as source (R209). -/
def State.frsArmed (s : State) (p : Fin 4) : Bool :=
  s.on (R.PD_PE_CFG.FRS_EN p) && s.on (R.PD_PE_STATUS.EXPLICIT p) && !s.inSafe && !s.md.standAlone && !s.swapping p &&
    if s.sourcing p then s.get (R.PD_PARTNER_SNK_PDO.W p 0) / 2 ^ 23 % 4 != 0
    else
      s.get (R.PD_PE_CFG.FRS_CUR p) != 0 && s.get (R.PD_TC_CFG.ROLE p) = 2 &&
        (match s.busOf p with | some b => s.groupUsable b | none => false) && s.pBatNow > 0 &&
        5 * frsMa (s.get (R.PD_PE_CFG.FRS_CUR p)) ≤ s.get R.MOD_SRC_PMAX_PORT.PMAX &&
        5 * frsMa (s.get (R.PD_PE_CFG.FRS_CUR p)) + s.srcPower ≤ s.get R.MOD_SRC_PMAX_UNIT.PMAX

/-! ### The charge voltage (R104, R113) -/

/-- Taps are in use (R104). -/
def State.tapsUsed (s : State) : Bool := s.on R.CHG_STATUS.TAPS && !s.on R.CHG_COV_CFG.TAPS_OFF

/-- The charge voltage per cell of the present zone in mV, VCHG_NORMAL in the zones that do not charge (R113). -/
def State.zoneVolt (s : State) : Nat :=
  let z := s.get R.CHG_STATUS.ZONE
  if z = 1 then s.prof16 0x0C else if z = 3 then s.prof16 0x10 else s.prof16 0x0E

/-- VCHG_PACK in mV (R113, R317). -/
def State.vchgPack (s : State) : Nat :=
  let v := s.cells * s.zoneVolt
  let c := s.get R.TWB_COMPAT_VCHG.VCHG
  if c = 0 then v else min v c

/-! ### Input limits and VSYS target (R82, R84, R88) -/

/-- The expected voltage of a port (R82): 5.0 V before a contract, the contract voltage, or the lower of old and new
during a transition. -/
def State.vExp (s : State) (p : Fin 4) : Nat :=
  match (s.path.ports.get p).trans with
  | some (v, w) => min v w
  | none => if s.on (R.PD_PE_STATUS.EXPLICIT p) then s.get (R.PD_PE_CONTRACT.VOLTAGE p) else 5000

/-- The highest voltage that the port's contract permits now (R82). -/
def State.vTop (s : State) (p : Fin 4) : Nat :=
  match (s.path.ports.get p).trans with
  | some (v, w) => max v w
  | none => if s.on (R.PD_PE_STATUS.EXPLICIT p) then s.get (R.PD_PE_CONTRACT.VOLTAGE p) else 5000

/-- The drop threshold of a bus for a port, in mV (R82). -/
def State.dropTh (s : State) (b : Fin 2) (p : Fin 4) : Nat :=
  max 3600 (s.get (R.MOD_IN_CFG.DROP_PCT b) * s.vExp p / 100)

/-- The over-voltage threshold for a port, in mV: 115 % of the highest voltage permitted (R82). -/
def State.ovpTh (s : State) (p : Fin 4) : Nat := s.vTop p * 115 / 100

/-- Current in mA of the Rp level that the partner shows (R84): PARTNER codes 1 to 3. -/
def State.partnerMa (s : State) (p : Fin 4) : Nat :=
  let c := s.get (R.PD_CC_STATUS.PARTNER p)
  if c = 3 then 3000 else if c = 2 then 1500
  else if c = 7 then (if (s.ports.get p).tc.accLvl = 2 then 3000 else if (s.ports.get p).tc.accLvl = 1 then 1500 else 900)
  else 900

/-- Current rating of a discovered cable in mA (R84, R184). -/
def State.cableMa (s : State) (p : Fin 4) : Nat := if s.get (R.PD_CABLE.IMAX p) = 2 then 5000 else 3000

/-- The magnitude of a port's contract current in mA (R10, R223). -/
def State.contractMa (s : State) (p : Fin 4) : Nat := (s.geti (R.PD_PE_CONTRACT.CURRENT p)).natAbs * 2

/-- IIN_EFF of a bus for a sink port, in mA (R84). -/
def State.iinFor (s : State) (b : Fin 2) (p : Fin 4) : Nat :=
  let i := min (s.get (R.MOD_IN_CFG.IIN_MAX b) * 2)
    (if s.on (R.PD_PE_STATUS.EXPLICIT p) then s.contractMa p else
      if s.wet p then 500 else s.partnerMa p)
  if s.on (R.PD_CABLE.VALID p) then min i (s.cableMa p) else i

/-- IIN_EFF of a bus in mA, 0 while no sink port is connected to it (R84). -/
def State.iinEff (s : State) (b : Fin 2) : Nat := if s.sinkConn b then s.iinFor b (s.busPort b) else 0

/-- The port for which a bus settles, its group drawing from the bus capacitance with the pair open (R79, step 3). -/
def State.settlePort (s : State) (b : Fin 2) : Option (Fin 4) :=
  match (s.path.buses.get b).move with
  | .settle p => some p
  | _ => none

/-- VSYS target in force, 0 while no group sinks (R88, R106); in local fallback it is the VSYS that U0 last reported, held
within VSYS_MIN to VSYS_NOBAT (R327). -/
def State.vsysTarget (s : State) : Nat :=
  if !s.anySink && (s.settlePort 0).isNone && (s.settlePort 1).isNone then 0
  else if s.get R.BGT_STATUS.SOURCE = 2 then
    min (s.get R.MOD_VSYS_CFG.VSYS_NOBAT) (max (s.get R.MOD_VSYS_CFG.VSYS_MIN) s.csc.vsysRep)
  else if s.bat = batSwitch then s.vchgPack + 300
  else if s.bat = batLinear then s.get R.MOD_VSYS_CFG.VSYS_MIN
  else if s.bat = batIdeal then
    max (s.get R.MOD_VSYS_CFG.VSYS_MIN) (s.get R.MOD_BAT_MEAS.VBAT + s.get R.MOD_BATFET_CFG.ID_OFS)
  else if s.chg.inserting then s.get R.MOD_BAT_MEAS.VBAT
  else s.get R.MOD_VSYS_CFG.VSYS_NOBAT

/-! ### Clocks and AUX bucks (R18, R26, R375, R376) -/

/-- The clock domains that run. CNV and PWM run while the converter serves a sink or a source, ADC with the power stage
enabled or a fast capture stream armed or running, PIPE while the link is up and not in L1; the other bits are kept. -/
def State.runMask (s : State) : Nat :=
  let r := s.get R.GLB_CLK_STATUS.RUN
  let base := r / 512 * 512 + r / 256 % 2 * 256 + r % 16
  let live : Bool := s.on R.CNV_STATUS.STAGE_EN && s.powered
  let cnv : Bool := live && (s.get R.CNV_STATUS.SWITCHING != 0 || s.anySink || s.busSources 0 || s.busSources 1)
  let fast : Bool := (List.range 8).any fun (c : Nat) =>
    (s.get (R.CAP_RING_STATE.STATE c) = 2 || s.get (R.CAP_RING_STATE.STATE c) = 3) && s.get (R.CAP_RING_STATE.FORMAT c) != 4
  base + (if cnv then 48 else 0) + (if live || fast then 64 else 0) + (if s.hif.linkUp && !s.hif.l1 then 128 else 0)

/-- Set voltage of an AUX buck in mV (R375). -/
def State.auxSet (s : State) (n : Nat) : Nat :=
  if n = 0 then 5000 else if n = 1 then 3300 else if n = 2 then 1800 else s.get R.SEQ_AUX3_CFG.VOUT

/-- The enabled bucks that run at 100 % duty: VSYS below the set voltage plus 0.3 V (R376). -/
def State.dropout (s : State) : Nat :=
  (List.range 4).foldl (fun acc n =>
    if s.bit R.SEQ_STATUS.ENABLED n && s.get R.MOD_VSYS_STATUS.VSYS < s.auxSet n + 300 then acc + 2 ^ n else acc) 0

/-! ### Capture channels (R264, R292) -/

/-- The sense resistance of a current channel in 10 µΩ (R264). -/
def State.sense (s : State) (ch : Nat) : Nat :=
  if ch ≤ 5 then s.get (R.PH_HW.SNS ch)
  else if ch = 7 then s.get (R.MOD_IN_HW.RSNS_IN 0)
  else if ch = 9 then s.get (R.MOD_IN_HW.RSNS_IN 1)
  else if ch = 11 then s.get R.MOD_SYS_MEAS.RSNS_SYS
  else s.get R.MOD_BATFET_CFG.RSNS_BAT

/-- SCALE of a fast channel (R292): nV per code, or nA per code from the sense resistance in force, to the nearest. -/
def State.fchScale (s : State) (ch : Nat) : Nat :=
  if ch = 6 || ch = 8 then 4000000
  else if ch = 10 || ch = 12 || ch = 14 then 2000000
  else if ch = 15 then 125000
  else (610350000 + s.sense ch / 2) / max 1 (s.sense ch)

/-- Slots of the EC queue in use (R310): entries that will complete, and completions not yet popped. -/
def State.ecUsed (s : State) : Nat := (s.cmds.filter fun (c : Cmd) => c.src = .ec && !c.noCpl).length + s.twb.cpls.length

/-! ### The view of a register word -/

/-- A field of a word replaced. -/
def withFld (w : Word) (f : Fld) (v : Nat) : Word := putBits w f.lo f.width v

/-- The entry's index of an array register, when the address lies at its offset. -/
def arrayIdx (base stride count a : Nat) : Option Nat :=
  if base ≤ a && (a - base) % stride = 0 && (a - base) / stride < count then some ((a - base) / stride) else none

/-- A register word as a read shows it, without the read's side effects. Fields that the tables define by other state
are computed from it (R75, R82, R84, R88, R113, R133, R164, R194, R208, R209, R263, R308, R319, R355, R376, R18, R409, R412). -/
def State.view (s : State) (a : Nat) : Word :=
  let w := s.word a
  match arrayIdx 0x6010 0x40 6 a with
  | some n =>
    let w := withFld w (R.PH_STATUS.GROUP n) (s.mapOf n)
    let w := withFld w (R.PH_STATUS.RETIRED n) (ofBool (s.retired n))
    let w := withFld w (R.PH_STATUS.SHED n) (ofBool (s.shed n))
    withFld w (R.PH_STATUS.SWITCHING n) (ofBool (s.switching n))
  | none =>
  match arrayIdx 0x6014 0x40 6 a with
  | some n => withFld w (R.PH_FAULT.REINST n) (s.reinst n)
  | none =>
  match arrayIdx 0x081C 0x20 2 a with
  | some n => withFld w (R.CNV_GRP_STATUS.N_SW n) (s.nSwitch (Fin.ofNat 2 n))
  | none =>
  match arrayIdx 0x1808 0x200 4 a with
  | some n =>
    let w := withFld w (R.PD_CC_STATUS.SRC_AVAIL n) (ofBool (s.srcAvail (Fin.ofNat 4 n)))
    withFld w (R.PD_CC_STATUS.VBUS_OK n) (ofBool (4000 ≤ s.get (R.PD_VBUS_MEAS.VBUS n)))
  | none =>
  match arrayIdx 0x1850 0x200 4 a with
  | some n =>
    let w := withFld w (R.PD_PE_STATUS.FRS_ARMED n) (ofBool (s.frsArmed (Fin.ofNat 4 n)))
    let w := withFld w (R.PD_PE_STATUS.SUPPLY_ONLY n) (ofBool (s.supplyOnly (Fin.ofNat 4 n)))
    withFld w (R.PD_PE_STATUS.HOST_REQ n) (ofBool (s.ports.get (Fin.ofNat 4 n)).pe.hold.isSome)
  | none =>
  match arrayIdx 0x3084 8 8 a with
  | some n => withFld w (R.THM_NTC_TEMP.SUSPECT n) (ofBool (s.bit R.THM_SUSPECT.NTC n))
  | none =>
  match arrayIdx 0x0444 0x10 2 a with
  | some n => withFld w (R.MOD_IN_HW.IIN_EFF n) (s.iinEff (Fin.ofNat 2 n) / 2)
  | none =>
  match arrayIdx 0x044C 0x10 2 a with
  | some n =>
    let b := Fin.ofNat 2 n
    withFld w (R.MOD_IN_STATE.V_EXP n) (if s.sinkConn b then s.vExp (s.busPort b) else 0)
  | none =>
  match arrayIdx 0x7000 0x20 16 a with
  | some n => BitVec.ofNat 32 (s.fchScale n)
  | none =>
  if a = A.CHG_VOLTAGE then withFld w R.CHG_VOLTAGE.VCHG_PACK s.vchgPack
  else if a = A.CHG_FAULT then
    withFld w R.CHG_FAULT.COV_TRIPS (s.chg.trips.filter fun (t : Nat) => s.ts < t + tsSec 86400).length
  else if a = A.CHG_COV_STATUS then withFld w R.CHG_COV_STATUS.PACK_LVL (ofBool (!s.tapsUsed))
  else if a = A.MOD_VSYS_STATUS then withFld w R.MOD_VSYS_STATUS.TARGET s.vsysTarget
  else if a = A.MOD_BATFET_STATUS then
    withFld w R.MOD_BATFET_STATUS.SUPPLEMENT (ofBool (s.anySink && s.geti R.MOD_BAT_MEAS.IBAT < 0))
  else if a = A.BGT_STATUS then withFld w R.BGT_STATUS.INTENTS s.bgt.intents.length
  else if a = A.TWB_STATUS then
    let w := withFld w R.TWB_STATUS.Q_FREE (4 - s.ecUsed)
    let w := withFld w R.TWB_STATUS.CPL_PEND s.twb.cpls.length
    withFld w R.TWB_STATUS.GATED (ofBool (s.get R.HIF_STATUS.FW != 1))
  else if a = A.TMR_FT_RUN then
    BitVec.ofNat 32 ((List.range 16).foldl (fun acc n => if s.on (R.TMR_FT_CFG.EN n) then acc + 2 ^ n else acc) 0)
  else if a = A.MBX_LOCK_STATE then
    BitVec.ofNat 32 ((List.range 16).foldl (fun acc n => if s.on (R.MBX_LOCK.HELD n) then acc + 2 ^ n else acc) 0)
  else if a = A.GLB_CLK_STATUS then withFld w R.GLB_CLK_STATUS.RUN s.runMask
  else if a = A.SEQ_AUX_STATUS then withFld w R.SEQ_AUX_STATUS.DROPOUT s.dropout
  else if a = A.TMR_TS_LO then BitVec.ofNat 32 s.tsNow
  else w

end Sys2Proof.Machine
end

