-- ==== Sys2Proof/Machine/Flags.lean ====
section
/-! DEFINITION. The flags that many commands share: pending bits and ALERT#, interrupt messages, event records and
their way to the event ring, LAST_EVENT and the fault log, SYS_THROT#. -/

namespace Sys2Proof.Machine

/-! ### Interrupts (R227, R228) -/

/-- DMA may run: data link up, Bus Master Enable set, function in D0 (R260). -/
def State.canDma (s : State) : Bool := s.hif.linkUp && s.on R.HIF_STATUS.BME && !s.hif.d3

/-- Sends a vector's message, or sets its pending bit while it is masked. -/
def State.fire (s : State) (vec : Nat) : State :=
  if s.on (R.HIF_MSIX_CTRL.MASK vec) || !s.canDma then s.setBit (R.HIF_MSIX_PBA.PEND (vec / 32)) (vec % 32) true
  else s.emit (.msix vec)

/-- One more entry on the event ring: fires by ICOUNT, or at once with ITIME 0 (R228). -/
def State.countEv (s : State) : State :=
  if s.get R.HIF_EVQ_CFG.ITIME = 0 || s.get R.HIF_EVQ_CFG.ICOUNT ≤ s.hif.evCount + 1 then
    ({ s with hif := { s.hif with evCount := 0 } }).fire (s.get R.HIF_EVQ_CFG.VEC)
  else { s with hif := { s.hif with evCount := s.hif.evCount + 1 } }

/-- One more entry on completion ring `q` (R228). -/
def State.countCq (s : State) (q : Fin 8) : State :=
  if s.get (R.HIF_CQ_CFG.ITIME q) = 0 || s.get (R.HIF_CQ_CFG.ICOUNT q) ≤ s.hif.cqCount.get q + 1 then
    ({ s with hif := { s.hif with cqCount := s.hif.cqCount.set q 0 } }).fire (s.get (R.HIF_CQ_CFG.VEC q))
  else { s with hif := { s.hif with cqCount := s.hif.cqCount.set q (s.hif.cqCount.get q + 1) } }

/-! ### Ring-engine errors (R259) -/

/-- Records the first error while VALID is clear. -/
def State.errInfo (s : State) (cause kind ring value : Nat) : State :=
  if s.on R.HIF_ERR_INFO.VALID then s
  else (((((s.set R.HIF_ERR_INFO.VALID 1).set R.HIF_ERR_INFO.CAUSE cause).set R.HIF_ERR_INFO.KIND kind).set
    R.HIF_ERR_INFO.RING ring).set R.HIF_ERR_INFO.VALUE value)

/-! ### Pending bits and ALERT# (R312 to R314) -/

/-- ALERT# is driven while a pending bit is set, but not in Host Notify only mode and not after an Alert Response
that this unit won. -/
def State.refreshAlert (s : State) : State :=
  s.setb R.TWB_STATUS.ALERT
    (s.get R.TWB_STATUS.PENDING != 0 && !s.twb.released && s.get R.TWB_CFG.NOTIFY_MODE != 2)

/-- Sets a pending bit. A bit that was clear makes ALERT# active again and a Host Notify due. -/
def State.setPending (s : State) (n : Nat) : State :=
  if s.bit R.TWB_STATUS.PENDING n then s
  else
    let s := s.setBit R.TWB_STATUS.PENDING n true
    let s := { s with twb := { s.twb with released := false,
                                          notifyDue := s.get R.TWB_CFG.NOTIFY_MODE != 0 || s.twb.notifyDue,
                                          notifyTry := 0 } }
    s.refreshAlert

/-- Clears pending bits. -/
def State.clearPending (s : State) (mask : Nat) : State :=
  (s.set R.TWB_STATUS.PENDING (s.get R.TWB_STATUS.PENDING &&& (0xFFFF - mask % 0x10000))).refreshAlert

/-! ### Event records (R236, R243, R312, R425) -/

/-- An event record's 64 bytes on the ring (R243). -/
def eventBytes (e : Event) (phase lost : Bool) : List Byte :=
  leBytes 1 e.typ ++ leBytes 1 ((if phase then 0x80 else 0) + (if lost then 0x40 else 0)) ++
    leBytes 2 e.payload.length ++ leBytes 4 e.seq ++ leBytes 8 e.ts ++ sliceBytes e.payload 0 48

/-- The event ring has space for one record (R233). -/
def State.evSpace (s : State) : Bool :=
  let size := 2 ^ s.get R.HIF_EVQ_CFG.SIZE
  (s.get R.HIF_EVQ_STATUS.TAIL + 1) % size != s.hif.evHead

/-- Writes one record to the event ring and advances the tail and the phase (R233). -/
def State.writeEvent (s : State) (e : Event) : State :=
  let tail := s.get R.HIF_EVQ_STATUS.TAIL
  let base := s.get R.HIF_EVQ_BASE_LO.ADDR * 4096 + s.get R.HIF_EVQ_BASE_HI.ADDR * 2 ^ 32
  let phase := s.on R.HIF_EVQ_STATUS.PHASE
  let s := s.emit (.hostWrite (base + 64 * tail) (eventBytes e phase s.hif.evLost))
  let s := { s with hif := { s.hif with evLost := false } }
  let next := (tail + 1) % 2 ^ s.get R.HIF_EVQ_CFG.SIZE
  let s := s.set R.HIF_EVQ_STATUS.TAIL next
  let s := s.setb R.HIF_EVQ_STATUS.PHASE (if next = 0 then !phase else phase)
  s.countEv

/-- Counts a record as lost (R236). -/
def State.loseEvent (s : State) : State :=
  { s.bump R.HIF_EVQ_STATUS.LOST with hif := { s.hif with evLost := true } }

/-- Gives a record to the event ring: written, held while the ring is full or DMA is off, or lost (R236). -/
def State.postEvent (s : State) (e : Event) : State :=
  if !s.on R.HIF_EVQ_CFG.EN || !s.bit R.HIF_EVQ_MASK.MASK (e.typ - 1) then s
  else if s.hif.evqBad then s.loseEvent
  else if s.hif.evHeld.isEmpty && s.canDma && s.evSpace then s.writeEvent e
  else if s.hif.evHeld.length < 16 then { s with hif := { s.hif with evHeld := s.hif.evHeld ++ [e] } }
  else s.loseEvent

/-- Writes held records in order while there is space (R236); `n` bounds the number. -/
def State.flushEvents (s : State) : Nat → State
  | 0 => s
  | n + 1 =>
    match s.hif.evHeld with
    | [] => s
    | e :: rest =>
      if s.canDma && s.evSpace && s.on R.HIF_EVQ_CFG.EN then
        (({ s with hif := { s.hif with evHeld := rest } }).writeEvent e).flushEvents n
      else s

/-- Keeps the newest record of the type and sets the type's pending bit (R312). -/
def State.noteEvent (s : State) (e : Event) : State :=
  let s := { s with twb := { s.twb with last := e :: s.twb.last.filter (fun x => x.typ != e.typ) } }
  if s.bit R.TWB_ALERT_MASK.TYPES (e.typ - 1) then s.setPending e.typ else s

/-- Queues a record for the fault log; without firmware the newest 16 are kept (R425). The flag tells whether it was
dropped. -/
def State.logEvent (s : State) (e : Event) : State × Bool :=
  if !s.bit R.LOG_CFG.TYPES (e.typ - 1) then (s, false)
  else if !s.fwRuns then ({ s with fw := { s.fw with kept := (s.fw.kept ++ [e]).drop (s.fw.kept.length + 1 - 16) } }, false)
  else if s.fw.logQ.length < 32 then ({ s with fw := { s.fw with logQ := s.fw.logQ ++ [e] } }, false)
  else (s.bump R.LOG_STATUS.DROPPED, true)

/-- The next event record of a type (R243): its SEQ and TS. -/
def State.mkEvent (s : State) (typ : Nat) (payload : List Byte) : Event :=
  { typ := typ, seq := (s.evSeq + 1) % 2 ^ 32, ts := s.tsNow, payload := payload }

/-- Raises an event without logging it. -/
def State.raiseOnly (s : State) (typ : Nat) (payload : List Byte) : State :=
  let e := s.mkEvent typ payload
  (({ s with evSeq := e.seq }).noteEvent e).postEvent e

/-- The payload of a FAULT event (R245): area, cause, index, auxiliary and the area's words. -/
def State.faultPayload (s : State) (area cause idx aux : Nat) : List Byte :=
  let wd (a : Nat) : List Byte := leBytes 4 (s.view a).toNat
  leBytes 1 area ++ leBytes 1 cause ++ leBytes 1 idx ++ leBytes 1 aux ++
    match area with
    | 0x01 => wd A.CNV_STATUS ++ wd (A.PH_FAULT idx)
    | 0x02 => wd A.CNV_STATUS
    | 0x03 => wd A.MOD_MATRIX_STATUS ++ wd (A.MOD_IN_STATE (aux - 1)) ++ wd A.MOD_PP_EVENT
    | 0x04 => wd A.MOD_MODE_STATUS
    | 0x05 => wd A.GLB_CLK_STATUS ++ wd A.GLB_CLK_EVENT
    | 0x06 => wd A.MOD_STRAP
    | 0x07 => wd (A.PD_VCONN idx)
    | 0x08 => wd A.HIF_ERR ++ wd A.HIF_ERR_INFO
    | 0x09 => wd A.TWB_EVENT ++ wd A.TWB_ADDR
    | 0x0A => wd A.CSC_STATUS ++ wd A.CSC_EVENT
    | 0x0B => wd A.SEC_FW_STATUS ++ wd A.LOG_STATUS
    | _ => []

/-- Raises an event (R243): SEQ, LAST_EVENT and pending bit, fault log, event ring. An entry that the log drops raises
a FAULT event of area 0x0B, cause 0x8 (R425, R431). -/
def State.raise (s : State) (typ : Nat) (payload : List Byte) : State :=
  let e := s.mkEvent typ payload
  let r := (({ s with evSeq := e.seq }).noteEvent e).logEvent e
  let s := r.1.postEvent e
  if r.2 then s.raiseOnly 0x07 (s.faultPayload 0x0B 0x8 0xFF 0) else s

/-- Raises a FAULT event (R245). -/
def State.raiseFault (s : State) (area cause idx aux : Nat) : State := s.raise 0x07 (s.faultPayload area cause idx aux)

/-- Raises a MODE_CHANGE event (R244). The first one since boot reports POR_CAUSE (R29). -/
def State.raiseMode (s : State) (prev new cause : Nat) : State :=
  let cause' := if s.md.firstEvt then 0x07 else cause
  let por := if s.md.firstEvt then s.get R.MOD_MODE_STATUS.POR_CAUSE else 0
  let s := { s with md := { s.md with firstEvt := false } }
  let s := s.raise 0x01 (leBytes 1 prev ++ leBytes 1 new ++ leBytes 1 cause' ++ leBytes 1 por ++
    leBytes 4 (s.view A.MOD_MODE_STATUS).toNat)
  if cause = 0x05 then s.setPending 0 else s

/-- Raises a BUDGET event (R244). -/
def State.raiseBudget (s : State) (kind idx : Nat) : State :=
  s.raise 0x02 (leBytes 1 kind ++ leBytes 1 (s.get R.BGT_STATUS.RELIEF) ++ leBytes 1 idx ++ leBytes 1 0 ++
    leBytes 4 s.bgt.supply ++ leBytes 4 s.bgt.demand ++ leBytes 4 s.bgt.short)

/-- Raises a CHARGE event (R244). -/
def State.raiseCharge (s : State) (kind prev : Nat) : State :=
  s.raise 0x03 (leBytes 1 (s.get R.CHG_STATUS.PHASE) ++ leBytes 1 prev ++ leBytes 1 (s.get R.CHG_STATUS.FAULT) ++
    leBytes 1 kind ++ leBytes 4 (s.view A.CHG_STATUS).toNat ++ leBytes 4 (s.view A.CHG_FAULT).toNat ++
    leBytes 4 (s.view A.CHG_COV_STATUS).toNat ++ leBytes 4 (s.view A.CHG_EST_STATUS).toNat)

/-- Raises a PD_STATE event (R244). -/
def State.raisePd (s : State) (p : Fin 4) (kind new prev : Nat) : State :=
  s.raise 0x05 (leBytes 1 p ++ leBytes 1 kind ++ leBytes 1 new ++ leBytes 1 prev ++
    leBytes 4 (s.view (A.PD_CC_STATUS p)).toNat ++ leBytes 4 (s.view (A.PD_PE_STATUS p)).toNat ++
    leBytes 4 (s.view (A.PD_PE_CONTRACT p)).toNat ++ leBytes 4 (s.view (A.PD_PE_CONTRACT_PWR p)).toNat)

/-- Raises a MOISTURE event (R244). -/
def State.raiseMoist (s : State) (p : Fin 4) (kind : Nat) : State :=
  s.raise 0x0C (leBytes 1 p ++ leBytes 1 kind ++ leBytes 1 (s.get (R.PD_MOIST_STATUS.WET_PINS p)) ++
    leBytes 1 (s.get (R.PD_MOIST_STATUS.CORRODED p)) ++ leBytes 4 (s.view (A.PD_MOIST_Z p)).toNat)

/-- Raises a CASCADE event (R336). -/
def State.raiseCascade (s : State) (unit kind : Nat) : State :=
  s.raise 0x0B (leBytes 1 unit ++ leBytes 1 kind ++ leBytes 1 (s.get R.CSC_STATUS.HEARD) ++
    leBytes 1 (s.get R.BGT_STATUS.MEMBERS) ++ leBytes 4 (s.view A.CSC_STATUS).toNat)

/-- Raises an FW event (R431). -/
def State.raiseFw (s : State) (kind bank svn : Nat) : State :=
  s.raise 0x0D (leBytes 1 bank ++ leBytes 1 kind ++ leBytes 1 svn ++ leBytes 1 (s.get R.SEC_RB.CNT) ++
    leBytes 4 (s.view A.SEC_FW_STATUS).toNat)

/-- Sets a ring-engine error bit, raises the FAULT event and the error interrupt (R228, R259). -/
def State.ringError (s : State) (f : Fld) (bit cause kind ring value : Nat) : State :=
  let s := (s.setBit f bit true).errInfo cause kind ring value
  (s.raiseFault 0x08 cause ring kind).fire (s.get R.HIF_VEC_CFG.ERR_VEC)

/-! ### SYS_THROT# (R36, R146) -/

/-- The unit asserts SYS_THROT#: throughout SAFE, or by the budget. -/
def State.throt (s : State) : Bool := s.get R.MOD_MODE_STATUS.MODE = 5 || s.on R.BGT_STATUS.THROT

end Sys2Proof.Machine
end

