-- ==== Sys2Proof/Machine/Operands.lean ====
section
/-! DEFINITION. The operand forms: submission entries (R237), the opcode table (R256), and the format checks that come
before every check on the state (R238). -/

namespace Sys2Proof.Machine

/-- What a command's parameter table fixes (R238): the bytes it uses (offset, count), bits that must be 0 (offset,
mask), enumerated bytes (offset, defined codes). -/
structure ParamFmt where
  used  : List (Nat × Nat)
  zero  : List (Nat × Nat) := []
  enums : List (Nat × List Nat) := []
  deriving DecidableEq, Repr

/-- The ports a PD command may name (R216 to R222). -/
def portCodes : Nat × List Nat := (0, [0, 1, 2, 3])

/-- The rails a command may name (R385, R386). -/
def railCodes : List Nat := [0, 1, 2, 3, 4, 5, 6, 7, 8, 9, 10, 11]

/-- The parameter tables by opcode (R256); none for an undefined opcode. -/
def paramFmt (opcode : Nat) : Option ParamFmt :=
  match opcode with
  | 0x00 => some ⟨[(0, 48)], [], []⟩
  | 0x01 => some ⟨[(0, 2), (4, 8)], [], []⟩
  | 0x02 => some ⟨[(0, 2)], [], []⟩
  | 0x03 => some ⟨[], [], []⟩
  | 0x04 => some ⟨[(0, 4)], [(0, 0x01), (1, 0xC0), (2, 0xFF), (3, 0xFF)], []⟩
  | 0x10 => some ⟨[(0, 16)], [], []⟩
  | 0x11 => some ⟨[(0, 2)], [], []⟩
  | 0x12 => some ⟨[(0, 9), (12, 4)], [], [(1, [0, 1, 2, 3])]⟩
  | 0x13 => some ⟨[], [], []⟩
  | 0x20 => some ⟨[(0, 2), (4, 32)], [(1, 0xFE)], [(0, [0, 1, 2, 3])]⟩
  | 0x21 => some ⟨[], [], []⟩
  | 0x22 => some ⟨[], [], []⟩
  | 0x23 => some ⟨[], [], []⟩
  | 0x24 => some ⟨[], [], []⟩
  | 0x25 => some ⟨[], [], []⟩
  | 0x30 => some ⟨[(0, 16)], [], [portCodes, (2, [0, 1]), (3, [0, 1, 2, 3])]⟩
  | 0x31 => some ⟨[(0, 2), (4, 28)], [], [portCodes]⟩
  | 0x32 => some ⟨[(0, 3), (4, 28)], [], [portCodes, (1, [0, 1])]⟩
  | 0x33 => some ⟨[(0, 2), (4, 2), (8, 4)], [], [portCodes]⟩
  | 0x34 => some ⟨[(0, 6), (8, 28)], [(2, 0xFC)], [portCodes, (1, [0, 1])]⟩
  | 0x35 => some ⟨[(0, 2)], [], [portCodes, (1, [0, 1, 2])]⟩
  | 0x36 => some ⟨[(0, 1)], [], [portCodes]⟩
  | 0x37 => some ⟨[(0, 2)], [], [portCodes, (1, [0, 1])]⟩
  | 0x60 => some ⟨[(0, 1), (2, 2)], [], [(0, [1, 2, 3])]⟩
  | 0x61 => some ⟨[(0, 7)], [(6, 0xC0)],
      [(0, [0, 1, 2]), (1, [0, 1, 2]), (2, [0, 1, 2]), (3, [0, 1, 2]), (4, [0, 1, 2]), (5, [0, 1, 2])]⟩
  | 0x62 => some ⟨[(0, 2)], [], [(0, [0, 1, 2, 3, 0xFE, 0xFF]), (1, [0, 1, 2, 3, 0xFE, 0xFF])]⟩
  | 0x70 => some ⟨[(0, 1), (4, 16)], [(0, 0xFC)], []⟩
  | 0x71 => some ⟨[], [], []⟩
  | 0x72 => some ⟨[], [], []⟩
  | 0x73 => some ⟨[(0, 1), (4, 12)], [], [(0, [0, 1])]⟩
  | 0x80 => some ⟨[(0, 6)], [], []⟩
  | 0x81 => some ⟨[(0, 2)], [], []⟩
  | 0x50 => some ⟨[(0, 14)], [(3, 0xF0)], [(0, railCodes), (1, [0, 1, 2, 3]), (4, [0, 1, 2])]⟩
  | 0x51 => some ⟨[(0, 1)], [], [(0, railCodes)]⟩
  | 0x52 => some ⟨[(0, 1)], [], [(0, railCodes)]⟩
  | 0x53 => some ⟨[], [], []⟩
  | 0x54 => some ⟨[], [], []⟩
  | 0x40 => some ⟨[(0, 11), (12, 8)], [], [(0, [0, 1, 2, 3, 4, 5, 6, 7]), (1, [0, 1, 2, 3, 4]), (3, [0, 1, 2]),
      (8, [0, 1, 2, 3, 4, 5, 6, 7, 8])]⟩
  | 0x41 => some ⟨[(0, 2)], [(1, 0xFE)], []⟩
  | 0x42 => some ⟨[(0, 1)], [], []⟩
  | 0x43 => some ⟨[(0, 2), (4, 12)], [(1, 0xF8)], [(0, [0, 1, 2, 3, 4, 5, 6, 7])]⟩
  | 0x82 => some ⟨[(0, 3)], [(1, 0xF0)], []⟩
  | 0x83 => some ⟨[(0, 1)], [(0, 0xF0)], []⟩
  | 0x90 => some ⟨[(0, 1)], [], [(0, [0, 1, 2, 3, 0xFF])]⟩
  | 0x91 => some ⟨[(0, 12)], [], [(0, [0, 1, 2, 3]), (1, [0, 1])]⟩
  | _ => none

/-- Opcodes that R256 offers to the host alone. -/
def hostOnly (opcode : Nat) : Bool := opcode = 0x40 || opcode = 0x41 || opcode = 0x42 || opcode = 0x43 || opcode = 0x70

/-- The length of a buffered result (R239, R254, R256, R428). -/
def bufLen (opcode : Nat) (params : List Byte) : Nat :=
  match opcode with
  | 0x03 => 128
  | 0x80 => min 4096 (max 1 (leAt params 4 2)) * 64
  | 0x83 => 32
  | 0x90 => if byteAt params 0 = 0xFF then 512 else 128
  | _ => 0

/-- Byte `k` of the parameters passes: used or 0, its reserved bits 0, its code defined. -/
def ParamFmt.byteOk (f : ParamFmt) (params : List Byte) (k : Nat) : Bool :=
  let v := byteAt params k
  (v = 0 || f.used.any (fun u => u.1 ≤ k && k < u.1 + u.2)) &&
    f.zero.all (fun z => z.1 != k || v &&& z.2 = 0) &&
    f.enums.all (fun e => e.1 != k || e.2.contains v)

/-- The first parameter byte that fails the format checks of R238, step 5. -/
def ParamFmt.firstBad (f : ParamFmt) (params : List Byte) : Option Nat :=
  (List.range 48).find? fun k => !f.byteOk params k

/-- Checks 1 to 5 of R238 on an entry; none when all pass. DIAG_OFS counts entry bytes, parameter byte k being entry
byte 16 + k (R237, R240). -/
def checkEntry (src : CmdSrc) (e : List Byte) : Option Reply :=
  let opcode := byteAt e 0
  let params := sliceBytes e 16 48
  let len := leAt e 4 4
  let addr := leAt e 8 8
  match paramFmt opcode with
  | none => some { status := 0x10 }
  | some f =>
    if src = .ec && hostOnly opcode then some { status := 0x10 }
    else if byteAt e 1 / 2 != 0 then some { status := 0x11, diagOfs := 1 }
    else if src = .ec && len != 0 then some { status := 0x11, diagOfs := 4 }
    else if src = .ec && addr != 0 then some { status := 0x11, diagOfs := 8 }
    else if len > 1048576 then some { status := 0x11, diagOfs := 4 }
    else if len != 0 && (addr = 0 || addr % 4 != 0) then some { status := 0x11, diagOfs := 8 }
    else if src = .ec && bufLen opcode params > 256 then some { status := 0x12, diagOfs := 4 }
    else if src != .ec && len < bufLen opcode params then some { status := 0x12, diagOfs := 4 }
    else
      match f.firstBad params with
      | some k => some { status := 0x11, diagOfs := 16 + k }
      | none => none

/-- The command an entry carries (R237). -/
def cmdOfEntry (h : Nat) (src : CmdSrc) (e : List Byte) : Cmd :=
  { handle := h, src := src, cid := leAt e 2 2, opcode := byteAt e 0, fence := bitAt (byteAt e 1) 0,
    resultLen := leAt e 4 4, resultAddr := leAt e 8 8, params := sliceBytes e 16 48, started := false, noCpl := false,
    bad := checkEntry src e }

/-- A completed command without a result. -/
def ok : CmdRes := .done { status := 0x00 }

/-- A completed command with a status and no result. -/
def fail (status : Nat) : CmdRes := .done { status := status }

/-- A completed command whose failing check is about the value of parameter byte `k` (R240). -/
def failAt (status k : Nat) : CmdRes := .done { status := status, diagOfs := 16 + k }

/-- BAD_FIELD at parameter byte `k`. -/
def badField (k : Nat) : CmdRes := .done { status := 0x11, diagOfs := 16 + k }

/-- SUCCESS, or CLAMPED (R9, R241): each clamped field as its parameter byte and stored value, and the command's result. -/
def clampReply (cs : List (Nat × Nat)) (result : Nat) : Reply :=
  match cs with
  | [] => { status := 0x00, result := result }
  | (k, v) :: _ =>
    { status := 0x01, diagOfs := 16 + k, diagCode := cs.length, result := result % 2 ^ 32 + 2 ^ 32 * (v % 2 ^ 32) }

/-- A numeric parameter held in its range (R9): the stored value, and whether it was clamped. -/
def clampTo (lo hi v : Nat) : Nat × Bool := if v < lo then (lo, true) else if v > hi then (hi, true) else (v, false)

/-- The clamped fields among parameters given as (byte, value, low, high). -/
def clamps (ps : List (Nat × Nat × Nat × Nat)) : List (Nat × Nat) :=
  ps.filterMap fun q => let c := clampTo q.2.2.1 q.2.2.2 q.2.1; if c.2 then some (q.1, c.1) else none

end Sys2Proof.Machine
end

