-- ==== Sys2Proof/Machine/Commands.lean ====
section
/-! DEFINITION. Commands: how an outstanding command starts (R247), and how it completes to its completion ring or to
the EC queue (R239, R240, R246, R250, R310). -/

namespace Sys2Proof.Machine

/-! ### Completion records -/

/-- The 16 bytes of a completion (R240). -/
def cplBytes (cid status : Nat) (phase : Bool) (ring head diagOfs diagCode result : Nat) : List Byte :=
  leBytes 2 cid ++ leBytes 1 status ++ leBytes 1 ((if phase then 0x80 else 0) + ring % 8) ++ leBytes 2 head ++
    leBytes 1 diagOfs ++ leBytes 1 diagCode ++ leBytes 8 result

/-- RESULT of a reply: the result, with the length of a buffered one in [3:0] (R239, R241). -/
def Reply.resultWord (r : Reply) : Nat := r.result + r.buf.length

/-- Writes a completion: the buffered result first (R248), then the record, then the interrupt count. -/
def State.writeCpl (s : State) (h : HeldCpl) : State :=
  let s := if h.reply.buf.isEmpty then s else s.emit (.hostWrite h.addr h.reply.buf)
  let tail := s.get (R.HIF_CQ_STATUS.TAIL h.cq)
  let phase := s.on (R.HIF_CQ_STATUS.PHASE h.cq)
  let base := s.get (R.HIF_CQ_BASE_LO.ADDR h.cq) * 4096 + s.get (R.HIF_CQ_BASE_HI.ADDR h.cq) * 2 ^ 32
  let r := h.reply
  let s := s.emit (.hostWrite (base + 16 * tail)
    (cplBytes h.cid r.status phase h.ring h.head r.diagOfs r.diagCode r.resultWord))
  let next := (tail + 1) % 2 ^ s.get (R.HIF_CQ_CFG.SIZE h.cq)
  let s := s.set (R.HIF_CQ_STATUS.TAIL h.cq) next
  let s := s.setb (R.HIF_CQ_STATUS.PHASE h.cq) (if next = 0 then !phase else phase)
  let s := s.set (R.HIF_CQ_STATUS.RESV_SLOTS h.cq) (s.get (R.HIF_CQ_STATUS.RESV_SLOTS h.cq) - 1)
  s.countCq h.cq

/-- Writes the completions held while DMA was off, in order (R260). -/
def State.flushCpls (s : State) : State :=
  s.hif.cplHeld.foldl (fun acc h => acc.writeCpl h) { s with hif := { s.hif with cplHeld := [] } }

/-- Completes a command of submission ring `q` (R240, R246, R260). -/
def State.ringReply (s : State) (q : Nat) (c : Cmd) (r : Reply) : State :=
  let s := s.set (R.HIF_SQ_STATUS.OUTSTANDING q) (s.get (R.HIF_SQ_STATUS.OUTSTANDING q) - 1)
  let s := s.set R.HIF_STATUS.IN_FLIGHT (s.get R.HIF_STATUS.IN_FLIGHT - 1)
  let cq : Fin 8 := Fin.ofNat 8 (s.get (R.HIF_SQ_CFG.CQ q))
  let h : HeldCpl :=
    { cq := cq, ring := q, head := s.get (R.HIF_SQ_STATUS.HEAD q), cid := c.cid, reply := r, addr := c.resultAddr }
  if bitAt s.hif.cqBad cq then s
  else if s.canDma && s.hif.cplHeld.isEmpty then s.writeCpl h
  else { s with hif := { s.hif with cplHeld := s.hif.cplHeld ++ [h] } }

/-! ### Fetching entries (R233, R235, R246) -/

/-- The size of a submission ring. -/
def State.sqSize (s : State) (q : Nat) : Nat := 2 ^ s.get (R.HIF_SQ_CFG.SIZE q)

/-- The completion ring bound to a submission ring. -/
def State.sqCq (s : State) (q : Nat) : Fin 8 := Fin.ofNat 8 (s.get (R.HIF_SQ_CFG.CQ q))

/-- free(CQ q). -/
def State.cqFree (s : State) (c : Nat) : Nat :=
  let size := 2 ^ s.get (R.HIF_CQ_CFG.SIZE c)
  size - 1 - (s.get (R.HIF_CQ_STATUS.TAIL c) + size - s.get (R.HIF_CQ_HEAD_SEEN.HEAD_SEEN c)) % size

/-- Entries of a submission ring to fetch. -/
def State.sqPending (s : State) (q : Nat) : Nat :=
  (s.get (R.HIF_SQ_TAIL_SEEN.TAIL_SEEN q) + s.sqSize q - s.get (R.HIF_SQ_STATUS.HEAD q)) % s.sqSize q

/-- How many entries the next fetch of a submission ring reads (R246). -/
def State.fetchCount (s : State) (q : Nat) : Nat :=
  min 8 (min (s.sqPending q) (min (s.get (R.HIF_SQ_CFG.SHARE q) - s.get (R.HIF_SQ_STATUS.OUTSTANDING q))
    (min (128 - s.get R.HIF_STATUS.IN_FLIGHT) (min (s.cqFree (s.sqCq q) - s.get (R.HIF_CQ_STATUS.RESV_SLOTS (s.sqCq q)))
      (s.sqSize q - s.get (R.HIF_SQ_STATUS.HEAD q))))))

/-- A submission ring may be fetched from: running, no read in flight, firmware, DMA and the ring engine running. -/
def State.mayFetch (s : State) (q : Nat) : Bool :=
  s.get (R.HIF_SQ_STATUS.STATE q) = 1 && !(s.hif.fetches.any fun (f : EntryFetch) => f.ring = q) && s.fwRuns && s.canDma &&
    s.on R.HIF_STATUS.RUNNING

/-- One ring's turn (R246): reads its next entries, which count as outstanding and reserve their completion slots. -/
def State.fetchRing (s : State) (q : Nat) : State :=
  let n := s.fetchCount q
  if !s.mayFetch q || n = 0 then s
  else
    let head := s.get (R.HIF_SQ_STATUS.HEAD q)
    let s := (s.set (R.HIF_SQ_STATUS.OUTSTANDING q) (s.get (R.HIF_SQ_STATUS.OUTSTANDING q) + n)).set R.HIF_STATUS.IN_FLIGHT
      (s.get R.HIF_STATUS.IN_FLIGHT + n)
    let s := s.set (R.HIF_CQ_STATUS.RESV_SLOTS (s.sqCq q)) (s.get (R.HIF_CQ_STATUS.RESV_SLOTS (s.sqCq q)) + n)
    let f : EntryFetch := { ring := q, first := head, count := n }
    let s := { s with hif := { s.hif with fetches := s.hif.fetches ++ [f], turn := q } }
    s.emit (.hostRead (s.get (R.HIF_SQ_BASE_LO.ADDR q) * 4096 + s.get (R.HIF_SQ_BASE_HI.ADDR q) * 2 ^ 32 + 64 * head) (64 * n))

/-- The fetch turns, from the ring after the one last served. -/
def State.fetchTurns (s : State) : State :=
  ((List.range 9).map fun (k : Nat) => (s.hif.turn + 1 + k) % 9).foldl
    (fun (acc : State) (q : Nat) => if q < 8 then acc.fetchRing q else acc) s

/-- Completes a command of submission ring `q`; its room serves the next fetch. After a host reset nothing is left to do
(R260). -/
def State.completeRing (s : State) (q : Nat) (c : Cmd) (r : Reply) : State :=
  if c.noCpl then s else (s.ringReply q c r).fetchTurns

/-- Completes a command of the EC queue: the completion waits with its result area (R310, R312). -/
def State.completeEc (s : State) (c : Cmd) (r : Reply) : State :=
  let r : Reply := if r.buf.length > 256 then { status := 0x12 } else r
  let rec1 := cplBytes c.cid r.status false 0 s.twb.accepted r.diagOfs r.diagCode r.resultWord
  let s := { s with twb := { s.twb with cpls := s.twb.cpls ++ [({ cpl := rec1, area := r.buf } : EcCpl)] } }
  if s.on R.TWB_ALERT_MASK.CPL then s.setPending 14 else s

/-- Ends outstanding command `h` with a completion. -/
def State.finish (s : State) (h : Nat) (r : Reply) : State :=
  match s.cmds.find? (fun c => c.handle = h) with
  | none => s
  | some c =>
    let s := { s with cmds := s.cmds.filter (fun d => d.handle != h) }
    match c.src with
    | .ring q => s.completeRing q c r
    | .ec => s.completeEc c r
    | .image => s

/-! ### Starting (R247) -/

/-- Command `c` may start: every earlier command of its ring has started, and with FENCE has completed. `seen` are the
commands fetched before it. -/
def mayStart (seen : List Cmd) (c : Cmd) : Bool :=
  !c.started && seen.all (fun d => d.src != c.src || (d.started && !c.fence))

/-- The first command in fetch order that may start. -/
def firstStartable (seen : List Cmd) : List Cmd → Option Cmd
  | [] => none
  | c :: t => if mayStart seen c then some c else firstStartable (c :: seen) t

/-- The command that starts next, while firmware runs and the unit is not in KEEP-ALIVE (R31, R230, R247). -/
def State.nextCmd (s : State) : Option Cmd := if s.fwRuns && s.mode != 1 then firstStartable [] s.cmds else none

/-- Entries that fail their checks complete once they would start, and nothing is executed (R238). -/
def State.settle (s : State) : Nat → State
  | 0 => s
  | n + 1 =>
    match s.nextCmd with
    | none => s
    | some c =>
      match c.bad with
      | none => s
      | some r => (s.finish c.handle r).settle n

/-! ### The start of a control gap (R365, R419) -/

/-- Raises a WDG event (R373). -/
def State.raiseWdg (s : State) (kind task code : Nat) : State :=
  s.raise 0x09 (leBytes 1 task ++ leBytes 1 kind ++ leBytes 1 code ++ leBytes 1 0 ++ leBytes 4 (s.view A.WDG_STATUS).toNat ++
    leBytes 4 (s.view A.WDG_COUNTS).toNat)

/-- The fallback timer is armed, unless it runs (R363). -/
def State.armFallback (s : State) : State :=
  if s.on R.WDG_FALLBACK.ARMED then s else (s.set R.WDG_FALLBACK.ARMED 1).set R.WDG_FALLBACK.LEFT 2000

/-- Jack's warm fields as after a warm reset: first question, no check-in, SEED unlocked, Jack enabled (R357, R363). -/
def State.resetJack (s : State) : State :=
  let s := [A.WDG_CFG, A.WDG_TASK_EN, A.WDG_SEED, A.WDG_QUESTION, A.WDG_CHECKIN, A.WDG_STATUS, A.WDG_CAUSE].foldl
    (fun (acc : State) (a : Nat) => acc.setWord a (RegMap.resetWord a)) (s.set R.WDG_CTRL.DIS 0)
  { s with jk := {} }

/-- A bank of the firmware. -/
def State.bank (s : State) (n : Nat) : Bank := if n = 0 then s.fw.bank0 else s.fw.bank1

/-- The cores restart on a bank: the control gap begins, fetching stops, Jack suspends and arms the fallback timer. -/
def State.startGap (s : State) (g : Gap) : State :=
  let s := { s with fw := { s.fw with gap := some g, actWait := none } }
  let s := (s.set R.SEC_FW_STATUS.GAP 1).set R.HIF_STATUS.FW 0
  let s := (s.resetJack.set R.WDG_STATUS.STATE 2).armFallback
  s.raiseFw 0x02 g.bank (s.bank g.bank).svn

/-- An FW_ACTIVATE that waits, or the return of an FW_ABORT to the old bank, goes on once every other command has
completed (R419, R420). -/
def State.tryGap (s : State) : State :=
  match s.fw.actWait with
  | none => s
  | some h =>
    if s.cmds.any fun (c : Cmd) => c.handle != h && !c.noCpl then s
    else
      let leave : Bool := s.cmds.any fun (c : Cmd) => c.handle = h && c.opcode = 0x72
      s.startGap { bank := 1 - s.fw.record.bank, back := leave, handle := some h, diag := 0 }

/-- Completes outstanding command `h`. The application core writes completions, so that without firmware the command stays
outstanding and ends at the return (R17, R260). -/
def State.complete (s : State) (h : Nat) (r : Reply) : State :=
  if s.fwRuns then ((s.finish h r).settle s.cmds.length).tryGap else s

/-- Completes a command that a later event ends, where there is one. -/
def State.completeOpt (s : State) (h : Option Nat) (r : Reply) : State :=
  match h with
  | none => s
  | some h => s.complete h r

/-- Marks a command as started. -/
def State.markStarted (s : State) (h : Nat) : State :=
  { s with cmds := s.cmds.map (fun c => if c.handle = h then { c with started := true } else c) }

/-- Runs operation `op` for the command that starts next, where it is one that `is` names: its effect, and its
completion unless it stays outstanding. -/
def State.runCmd (s : State) (is : Cmd → Bool) (op : Cmd → State → CmdRes × State) : State :=
  match s.nextCmd with
  | none => s
  | some c =>
    if is c then
      match op c (s.markStarted c.handle) with
      | (.done r, s') => s'.complete c.handle r
      | (.wait, s') => s'.settle s'.cmds.length
    else s

/-- `c` has the opcode. -/
def isOp (opcode : Nat) (c : Cmd) : Bool := c.opcode = opcode

/-- Parameter byte `k` of a command. -/
def Cmd.byte (c : Cmd) (k : Nat) : Nat := byteAt c.params k

/-- The number in `n` parameter bytes from byte `k`. -/
def Cmd.num (c : Cmd) (k n : Nat) : Nat := leAt c.params k n

/-- The port that byte 0 of a PD command names. -/
def Cmd.port (c : Cmd) : Fin 4 := Fin.ofNat 4 (c.byte 0)

end Sys2Proof.Machine
end

