-- ==== Sys2Proof/Machine/PowerOps.lean ====
section
/-! DEFINITION. The operations on the power path that several commands share: phases and groups start and stop, buses
connect and open, sourcing starts and stops, a port's contract and policy engine are cleared, charging stops, the unit
enters SAFE, a phase retires. -/

namespace Sys2Proof.Machine

/-! ### Parts of the state -/

def State.modPhase (s : State) (ph : Fin 6) (f : Phase → Phase) : State :=
  { s with stage := { s.stage with phases := s.stage.phases.set ph (f (s.stage.phases.get ph)) } }

def State.modGroup (s : State) (g : Fin 2) (f : Group → Group) : State :=
  { s with stage := { s.stage with groups := s.stage.groups.set g (f (s.stage.groups.get g)) } }

def State.modBus (s : State) (b : Fin 2) (f : Bus → Bus) : State :=
  { s with path := { s.path with buses := s.path.buses.set b (f (s.path.buses.get b)) } }

def State.modPath (s : State) (p : Fin 4) (f : PortPath → PortPath) : State :=
  { s with path := { s.path with ports := s.path.ports.set p (f (s.path.ports.get p)) } }

def State.modTc (s : State) (p : Fin 4) (f : TypeC → TypeC) : State :=
  { s with ports := s.ports.set p { s.ports.get p with tc := f (s.ports.get p).tc } }

def State.modPe (s : State) (p : Fin 4) (f : Policy → Policy) : State :=
  { s with ports := s.ports.set p { s.ports.get p with pe := f (s.ports.get p).pe } }

def State.modPb (s : State) (p : Fin 4) (f : PortBudget → PortBudget) : State :=
  { s with bgt := { s.bgt with ports := s.bgt.ports.set p (f (s.bgt.ports.get p)) } }

/-- A port's Type-C part. -/
def State.tc (s : State) (p : Fin 4) : TypeC := (s.ports.get p).tc

/-- A port's policy engine. -/
def State.pe (s : State) (p : Fin 4) : Policy := (s.ports.get p).pe

/-- `f` for each port of a list. -/
def State.eachPort (s : State) (ps : List (Fin 4)) (f : State → Fin 4 → State) : State := ps.foldl f s

/-- `f` for each phase of a list. -/
def State.eachPhase (s : State) (ps : List (Fin 6)) (f : State → Fin 6 → State) : State := ps.foldl f s

/-! ### Charger (R110, R115, R127) -/

/-- Moves the charger to a phase, with a CHARGE event of kind 0x01 on a change. -/
def State.setChgPhase (s : State) (phase : Nat) : State :=
  let prev := s.get R.CHG_STATUS.PHASE
  if prev = phase then s else (s.set R.CHG_STATUS.PHASE phase).raiseCharge 0x01 prev

/-- The charge target and set point fall to 0 mA. -/
def State.zeroCharge (s : State) : State := (s.seti R.CHG_CURRENT.I_TGT 0).seti R.CHG_CURRENT.I_SET 0

/-- PACK_ID of the profile in force. -/
def State.packId (s : State) : Nat := s.get (R.CHG_PROFILE.W 0) + 2 ^ 32 * s.get (R.CHG_PROFILE.W 1)

/-- Saves the estimator state with its PACK_ID (R127, R421). -/
def State.saveEst (s : State) : State := { s with chg := { s.chg with saved := some (s.packId, s.chg.est) } }

/-- Ends the charge cycle, with the estimator saved (R115, R127). -/
def State.endCycle (s : State) : State :=
  let s := if s.on R.CHG_STATUS.CYCLE then s.saveEst else s
  let s := { s with chg := { s.chg with ceil := none } }
  ((s.set R.CHG_STATUS.CYCLE 0).set R.CHG_STATUS.HALF_RATE 0).set R.CHG_STATUS.LIM 0

/-- A charging phase: TRICKLE, PRECHARGE, CC or CV. -/
def State.charging (s : State) : Bool := 3 ≤ s.get R.CHG_STATUS.PHASE && s.get R.CHG_STATUS.PHASE ≤ 6

/-- Without a connected sink port the charger waits in IDLE, its cycle, step and timers kept (R115, R130). -/
def State.chargeInputLost (s : State) : State :=
  if s.anySink then s
  else
    let s := s.setBit R.CHG_STATUS.SUSP 0 true
    if s.charging then (s.setChgPhase 2).zeroCharge else s

/-! ### Phases and groups -/

/-- A group's phases re-interleave within three periods (R56). -/
def State.reinterleave (s : State) (g : Fin 2) : State := s.modGroup g fun x => { x with reint := 3 }

/-- A phase's gates go low. -/
def State.gateOff (s : State) (ph : Fin 6) : State :=
  (s.setBit R.CNV_STATUS.SWITCHING ph false).modPhase ph fun x =>
    { x with precharge := false, ocRun := 0, ramp := 0, trim := 0 }

/-- A group stops: its gates go low, and its reference and region read as not switching. -/
def State.groupStop (s : State) (g : Fin 2) : State :=
  let s := s.eachPhase (s.groupPhases g) State.gateOff
  let s := (((s.set (R.CNV_GRP_STATUS.REGION g) 3).seti (R.CNV_GRP_STATUS.IREF g) 0).set
    (R.CNV_GRP_STATUS.LIMITER g) 0).set (R.CNV_GRP_STATUS.SAT g) 0
  s.modGroup g fun x => { x with dirTarget := none, reint := 0, starting := false, intVsys := 0, intVbus := 0 }

/-- The partner of a parallel pair stops (R330). -/
def State.parStop (s : State) : State :=
  if !s.csc.parRun then s
  else
    let g : Fin 2 := Fin.ofNat 2 (s.get R.CSC_PAR_CFG.GROUP)
    let s := ({ s with csc := { s.csc with parRun := false } }.groupStop g).set R.CSC_EVENT.PAR_LOST 1
    s.raiseCascade (s.get R.MOD_STRAP.IDX) 0x09

/-- The converter may switch: power stage enabled, VDRV present, not in SAFE (R36, R73). -/
def State.mayswitch (s : State) : Bool :=
  s.on R.CNV_STATUS.STAGE_EN && !s.on R.CNV_STATUS.VDRV_UV && !s.inSafe && s.md.longPress = 0

/-- A marked phase begins its self-check, which counts as a reinstatement (R72). -/
def State.startCheck (s : State) (ph : Fin 6) : State :=
  let s := s.set R.CNV_PHASE_MAP.REINST_CNT
    (s.get R.CNV_PHASE_MAP.REINST_CNT + (if s.reinst ph < 3 then 4 ^ ph.val else 0))
  s.modPhase ph fun x => { x with marked := false, checking := true, precharge := true }

/-- A group starts (R53, R64): each of its phases that is neither retired nor shed precharges, marked ones begin their
self-check, and IREF starts from 0 A. -/
def State.groupStart (s : State) (g : Fin 2) : State :=
  if !s.mayswitch then s
  else
    let s := s.eachPhase (s.groupPhases g) fun s ph =>
      if (s.stage.phases.get ph).marked then s.startCheck ph
      else if s.retired ph || s.shed ph || s.switching ph then s
      else s.modPhase ph fun x => { x with precharge := true }
    s.modGroup g fun x => { x with starting := true }

/-- A group turns to a direction (R65): at once while it does not switch, else by a ramp of IREF through 0 A. -/
def State.groupDir (s : State) (g : Fin 2) (src : Bool) : State :=
  if s.nSwitch g = 0 then
    (s.setb (R.CNV_GRP_CFG.DIR g) src).modGroup g fun x => { x with dirTarget := none }
  else if s.isSource g = src then s.modGroup g fun x => { x with dirTarget := none }
  else s.modGroup g fun x => { x with dirTarget := some (ofBool src) }

/-! ### Budget: the end of a shed (R144) -/

/-- Ends a port's shed, with a BUDGET event of the kind given. -/
def State.endShed (s : State) (p : Fin 4) (kind : Nat) : State :=
  match (s.bgt.ports.get p).shed with
  | none => s
  | some _ =>
    let s := s.modPb p fun x => { x with shed := none }
    (s.setBit R.BGT_STATUS.SHED p false).raiseBudget kind p

/-- A source string ends with its contract (R144, R151). -/
def State.endString (s : State) (p : Fin 4) : State :=
  ((s.endShed p 0x08).modPb p fun x => { x with restore := none }).set (R.BGT_STR_SRC.P p) 0

/-- An input string ends with its connection, and its overload window with it (R136, R141). -/
def State.endInput (s : State) (p : Fin 4) : State :=
  ((s.set (R.BGT_STR_IN.P p) 0).modPb p fun x => { x with window := none }).setBit R.BGT_STATUS.OVL p false

/-- The peak credit is full (R137): units of 10 µs, shown in 0.1 s. -/
def State.fillCredit (s : State) : State :=
  let n := s.get R.BGT_PACK_PEAK.PEAK_T
  { s.set R.BGT_PACK_PEAK.CREDIT n with bgt := { s.bgt with credit := n * 10000 } }

/-! ### Buses -/

/-- Marks which port a bus connects. -/
def State.setConn (s : State) (b : Fin 2) (c : Option (Fin 4)) : State :=
  match c with
  | none => if b = 0 then s.set R.MOD_MATRIX_STATUS.A_CONN 0 else s.set R.MOD_MATRIX_STATUS.B_CONN 0
  | some p =>
    if b = 0 then (s.set R.MOD_MATRIX_STATUS.A_CONN 1).set R.MOD_MATRIX_STATUS.A_PORT p
    else (s.set R.MOD_MATRIX_STATUS.B_CONN 1).set R.MOD_MATRIX_STATUS.B_PORT p

/-- Result of INPUT_SELECT (R242): port of each bus, 0xFF for empty, and which buses are under automatic selection. -/
def State.inputResult (s : State) : Nat :=
  let port (b : Fin 2) : Nat := if s.busConn b then (s.busPort b).val else 0xFF
  port 0 + 256 * port 1 + 65536 * (ofBool (s.busAuto 0) + 2 * ofBool (s.busAuto 1))

/-- A running INPUT_SELECT ends with ABORTED: code 0x00 when no move had begun, else 0x01 (R100). -/
def State.abortSelect (s : State) : State :=
  match s.path.inputSel with
  | none => s
  | some i =>
    let s := (s.modBus 0 fun x => { x with selMove := false }).modBus 1 fun x => { x with selMove := false }
    { s with path := { s.path with inputSel := none } }.completeOpt i.handle
      { status := 0x31, diagCode := ofBool i.begun }

/-- A running INPUT_SELECT completes once none of its moves is left (R81). -/
def State.finishSelect (s : State) : State :=
  match s.path.inputSel with
  | none => s
  | some i =>
    if (s.path.buses.get 0).selMove || (s.path.buses.get 1).selMove then s
    else { s with path := { s.path with inputSel := none } }.completeOpt i.handle
      { status := 0x00, result := s.inputResult }

/-- The bus voltage and the port's VBUS stand within 0.5 V (R77, R79). -/
def within (a b d : Nat) : Bool := a ≤ b + d && b ≤ a + d

/-- Steps 3 and 4 of R79 from the measured voltages: the bus settles while it stands more than 0.5 V above the new
port's VBUS, its group drawing from the bus capacitance, else the new pair closes, fast within ±0.5 V and soft
otherwise. -/
def State.closeOrSettle (s : State) (b : Fin 2) (p : Fin 4) (vin vbus : Nat) : State :=
  if vin > vbus + 500 then (s.modBus b fun x => { x with move := .settle p }).groupStart b
  else (s.groupStop b).modBus b fun x => { x with move := .closing p (within vin vbus 500) }

/-- Begins to connect a port to an empty bus (R79). -/
def State.beginConnect (s : State) (b : Fin 2) (p : Fin 4) : State :=
  s.closeOrSettle b p (s.get (R.MOD_IN_MEAS.VIN b)) (s.get (R.PD_VBUS_MEAS.VBUS p))

/-- Begins to move a bus from its connected port to another, or to empty it (R79, step 1). -/
def State.beginMove (s : State) (b : Fin 2) (p : Option (Fin 4)) : State :=
  s.modBus b fun x => { x with move := .ramp p }

/-- The port is on, or moving to, some bus. -/
def State.busTaken (s : State) (p : Fin 4) : Bool :=
  [(0 : Fin 2), 1].any fun b =>
    (s.busConn b && s.busPort b = p) ||
      (match (s.path.buses.get b).move with
       | .idle => false
       | .ramp q => q = some p
       | .settle q => q = p
       | .closing q _ => q = p) ||
      (match (s.path.buses.get b).held with | some (q, _) => q = p | none => false)

/-- The port that automatic selection picks for a bus (R80): the highest contracted power, the lower number on a tie. -/
def State.candidate (s : State) (b : Fin 2) : Option (Fin 4) :=
  (allPorts.filter fun p =>
      s.holdsSink p && !s.busTaken p && s.fitted p b && !s.bit R.MOD_PP_EVENT.OVP_LOCK p).foldl
    (fun best p =>
      match best with
      | none => some p
      | some q => if s.get (R.PD_PE_CONTRACT_PWR.PWR p) > s.get (R.PD_PE_CONTRACT_PWR.PWR q) then some p else some q)
    none

/-- Automatic selection of one bus (R80). The input matrix stays open in SAFE (R36). -/
def State.autoBus (s : State) (b : Fin 2) : State :=
  if !s.busAuto b || !s.busEmpty b || (b = 1 && !s.on R.MOD_MATRIX_CFG.COMBINE) || !s.groupUsable b || s.inSafe ||
      !s.on R.CNV_STATUS.STAGE_EN then s
  else
    match s.candidate b with
    | none => s
    | some p => s.beginConnect b p

/-- Automatic selection (R80), at each contract completion, detach, bus release and phase-map change. -/
def State.autoSelect (s : State) : State := (s.autoBus 0).autoBus 1

/-! ### Sourcing stops; an input is lost -/

/-- Sets the policy-engine state, with a PD_STATE event on a change (R215). -/
def State.setPe (s : State) (p : Fin 4) (st : Nat) : State :=
  let prev := s.get (R.PD_PE_STATUS.PE_STATE p)
  if prev = st then s else (s.set (R.PD_PE_STATUS.PE_STATE p) st).raisePd p 0x02 st prev

/-- Starts the VBUS discharge of a port down to a level in mV (R172). -/
def State.discharge (s : State) (p : Fin 4) (level : Nat) : State :=
  s.modTc p fun x => { x with discharge := some level }

/-- Sourcing stops (R36, R95, R99, R167): the group stops, the pair opens, the source string ends, VBUS is discharged to
the level given. -/
def State.stopSource (s : State) (p : Fin 4) (level : Nat) : State :=
  match (s.path.ports.get p).srcBus with
  | none => s
  | some b =>
    let s := s.groupStop b
    let s := s.setConn b none
    let s := s.setb (R.CNV_GRP_CFG.DIR b) false
    let s := s.modBus b fun x => { x with move := .idle, selMove := false }
    let s := s.modPath p fun x => { x with src := .off, srcBus := none }
    let s := s.setBit R.MOD_MATRIX_STATUS.SRC p false
    (s.endString p).discharge p level

/-- An armed source that must stop sends the Fast Role Swap signal and discharges only to 4.75 V (R209). -/
def State.frsSend (s : State) (p : Fin 4) : State :=
  let s := s.stopSource p 4750
  let s := s.modPe p fun x => { x with frsSent := true }
  ((s.set (R.PD_PE_EVENT.FRS p) 1).raisePd p 0x08 0 0).setPe p 0x25

/-- After the last sink input is lost the pack carries VSYS, and a BATFET that is not OFF goes to SWITCH (R93). With
the BATFET in OFF no hand-over exists, and an armed source sends the Fast Role Swap signal (R209). -/
def State.handOver (s : State) : State :=
  if s.anySink || s.inSafe then s
  else if s.bat = batOff then
    s.eachPort allPorts fun s p => if s.sourcing p && s.frsArmed p then s.frsSend p else s
  else { s.set R.MOD_BATFET_STATUS.STATE batSwitch with path := { s.path with fastOn := false } }

/-- A sink group loses its input (R86, R93): the group stops, the pair opens, the input string ends, the charger loses
its input when it was the last, and VSYS is handed over. -/
def State.loseSink (s : State) (b : Fin 2) : State :=
  let p := s.busPort b
  let s := s.groupStop b
  let s := s.setConn b none
  let s := s.modBus b fun x => { x with move := .idle, selMove := false }
  let s := s.endInput p
  (s.chargeInputLost).handOver

/-! ### Ports: states, contracts, sequences -/

/-- Sets the Type-C state, with a PD_STATE event on a change (R162). -/
def State.setTc (s : State) (p : Fin 4) (st : Nat) : State :=
  let prev := s.get (R.PD_CC_STATUS.TC_STATE p)
  if prev = st then s
  else
    let s := s.set (R.PD_CC_STATUS.TC_STATE p) st
    let s := s.setb (R.PD_CC_STATUS.ATTACHED p) (st = 4 || st = 7 || st = 0xC || st = 0xD || st = 0xE)
    s.raisePd p 0x01 st prev

/-- What a port presents on CC. -/
def State.setTerm (s : State) (p : Fin 4) (t : CcTerm) : State := s.modTc p fun x => { x with term := t }

/-- The port's contract ends: its registers read none. -/
def State.clearContract (s : State) (p : Fin 4) : State :=
  let s := ((s.set (R.PD_PE_STATUS.EXPLICIT p) 0).set (R.PD_PE_STATUS.CONTRACT p) 0).set (R.PD_PE_STATUS.OBJ_POS p) 0
  let s := ((s.set (R.PD_PE_CONTRACT.VOLTAGE p) 0).set (R.PD_PE_CONTRACT.CURRENT p) 0).set (R.PD_PE_CONTRACT_PWR.PWR p) 0
  (s.setBit R.MOD_MATRIX_STATUS.SNK p false).modPath p fun x => { x with trans := none }

/-- EPR mode ends, with its flag and event (R198, R244). -/
def State.endEpr (s : State) (p : Fin 4) : State :=
  if s.on (R.PD_PE_STATUS.EPR_MODE p) then
    ((s.set (R.PD_PE_STATUS.EPR_MODE p) 0).set (R.PD_PE_EVENT.EPR_EXIT p) 1).raisePd p 0x05 0 0
  else s

/-- A contract of the port: kind (0 implicit, 1 fixed, 2 PPS, 3 AVS), object position, mV and mA. The current is
positive while sinking (R10, R223). -/
def State.setContract (s : State) (p : Fin 4) (kind pos mv ma : Nat) (sink : Bool) : State :=
  let s := ((s.setb (R.PD_PE_STATUS.EXPLICIT p) (kind != 0)).set (R.PD_PE_STATUS.CONTRACT p) kind).set
    (R.PD_PE_STATUS.OBJ_POS p) pos
  let i : Int := if sink then ma / 2 else -(ma / 2 : Int)
  let s := ((s.set (R.PD_PE_CONTRACT.VOLTAGE p) mv).seti (R.PD_PE_CONTRACT.CURRENT p) i).set
    (R.PD_PE_CONTRACT_PWR.PWR p) (mv * ma / 1000)
  s.setBit R.MOD_MATRIX_STATUS.SNK p sink

/-- VCONN turns off and is discharged (R171). -/
def State.vconnOff (s : State) (p : Fin 4) : State := (s.set (R.PD_VCONN.ON p) 0).set (R.PD_VCONN.IVCONN p) 0

/-- Every sequence, timer, keep-alive, hold and pending host reply of the port ends, and the command in progress
completes with the status and code given (R210, R212). -/
def State.endPe (s : State) (p : Fin 4) (status code : Nat) : State :=
  let h := (s.pe p).cmd
  let s := s.modPe p fun x => { ({} : Policy) with eprTried := x.eprTried, capHr := x.capHr, frsCur := x.frsCur }
  let s := s.modTc p fun x => { x with tx := none, chunk := none, discover := none, bist := 0 }
  let s := s.set (R.PD_PE_STATUS.HOST_WAIT p) 0
  s.completeOpt h { status := status, diagCode := code }

/-- Sourcing starts on a free bus (R97): the group turns to source and raises its bus with the pair open. Without a
free bus the port cannot source (R96). -/
def State.startSource (s : State) (p : Fin 4) : State :=
  match s.srcBusFor p with
  | none => s
  | some b =>
    let s := s.groupDir b true
    let s := s.modPath p fun x => { x with src := if s.isSource b then .raising else .dirRamp, srcBus := some b }
    s.groupStart b

/-- The unattached state of the port's role (R162). -/
def State.unattachedOf (s : State) (p : Fin 4) : Nat := if s.get (R.PD_TC_CFG.ROLE p) = 1 then 5 else 2

/-- Power of an Rp level in mW (R165). -/
def rpPower (level : Nat) : Nat := if level = 2 then 15000 else if level = 1 then 7500 else 4500

/-- Current of an Rp level in mA (R84, R98). -/
def rpMa (level : Nat) : Nat := if level = 2 then 3000 else if level = 1 then 1500 else 900

/-- The new-contract allowance of R145 for a port, in mW: the larger of SRC_FLOOR and S + P_BAT − D − STR, within the
limits of R97. -/
def State.allowance (s : State) (p : Fin 4) : Nat :=
  let room : Int := s.bgt.sTotal + s.get R.BGT_P_BAT.P - s.bgt.dTotal - s.bgt.strTotal
  let a := max (s.get R.BGT_SRC_FLOOR.FLOOR) room.toNat
  let left := s.get R.MOD_SRC_PMAX_UNIT.PMAX - (s.srcPower - s.get (R.BGT_STR_SRC.P p))
  min a (min (s.get R.MOD_SRC_PMAX_PORT.PMAX) left)

/-- The highest Rp level that RP_LVL and the allowance admit, never below default USB (R165). -/
def State.rpLevel (s : State) (p : Fin 4) : Nat :=
  let top := s.get (R.PD_TC_CFG.RP_LVL p)
  let a := s.allowance p
  if top ≥ 2 && rpPower 2 ≤ a then 2 else if top ≥ 1 && rpPower 1 ≤ a then 1 else 0

/-- What a port presents while unattached (R161, R164): Rd for a sink or a DRP whose source role is unavailable, open
for a source-only port whose source role is unavailable, Rp for an available source. -/
def State.restTerm (s : State) (p : Fin 4) : CcTerm :=
  if s.on (R.PD_CTRL.DISABLE p) then .open_
  else if s.wet p || s.get (R.PD_TC_CFG.ROLE p) != 1 then .rd
  else if s.srcAvail p then .rp (s.rpLevel p)
  else .open_

/-- The port connects no more to its bus: a bus it uses, or moves to, or that is held for it, is released. -/
def State.leaveBus (s : State) (p : Fin 4) : State :=
  let one (s : State) (b : Fin 2) : State :=
    let s := if s.sinkConn b && s.busPort b = p then s.loseSink b else s
    let s := match (s.path.buses.get b).move with
      | .settle q => if q = p then s.modBus b fun x => { x with move := .idle, selMove := false } else s
      | .closing q _ => if q = p && !s.busSources b then s.modBus b fun x => { x with move := .idle, selMove := false }
                        else s
      | .ramp q => if q = some p then s.modBus b fun x => { x with move := .ramp none } else s
      | .idle => s
    match (s.path.buses.get b).held with
    | some (q, _) => if q = p then s.modBus b fun x => { x with held := none } else s
    | none => s
  one (one s 0) 1

/-- The port leaves its attachment (R167, R212): sequences end with PARTNER_ABSENT, sourcing stops, the bus is
released, VCONN turns off, the contract and the over-voltage lock end. -/
def State.detachPort (s : State) (p : Fin 4) : State :=
  let s := s.stopSource p 800
  let s := s.leaveBus p
  let s := s.vconnOff p
  let s := s.endPe p 0x42 0
  let s := (s.endEpr p).clearContract p
  let s := ((s.set (R.PD_PE_STATUS.HR_COUNT p) 0).set (R.PD_PE_STATUS.VCONN_SRC p) 0).set (R.PD_PRL_STATUS.PARTNER_REV p) 0
  let s := ((s.set (R.PD_CC_STATUS.POWER_ROLE p) 0).set (R.PD_CC_STATUS.PARTNER p) 0).set (R.PD_CC_STATUS.SINK_TX p) 0
  let s := ((s.set (R.PD_CABLE.VALID p) 0).set (R.PD_CABLE.EPR p) 0).set (R.PD_CABLE.VMAX p) 0
  let s := (s.set (R.PD_CABLE.IMAX p) 1).set (R.PD_PRL_STATUS.CABLE_REV p) 0
  let s := s.setBit R.MOD_PP_EVENT.OVP_LOCK p false
  let s := (s.modPath p fun x => { x with ovpTrips := [] }).modPb p fun x => { x with bound := none }
  s.modTc p fun x => { x with vconnLock := false, ra := false, txId0 := 0, txId1 := 0, rxId0 := none, rxId1 := none,
                              moistAll := true }

/-- Type-C ErrorRecovery (R99, R187, R188): the attachment ends and both CC pins open. -/
def State.errorRecovery (s : State) (p : Fin 4) : State :=
  (((s.detachPort p).setTerm p .open_).setTc p 1).setPe p 0x3F

/-! ### SAFE (R36) -/

/-- A demand for BATFET OFF of R87 persists: pack absent, CELL strap invalid, dead-battery start until VSYS_MIN, long press. -/
def State.offDemand (s : State) : Bool :=
  !s.packPresent || s.get R.MOD_STRAP.CELL > 4 || s.md.dbHold || s.md.longPress = 2

/-- Sets the mode, with a MODE_CHANGE event on a change (R29). -/
def State.setMode (s : State) (m cause : Nat) : State :=
  let prev := s.mode
  if prev = m then s else (s.set R.MOD_MODE_STATUS.MODE m).raiseMode prev m cause

/-- A sourcing port stops on SAFE entry, and then presents Rd, or CC open for a source-only port (R36, R164, R209). -/
def State.safePort (s : State) (p : Fin 4) : State :=
  if s.sourcing p || (s.path.ports.get p).srcBus.isSome then
    if s.frsArmed p then s.frsSend p
    else (s.stopSource p 800).setTerm p (if s.get (R.PD_TC_CFG.ROLE p) = 1 then .open_ else .rd)
  else if s.on (R.PD_CC_STATUS.ATTACHED p) then s
  else s.setTerm p (if s.on (R.PD_CTRL.DISABLE p) || s.get (R.PD_TC_CFG.ROLE p) = 1 then .open_ else .rd)

/-- Result of PHASE_MAP_SET (R68, R242): the map by phase and the retired phases, marked ones not counted. -/
def State.mapResult (s : State) : Nat :=
  allPhases.foldl (fun (acc : Nat) (ph : Fin 6) => acc + s.mapOf ph * 256 ^ ph.val +
    (if s.retired ph && !(s.stage.phases.get ph).marked then 256 ^ 6 * 2 ^ ph.val else 0)) 0

/-- A PHASE_MAP_SET in progress completes (R67, R68). -/
def State.finishMap (s : State) : State :=
  match s.stage.mapChange with
  | none => s
  | some m =>
    let s := { s with stage := { s.stage with mapChange := none } }
    let s := s.eachPhase allPhases fun s ph => s.modPhase ph fun x => { x with moving := false }
    s.completeOpt m.handle { status := 0x00, result := s.mapResult }

/-- SAFE entry with a cause (R36): the cause is recorded; when the unit was not in SAFE, switching stops, the matrix
opens, sourcing and charging stop, the BATFET becomes an ideal diode unless a demand for OFF persists, and the mode
changes. -/
def State.safeEnter (s : State) (cause : Nat) : State :=
  let s := s.setBit R.MOD_MODE_STATUS.SAFE_SET (cause - 1) true
  let s := if s.get R.MOD_MODE_STATUS.SAFE_CAUSE = 0 then s.set R.MOD_MODE_STATUS.SAFE_CAUSE cause else s
  if s.inSafe then s.raiseFault 0x04 cause 0xFF 0
  else
    let prev := s.mode
    let s := s.eachPort allPorts State.safePort
    let s := s.set R.MOD_MODE_STATUS.MODE 5
    let s := (if s.sinkConn 0 then s.loseSink 0 else s.groupStop 0)
    let s := (if s.sinkConn 1 then s.loseSink 1 else s.groupStop 1)
    let s := (s.modBus 0 fun x => { x with move := .idle, held := none }).modBus 1
      fun x => { x with move := .idle, held := none }
    let s := { s with csc := { s.csc with parRun := false } }.abortSelect.finishMap
    let s := s.endCycle.zeroCharge
    let s := if s.charging || s.get R.CHG_STATUS.PHASE = 8 then s.setChgPhase 2 else s
    let s := s.set R.MOD_BATFET_STATUS.STATE (if s.offDemand then batOff else batIdeal)
    (s.raiseMode prev 5 0x06).raiseFault 0x04 cause 0xFF 0

/-! ### Retirement (R70) -/

/-- GRP_PMAX of a group from its non-retired phases (R70, R142). -/
def State.writePmax (s : State) (g : Fin 2) : State :=
  s.set (R.CNV_GRP_PMAX.PMAX g) (s.get R.CNV_UNIT_LIMIT.PMAX * s.nonRetired g / 6)

/-- A group without a phase that counts for the connection rules opens its pair (R67, R70, R78). -/
def State.releaseGroup (s : State) (g : Fin 2) : State :=
  if s.groupUsable g then s
  else
    let s := if s.sinkConn g then (s.loseSink g).abortSelect else s.groupStop g
    s.eachPort allPorts fun s p => if (s.path.ports.get p).srcBus = some g then s.stopSource p 800 else s

/-- Retires a phase with a cause (R70). An unmapped phase belongs to no group, shown as group 0. -/
def State.retire (s : State) (ph : Fin 6) (cause : Nat) : State :=
  let code := s.mapOf ph
  let g : Fin 2 := if code = 2 then 1 else 0
  let s := s.gateOff ph
  let s := (s.setBit R.CNV_STATUS.RETIRED ph true).setBit R.CNV_STATUS.SHED ph false
  let s := s.set (R.PH_FAULT.CAUSE ph) cause
  let s := s.modPhase ph fun x => { x with checking := false, marked := false, moving := false }
  let s := s.raiseFault 0x01 cause ph (code * 16 + s.nSwitch g)
  let s := (s.reinterleave g).writePmax g
  let s := s.releaseGroup g
  if allPhases.all (fun q => s.retired q && !s.connects q) then s.safeEnter 2 else s

end Sys2Proof.Machine
end

