-- ==== Sys2Proof/Machine/Charge.lean ====
section
/-! DEFINITION. The charger's commands (05_charging.md): pack presence and taps, profiles, phases and cycles, cell
over-voltage, safety timers, plating-margin charging, and the charge opcodes 0x20 to 0x25. -/

namespace Sys2Proof.Machine

/-! ### The profile in force (R107) -/

/-- PM_EN of the profile in force. -/
def State.pmEn (s : State) : Bool := bitAt (s.prof8 0x09) 0

/-- N_STEPS. -/
def State.nSteps (s : State) : Nat := s.prof8 0x28

/-- V_UPPER of a step, in mV. -/
def State.stepV (s : State) (k : Nat) : Nat := s.prof16 (0x30 + 8 * k)

/-- The current of a step in the present zone, in mA (R112, R114): no current outside COOL, NORMAL and WARM. -/
def State.stepI (s : State) (k : Nat) : Nat :=
  let z := s.get R.CHG_STATUS.ZONE
  if 1 ≤ z && z ≤ 3 then s.prof16 (0x30 + 8 * k + 2 * z) else 0

/-- The lowest step whose V_UPPER exceeds V_HI, else the last (R111). -/
def State.pickStep (s : State) : Nat :=
  match (List.range s.nSteps).find? fun k => s.stepV k > s.chg.vHi with
  | some k => k
  | none => s.nSteps - 1

/-! ### Phases and faults (R110, R111, R129) -/

/-- Moves to a phase with one CHARGE event of a kind of its own. -/
def State.chgEvent (s : State) (phase kind : Nat) : State :=
  (s.set R.CHG_STATUS.PHASE phase).raiseCharge kind (s.get R.CHG_STATUS.PHASE)

/-- A suspend cause other than the missing input stands (R111). -/
def State.suspended (s : State) : Bool := s.get R.CHG_STATUS.SUSP / 2 != 0

/-- The phase that the cycle-start rules give; a step already reached is kept (R111). -/
def State.pickPhase (s : State) : State :=
  if s.suspended then s.setChgPhase 8
  else if s.chg.vLo < 2200 then s.setChgPhase 3
  else if s.chg.vLo < s.prof16 0x12 then s.setChgPhase 4
  else (s.set R.CHG_STATUS.STEP (max (s.get R.CHG_STATUS.STEP) s.pickStep)).setChgPhase 5

/-- The BATFET's state by R87 with the pack present. -/
def State.batRule (s : State) : Nat :=
  if s.offDemand then batOff
  else if s.inSafe then batIdeal
  else if s.anySink && s.bit R.CHG_STATUS.SUSP 2 then batIdeal
  else if s.anySink && s.get R.MOD_BAT_MEAS.VBAT < s.get R.MOD_VSYS_CFG.VSYS_MIN then batLinear
  else batSwitch

/-- Sets the BATFET's state by R87. -/
def State.restoreBat (s : State) : State :=
  { s.set R.MOD_BATFET_STATUS.STATE s.batRule with path := { s.path with fastOn := false } }

/-- Enters FAULT with a cause (R122, R129): charging stops and the cycle ends. -/
def State.chgFault (s : State) (cause : Nat) : State :=
  let s := s.endCycle.zeroCharge
  let s := (s.set R.CHG_STATUS.FAULT cause).set R.CHG_FAULT.CAUSE cause
  s.setChgPhase 9

/-! ### The estimator's state (R126, R127) -/

/-- Estimator state codes. -/
def estLearning : Nat := 1
def estConverged : Nat := 2
def estHold : Nat := 3
def estLost : Nat := 4

/-- Sets the estimator's state, with a CHARGE event of kind 0x07 on a change. -/
def State.setEst (s : State) (n : Nat) : State :=
  if s.chg.est.state = n then s
  else { s with chg := { s.chg with est := { s.chg.est with state := n } } }.raiseCharge 0x07 (s.get R.CHG_STATUS.PHASE)

/-- Discards the live and saved estimator state (R127). -/
def State.discardEst (s : State) : State :=
  { s with chg := { s.chg with est := { state := s.chg.est.state }, saved := none } }.setEst
    (if s.pmEn then estLearning else 0)

/-- The estimator at a cycle's start (R127): unverified state is discarded, and saved state of the same PACK_ID is
restored into HOLD. -/
def State.cycleEst (s : State) : State :=
  if !s.pmEn then s.setEst 0
  else if s.chg.unverified && !s.chg.confirmed then
    { s.discardEst with chg := { s.discardEst.chg with unverified := false } }
  else
    match s.chg.saved with
    | some (pid, e) =>
      if pid = s.packId && s.chg.est.dataS = 0 then
        { s with chg := { s.chg with est := { e with state := s.chg.est.state, agreeS := 0 } } }.setEst estHold
      else if s.chg.est.state = 0 then s.setEst estLearning else s
    | none => if s.chg.est.state = 0 then s.setEst estLearning else s

/-! ### Cycles (R105, R115) -/

/-- Starts the presence probe: the BATFET becomes an ideal diode and VBAT is loaded (R105). -/
def State.startProbe (s : State) (vbat : Nat) (start : Bool) : State :=
  { s.set R.MOD_BATFET_STATUS.STATE batIdeal with
      chg := { s.chg with probe := some vbat, probeStart := start }, path := { s.path with fastOn := false } }

/-- A charge cycle may start (R115). -/
def State.mayCycle (s : State) : Bool :=
  s.anySink && s.packPresent && s.bat != batOff && !s.on R.CHG_STATUS.STOPPED && !s.on R.CHG_STATUS.CYCLE &&
    s.get R.CHG_STATUS.PHASE != 0 && s.get R.CHG_STATUS.PHASE != 9 && !s.inSafe

/-- Starts a cycle where R115 lets it: timers and RUN_LIM reset, the probe runs, and the phase follows it. -/
def State.startCycle (s : State) : State :=
  if !s.mayCycle then s
  else
    let s := ((s.set R.CHG_TIMER.FAST 0).set R.CHG_TIMER.PRE 0).set R.CHG_FAULT.RUN_LIM 0
    let s := ((s.set R.CHG_STATUS.CYCLE 1).set R.CHG_STATUS.STEP 0).setBit R.CHG_STATUS.SUSP 0 false
    let s := { s with chg := { s.chg with fastMs := 0, preMs := 0, cvMs := 0, prbs := 0x7FF, plus := true, iLog := [] } }
    s.cycleEst.startProbe (s.get R.MOD_BAT_MEAS.VBAT) true

/-- A sink port is connected (R115): a waiting cycle resumes, else one starts. -/
def State.inputConnected (s : State) : State :=
  let s := s.setBit R.CHG_STATUS.SUSP 0 false
  let s := if s.packPresent && s.bat = batSwitch then s.restoreBat else s
  if s.on R.CHG_STATUS.CYCLE && s.get R.CHG_STATUS.PHASE = 2 then s.pickPhase else s.startCycle

/-- A sink attach after a FAULT by timer expiry leaves FAULT, and a cycle starts where an input is connected (R115,
R122). -/
def State.attachRestart (s : State) : State :=
  if s.get R.CHG_STATUS.PHASE = 9 && (s.get R.CHG_STATUS.FAULT = 1 || s.get R.CHG_STATUS.FAULT = 2) then
    ((s.set R.CHG_STATUS.FAULT 0).setChgPhase 2).startCycle
  else s

/-! ### Taps (R104) -/

/-- TAP_DETECT (R104): every used cell in range, the sum agreeing with VBAT. -/
def execTapDetect (s : State) : Res := .next <|
  s.when s.packPresent fun s => s.set R.CHG_STATUS.TAPS 1

/-- TAP_FAULT (R104, R129). -/
def execTapFault (s : State) : Res := .next <|
  s.when (s.tapsUsed && s.get R.CHG_STATUS.PHASE != 9) fun s => s.chgFault 4

/-! ### Presence (R105, R106) -/

/-- The pack is declared absent (R105). -/
def State.packAbsent (s : State) : State :=
  let s := s.endCycle.zeroCharge
  let s := (s.set R.CHG_PACK_STATUS.PRESENT 0).set R.MOD_BATFET_STATUS.STATE batOff
  let s := s.set R.CHG_STATUS.TAPS 0
  let s := { s with chg := { s.chg with probe := none, probeStart := false, unverified := true, confirmed := false },
                    path := { s.path with fastOn := false } }
  s.chgEvent 1 0x04

/-- PACK_NTC_OPEN (R105). -/
def execPackNtcOpen (s : State) : Res := .next <|
  s.when (s.packPresent && s.on R.CHG_TEMP_CFG.PRES_NTC) fun s => s.packAbsent

/-- PACK_PROBE_IDLE_START (R105). -/
def execPackProbeIdleStart (vbat : Nat) (s : State) : Res := .next <|
  s.when (s.packPresent && s.chg.probe.isNone && 3 ≤ s.get R.CHG_STATUS.PHASE && s.get R.CHG_STATUS.PHASE ≤ 5) fun s =>
    (s.setSat R.MOD_BAT_MEAS.VBAT vbat).startProbe vbat false

/-- The probe ends with the pack present: the BATFET follows R87 again, and a starting cycle chooses its phase. -/
def State.probePassed (s : State) : State :=
  let start := s.chg.probeStart
  let s := { s with chg := { s.chg with probe := none, probeStart := false } }.restoreBat
  if start && s.on R.CHG_STATUS.CYCLE then (if s.anySink then s.pickPhase else s.chargeInputLost) else s

/-- PACK_PROBE_DONE (R105): present when VBAT fell by less than 200 mV. -/
def execPackProbeDone (vbat : Nat) (s : State) : Res := .next <|
  s.when s.chg.probe.isSome fun s =>
    if s.chg.probe.getD 0 < vbat + 200 then s.probePassed else s.packAbsent

/-- PACK_ABSENT_POLL (R106): VBAT is checked. -/
def execPackAbsentPoll (vbat : Nat) (s : State) : Res := .next <|
  s.when (!s.packPresent && s.bat = batOff) fun s => s.setSat R.MOD_BAT_MEAS.VBAT vbat

/-- PACK_INSERT (R106): the pack is declared present, and VSYS is brought toward VBAT. -/
def execPackInsert (vbat : Nat) (ntcOpen : Bool) (s : State) : Res := .next <|
  s.when (!s.packPresent && s.bat = batOff && vbat ≥ 1000 && !ntcOpen && s.get R.CHG_STATUS.PHASE != 0) fun s =>
    let s := ((s.setSat R.MOD_BAT_MEAS.VBAT vbat).set R.CHG_PACK_STATUS.PRESENT 1).fillCredit
    { s with chg := { s.chg with inserting := true } }.chgEvent 2 0x05

/-- PACK_INSERT_CONNECT (R106): VSYS within 100 mV of VBAT; the BATFET is set, the tap check runs, a cycle starts. -/
def execPackInsertConnect (vsys vbat : Nat) (s : State) : Res := .next <|
  s.when (s.chg.inserting && within vsys vbat 100) fun s =>
    let s := (s.setSat R.MOD_BAT_MEAS.VBAT vbat).setSat R.MOD_VSYS_STATUS.VSYS vsys
    let s := { s with chg := { s.chg with inserting := false } }
    s.restoreBat.startCycle

/-! ### The profile (R108, R109) -/

/-- A byte list with the `n` little-endian bytes of a value at an offset. -/
def putBytes (bs : List Byte) (k n v : Nat) : List Byte := bs.take k ++ leBytes n v ++ bs.drop (k + n)

/-- The range of a profile field for a stored value: offset, size, lowest and highest (R107). -/
def profRanges (bs : List Byte) : List (Nat × Nat × Nat × Nat) :=
  [(0x08, 1, 1, 5),
   (0x0A, 2, if leAt bs 0x0A 2 = 0 then 0 else 500, 20000),
   (0x0C, 2, 3500, 4600), (0x0E, 2, 3500, 4600), (0x10, 2, 3500, 4600), (0x12, 2, 2500, 3600),
   (0x14, 2, 50, 2000), (0x16, 2, 50, 2000), (0x18, 2, 50, 300), (0x1A, 2, 0, 60), (0x1C, 2, 30, 240),
   (0x1E, 2, 60, 1440), (0x28, 1, 1, 8), (0x29, 1, 5, 100), (0x2A, 2, 5, 60)]

/-- The current fields of a profile: offsets of IPRE, ITERM and the used steps' currents (R108). -/
def profCurrents (n : Nat) : List Nat :=
  [0x14, 0x16] ++ (List.range n).foldr (fun k acc => [0x32 + 8 * k, 0x34 + 8 * k, 0x36 + 8 * k] ++ acc) []

/-- A field held in its range: the bytes, and the field with its stored value when it was clamped. -/
def clampField (bs : List Byte) (k n lo hi : Nat) : List Byte × List (Nat × Nat) :=
  let c := clampTo lo hi (leAt bs k n)
  if c.2 then (putBytes bs k n c.1, [(k, c.1)]) else (bs, [])

/-- A profile with its numeric fields in range and its currents at or below the ICHG strap current, and the clamped
fields with their stored values (R9, R108). -/
def clampProfile (ichg : Nat) (bs : List Byte) : List Byte × List (Nat × Nat) :=
  let a := (profRanges bs).foldl (fun acc f =>
    let r := clampField acc.1 f.1 f.2.1 f.2.2.1 f.2.2.2
    (r.1, acc.2 ++ r.2)) (bs, [])
  (profCurrents (min 8 (byteAt a.1 0x28))).foldl (fun acc k =>
    let r := clampField acc.1 k 2 0 ichg
    (r.1, acc.2.filter (fun c => r.2.isEmpty || c.1 != k) ++ r.2)) a

/-- The clamped field of the lowest offset. -/
def firstClamped (cs : List (Nat × Nat)) : Nat × Nat :=
  cs.foldl (fun best c => if c.1 < best.1 then c else best) (cs.headD (0, 0))

/-- The band of the VCHG strap, in mV (R108). -/
def vchgBand (strap : Nat) : Nat := if strap = 0 then 4250 else if strap = 1 then 4400 else 4600

/-- Values that ascend strictly. -/
def ascends : List Int → Bool
  | a :: b :: t => a < b && ascends (b :: t)
  | _ => true

/-- The first check of R108 that a profile with stored values fails; none when it passes. -/
def profileCheck (cellStrap vchgStrap : Nat) (bs : List Byte) : Option Nat :=
  let v (k : Nat) : Nat := leAt bs k 2
  let zones := [v 0x0C, v 0x0E, v 0x10]
  let n := byteAt bs 0x28
  let high := zones.foldl max 0
  if byteAt bs 0x08 != cellStrap then some 1
  else if !(zones.all fun z => 3500 ≤ z && z ≤ vchgBand vchgStrap) || byteAt bs 0x08 * high > 23000 then some 2
  else if !ascends ([0x20, 0x22, 0x24, 0x26].map fun k => toSigned 16 (v k)) ||
      !ascends ((List.range n).map fun k => (v (0x30 + 8 * k) : Int)) then some 3
  else if bitAt (byteAt bs 0x09) 0 && (v 0x0A = 0 || v 0x2C + v 0x2E = 0) then some 4
  else if byteAt bs 0x09 / 4 != 0 then some 5
  else none

/-- The highest zone voltage in force, in mV. -/
def State.highZone (s : State) : Nat := max (s.prof16 0x0C) (max (s.prof16 0x0E) (s.prof16 0x10))

/-- COV_TH held at least 50 mV above the highest zone voltage in force (R118, R461). -/
def State.holdCov (s : State) : State :=
  if s.get R.CHG_COV_CFG.COV_TH < s.highZone + 50 then s.set R.CHG_COV_CFG.COV_TH (s.highZone + 50) else s

/-- Writes the profile's words into the read-back area (R134). -/
def State.writeProfile (s : State) (bs : List Byte) : State :=
  ((List.range 32).foldl (fun (s : State) k => s.set (R.CHG_PROFILE.W k) (leAt bs (4 * k) 4)) s).holdCov

/-- The estimator under a profile with the PACK_ID in force: LEARNING or OFF as PM_EN says (R126). -/
def State.estForProfile (s : State) : State :=
  if !s.pmEn then s.setEst 0 else if s.chg.est.state = 0 then s.setEst estLearning else s

/-- The words of an accepted profile go into force, and confirm the PACK_ID (R109, R127). -/
def State.installProfile (s : State) (bs : List Byte) : State :=
  let s := (s.writeProfile bs).set R.CHG_PACK_STATUS.PROFILE_OK 1
  { s with chg := { s.chg with pending := none, confirmed := true, unverified := false } }.raiseCharge 0x08
    (s.get R.CHG_STATUS.PHASE)

/-- A profile with a new PACK_ID ends the cycle, discards the estimator state, and starts a new cycle where R115 lets it
(R109, R115, R127). -/
def State.otherPack (s : State) (bs : List Byte) : State := ((s.endCycle.installProfile bs).discardEst).startCycle

/-- A profile with the PACK_ID in force: the cycle and its timers continue, and the step only rises (R109). -/
def State.samePack (s : State) (bs : List Byte) : State :=
  let s := (s.installProfile bs).estForProfile
  if s.on R.CHG_STATUS.CYCLE && s.charging then s.set R.CHG_STATUS.STEP (max (s.get R.CHG_STATUS.STEP) s.pickStep) else s

/-- An accepted profile takes effect (R109, R127). -/
def State.takeProfile (s : State) (bs : List Byte) : State :=
  if leAt bs 0 8 = s.packId then s.samePack bs else s.otherPack bs

/-- Applies a staged profile (R108, R131): accepted and pending, or refused with the first failing check. -/
def State.applyProfile (s : State) (bytes : List Byte) : CmdRes × State :=
  let r := clampProfile (s.get R.CHG_LIMIT.ICHG_STRAP * 2) (sliceBytes bytes 0 128)
  match profileCheck (s.get R.MOD_STRAP.CELL + 1) (s.get R.MOD_STRAP.VCHG) r.1 with
  | some k => (.done { status := 0x11, diagCode := k },
      (s.raiseFault 0x06 0x3 0xFF k).raiseCharge 0x08 (s.get R.CHG_STATUS.PHASE))
  | none =>
    let s := { s with chg := { s.chg with pending := some r.1 } }
    if r.2.isEmpty then (ok, s)
    else
      let f := firstClamped r.2
      (.done { status := 0x01, diagCode := r.2.length, result := f.1 + 2 ^ 32 * f.2 }, s)

/-- CHARGE_PROFILE_LOAD on its parameters (R131). -/
def opChargeProfileLoad (c : Cmd) (s : State) : CmdRes × State :=
  let buf := if c.src = .ec then s.chg.bufEc else s.chg.bufHost
  let sec := c.byte 0
  let buf : ProfileBuf := if sec = 0 then {} else buf
  let bytes := sliceBytes buf.bytes 0 (32 * sec) ++ sliceBytes c.params 4 32 ++ buf.bytes.drop (32 * sec + 32)
  let buf : ProfileBuf := { bytes := bytes, sections := setBitAt buf.sections sec }
  let put (s : State) (b : ProfileBuf) : State :=
    if c.src = .ec then { s with chg := { s.chg with bufEc := b } } else { s with chg := { s.chg with bufHost := b } }
  if !bitAt (c.byte 1) 0 then (ok, put s buf)
  else if buf.sections != 15 then (fail 0x12, put s buf)
  else (put s {}).applyProfile buf.bytes

/-- CHARGE_PROFILE_LOAD (R131). -/
def execChargeProfileLoad (s : State) : Res := .next <| s.when true fun s => s.runCmd (isOp 0x20) opChargeProfileLoad

/-! ### The evaluation (R103, R111 to R114, R120, R121) -/

/-- The zone boundaries in 1/16 °C. -/
def State.zoneBounds (s : State) : List Int := [0x20, 0x22, 0x24, 0x26].map fun k => toSigned 16 (s.prof16 k)

/-- The zone of a temperature (R114): a rising temperature enters the warmer zone at the boundary, a falling one returns
2.0 °C below it. -/
def State.nextZone (s : State) (t : Int) (fault : Bool) : Nat :=
  if fault || s.get R.CHG_TEMP_CFG.PACK_NTC = 15 then 5
  else
    let cur := s.get R.CHG_STATUS.ZONE
    let up := (s.zoneBounds.filter fun b => t ≥ b).length
    let down := (s.zoneBounds.filter fun b => t > b - 32).length
    if cur = 5 || up > cur then up else min cur down

/-- The programmed target of R112 in mA, and whether the first-use cap binds. -/
def State.target (s : State) : Nat × Bool :=
  let ph := s.get R.CHG_STATUS.PHASE
  let cap := s.prof8 0x29 * s.prof16 0x0A / 100
  let learn := s.chg.est.state = estLearning || s.chg.est.state = estLost
  let base : Nat × Bool :=
    if ph = 3 then (100, false)
    else if ph = 4 then (s.prof16 0x14, false)
    else if (ph = 5 || ph = 6) && s.pmEn then
      (if learn && cap < s.stepI 0 then (cap, true) else (s.stepI 0, false))
    else if ph = 5 || ph = 6 then (s.stepI (s.get R.CHG_STATUS.STEP), false)
    else (0, false)
  (min base.1 (min (s.get R.CHG_LIMIT.ICHG_HOST * 2) (s.get R.CHG_LIMIT.ICHG_STRAP * 2)), base.2)

/-- A limiter bit binds in some sink group. -/
def State.limBinds (s : State) (k : Nat) : Bool :=
  (s.sinkConn 0 && s.bit (R.CNV_GRP_STATUS.LIMITER 0) k) || (s.sinkConn 1 && s.bit (R.CNV_GRP_STATUS.LIMITER 1) k)

/-- The VCHG limiter binds in every sink group (R111, R116). -/
def State.vchgBinds (s : State) : Bool :=
  s.anySink && (!s.sinkConn 0 || s.bit (R.CNV_GRP_STATUS.LIMITER 0) 4) &&
    (!s.sinkConn 1 || s.bit (R.CNV_GRP_STATUS.LIMITER 1) 4)

/-- The limiter classes of R121 that bind, with the target of R112. -/
def State.limClasses (s : State) (tgt : Nat) : Nat :=
  let ph := s.get R.CHG_STATUS.PHASE
  let plating := s.pmEn && (ph = 5 || ph = 6) && (match s.chg.est.iPlate with | some m => decide (m < tgt) | none => false)
  8 * ofBool (s.limBinds 7 || s.limBinds 6) + 4 * ofBool (s.limBinds 0) + 2 * ofBool (s.limBinds 3 || s.limBinds 1) +
    ofBool plating

/-- Largest LINEAR charge current in mA (R87). -/
def State.linMax (s : State) : Option Nat :=
  if s.bat != batLinear then none
  else
    let d := s.get R.MOD_VSYS_STATUS.VSYS - s.get R.MOD_BAT_MEAS.VBAT
    if d = 0 then none else some (s.get R.MOD_BATFET_CFG.PLIN_MAX * 1000 / d)

/-- The set point of R112 in mA: it falls at once and rises by at most 1 A/ms. -/
def State.setPoint (s : State) (tgt : Nat) : Int :=
  let ph := s.get R.CHG_STATUS.PHASE
  let want : Int := match s.chg.est.iPlate with | some m => if s.pmEn && (ph = 5 || ph = 6) then min (tgt : Int) m else tgt | none => tgt
  let want : Int := match s.chg.ceil with | some m => min want m | none => want
  let want : Int := match s.linMax with | some m => min want m | none => want
  let want : Int := if s.chg.forcedZero then 0 else want
  min want (s.geti R.CHG_CURRENT.I_SET * 2 + 10000)

/-- The measurements of an evaluation (R103). A pack past the precharge threshold ends a dead-battery start (R41). -/
def State.evalMeas (s : State) (v : ChargeSample) : State :=
  let s := (s.setSat R.MOD_BAT_MEAS.VBAT v.vbat).seti R.MOD_BAT_MEAS.IBAT (v.ibat / 2)
  let n := max 1 s.cells
  let used := v.cells.take n
  let hi := if s.tapsUsed then used.foldl max 0 else v.vbat / n
  let lo := if s.tapsUsed then used.foldl min (used.headD 0) else v.vbat / n
  let s := { s with chg := { s.chg with vHi := hi, vLo := lo, iLog := (v.ibat :: s.chg.iLog).take 100 } }
  let s := s.setSat R.CHG_VOLTAGE.VCELL_HI hi
  let s := (List.range n).foldl (fun (s : State) k =>
    s.setSat (R.CHG_CELL_V.VCELL k) (if s.tapsUsed then v.cells.getD k 0 else if k = 0 then v.vbat / n else 0)) s
  let s := (s.seti R.CHG_PACK_STATUS.TPACK v.tpack).setb R.CHG_PACK_STATUS.NTC_FAULT v.ntcFault
  let s := s.set R.CHG_STATUS.ZONE (s.nextZone v.tpack v.ntcFault)
  if s.packPresent && s.prof16 0x12 ≤ lo then s.set R.MOD_MODE_STATUS.DB_START 0 else s

/-- Suspends or resumes by the zone, and shows a missing input (R111, R114, R133). -/
def State.evalZone (s : State) : State :=
  let z := s.get R.CHG_STATUS.ZONE
  let s := (s.setBit R.CHG_STATUS.SUSP 3 (z = 0 || z = 4 || z = 5)).setBit R.CHG_STATUS.SUSP 0 (!s.anySink)
  if s.charging && s.suspended then (s.setChgPhase 8).zeroCharge
  else if s.get R.CHG_STATUS.PHASE = 8 && !s.suspended && s.anySink && s.on R.CHG_STATUS.CYCLE then s.pickPhase
  else s

/-- A pending profile applies, but waits in SUSPENDED and FAULT (R109, R130). -/
def State.evalProfile (s : State) : State :=
  match s.chg.pending with
  | none => s
  | some bs => if s.get R.CHG_STATUS.PHASE = 8 || s.get R.CHG_STATUS.PHASE = 9 then s else s.takeProfile bs

/-- Ten milliseconds of the safety timers, at half rate while R121 says so (R120). -/
def State.evalTimers (s : State) : State :=
  let ph := s.get R.CHG_STATUS.PHASE
  let d := if s.on R.CHG_STATUS.HALF_RATE then 5 else 10
  let s := { s with chg := { s.chg with
    preMs := if ph = 3 || ph = 4 then s.chg.preMs + d else s.chg.preMs,
    fastMs := if ph = 5 || ph = 6 then s.chg.fastMs + d else s.chg.fastMs,
    cvMs := if ph = 6 then s.chg.cvMs + d else s.chg.cvMs } }
  (s.setSat R.CHG_TIMER.FAST (s.chg.fastMs / 2000)).setSat R.CHG_TIMER.PRE (s.chg.preMs / 2000)

/-- Target, set point and limiter classes (R112, R121). -/
def State.evalCurrent (s : State) : State :=
  let t := s.target
  let ph := s.get R.CHG_STATUS.PHASE
  let s := s.setb R.CHG_STATUS.PM_ACTIVE (s.pmEn && (ph = 5 || ph = 6))
  let s := s.setb R.CHG_STATUS.LEARN_CAP t.2
  let s := s.setb R.MOD_BATFET_STATUS.LIN_FOLD (match s.linMax with | some m => m < t.1 | none => false)
  let set := s.setPoint t.1
  let s := (s.seti R.CHG_CURRENT.I_TGT ((t.1 : Int) / 2)).seti R.CHG_CURRENT.I_SET (set / 2)
  let lim := if s.charging then s.limClasses t.1 else 0
  let s := s.set R.CHG_STATUS.LIM lim
  let s := if s.on R.CHG_STATUS.CYCLE then s.set R.CHG_FAULT.RUN_LIM (s.get R.CHG_FAULT.RUN_LIM ||| lim) else s
  let n : Int := max 1 s.chg.iLog.length
  let avg := s.chg.iLog.foldl (· + ·) 0 / n
  s.setb R.CHG_STATUS.HALF_RATE (s.charging && lim != 0 && avg < (t.1 : Int) - max (t.1 / 50) 20)

/-- CHARGER_EVAL (R103, R109, R111 to R114, R120, R121). -/
def execChargerEval (v : ChargeSample) (s : State) : Res := .next <|
  s.when true fun s => (((s.evalMeas v).evalProfile).evalZone).evalCurrent.evalTimers

/-! ### Phase moves (R111, R115 to R117) -/

/-- CHG_TRICKLE_TO_PRECHARGE (R111). -/
def execChgTrickleToPrecharge (s : State) : Res := .next <|
  s.when (s.get R.CHG_STATUS.PHASE = 3 && s.chg.vLo ≥ 2200) fun s => s.setChgPhase 4

/-- CHG_PRECHARGE_TO_CC (R111). -/
def execChgPrechargeToCc (s : State) : Res := .next <|
  s.when (s.get R.CHG_STATUS.PHASE = 4 && s.chg.vLo ≥ s.prof16 0x12) fun s =>
    (s.set R.CHG_STATUS.STEP (max (s.get R.CHG_STATUS.STEP) s.pickStep)).setChgPhase 5

/-- CHG_CC_TO_PRECHARGE (R111). -/
def execChgCcToPrecharge (s : State) : Res := .next <|
  s.when (s.get R.CHG_STATUS.PHASE = 5 && s.chg.vLo + 100 < s.prof16 0x12) fun s => s.setChgPhase 4

/-- CHG_STEP_ADVANCE (R111). -/
def execChgStepAdvance (s : State) : Res := .next <|
  s.when (s.get R.CHG_STATUS.PHASE = 5 && s.chg.vHi ≥ s.stepV (s.get R.CHG_STATUS.STEP) &&
      s.get R.CHG_STATUS.STEP + 1 < s.nSteps) fun s =>
    s.set R.CHG_STATUS.STEP (s.get R.CHG_STATUS.STEP + 1)

/-- CHG_CC_TO_CV (R111): the perturbation stops. -/
def execChgCcToCv (s : State) : Res := .next <|
  s.when (s.get R.CHG_STATUS.PHASE = 5 && s.vchgBinds) fun s => s.setChgPhase 6

/-- CHG_TERMINATE (R116, R127). -/
def execChgTerminate (s : State) : Res := .next <|
  s.when (s.get R.CHG_STATUS.PHASE = 6 && s.chg.cvMs ≥ s.prof16 0x1A * 60000 &&
      s.geti R.MOD_BAT_MEAS.IBAT * 2 < s.prof16 0x16 && s.vchgBinds) fun s =>
    s.endCycle.zeroCharge.chgEvent 7 0x06

/-- CHG_RECHARGE (R117). -/
def execChgRecharge (s : State) : Res := .next <|
  s.when (s.get R.CHG_STATUS.PHASE = 7 && s.chg.vHi + s.prof16 0x18 < s.zoneVolt) fun s => s.startCycle

/-- CHG_NO_INPUT_END (R115). -/
def execChgNoInputEnd (s : State) : Res := .next <|
  s.when (!s.anySink && s.on R.CHG_STATUS.CYCLE) fun s => s.endCycle.set R.CHG_STATUS.STEP 0

/-! ### Cell over-voltage (R118, R119) -/

/-- Trips on record within the last 24 h. -/
def State.recentTrips (s : State) : List Nat := s.chg.trips.filter fun t => s.ts < t + tsSec 86400

/-- A third trip within 24 h of the first latches the pack (R119); a FAULT that stands keeps its cause (R130). -/
def State.covLatch (s : State) : State :=
  if s.recentTrips.length < 3 then s
  else
    let s := s.set R.CHG_COV_STATUS.LATCH 1
    if s.get R.CHG_STATUS.PHASE = 9 then s else s.chgFault 3

/-- CELL_OV_TRIP (R118, R119): the comparators that assert, cell 1 for the pack-level one. -/
def execCellOvTrip (cells : Fin 32) (s : State) : Res := .next <|
  s.when (cells.val != 0) fun s =>
    let mask := if s.tapsUsed then cells.val else 1
    let first := s.get R.CHG_COV_STATUS.ACTIVE = 0
    let s := s.set R.CHG_COV_STATUS.ACTIVE (s.get R.CHG_COV_STATUS.ACTIVE ||| mask)
    let s := s.set R.CHG_COV_STATUS.SEEN (s.get R.CHG_COV_STATUS.SEEN ||| mask)
    let s := s.setBit R.CHG_STATUS.SUSP 2 true
    let s := if first then { s with chg := { s.chg with trips := (s.ts :: s.recentTrips).take 3 } } else s
    let s := s.set R.CHG_FAULT.COV_TRIPS s.recentTrips.length
    let s := if s.anySink && s.bat != batOff then s.restoreBat else s
    let s := s.zeroCharge
    let s := if s.charging then s.chgEvent 8 0x02 else s.raiseCharge 0x02 (s.get R.CHG_STATUS.PHASE)
    if first then s.covLatch else s

/-- CELL_OV_CLEAR (R119): the trip ends, the BATFET follows R87, the cycle resumes. -/
def execCellOvClear (s : State) : Res := .next <|
  s.when (s.get R.CHG_COV_STATUS.ACTIVE != 0) fun s =>
    let s := (s.set R.CHG_COV_STATUS.ACTIVE 0).setBit R.CHG_STATUS.SUSP 2 false
    let s := if s.bat = batIdeal && s.chg.probe.isNone then s.restoreBat else s
    let s := s.raiseCharge 0x03 (s.get R.CHG_STATUS.PHASE)
    if s.get R.CHG_STATUS.PHASE = 8 && !s.suspended && s.on R.CHG_STATUS.CYCLE && s.anySink then s.pickPhase else s

/-! ### Safety timers and faults (R120, R122, R129) -/

/-- FAST_TIMER_EXPIRY (R122). -/
def execFastTimerExpiry (s : State) : Res := .next <|
  s.when (s.chg.fastMs ≥ s.prof16 0x1E * 60000 && s.on R.CHG_STATUS.CYCLE) fun s => s.chgFault 1

/-- PRE_TIMER_EXPIRY (R122). -/
def execPreTimerExpiry (s : State) : Res := .next <|
  s.when (s.chg.preMs ≥ s.prof16 0x1C * 60000 && s.on R.CHG_STATUS.CYCLE) fun s => s.chgFault 2

/-- CHG_OVERCURRENT (R129). -/
def execChgOvercurrent (s : State) : Res := .next <|
  s.when (s.charging &&
      s.geti R.MOD_BAT_MEAS.IBAT * 2 * 10 > s.geti R.CHG_CURRENT.I_SET * 2 * 12 + 5000) fun s => s.chgFault 5

/-- PACK_OV_SUSPEND (R129). -/
def execPackOvSuspend (vbat : Nat) (s : State) : Res := .next <|
  s.when (s.charging && vbat > s.cells * s.zoneVolt + 100) fun s =>
    let s := (s.setSat R.MOD_BAT_MEAS.VBAT vbat).setBit R.CHG_STATUS.SUSP 1 true
    (s.setChgPhase 8).zeroCharge

/-- PACK_OV_CLEAR (R129). -/
def execPackOvClear (vbat : Nat) (s : State) : Res := .next <|
  s.when (s.bit R.CHG_STATUS.SUSP 1 && vbat < s.cells * s.zoneVolt) fun s =>
    let s := (s.setSat R.MOD_BAT_MEAS.VBAT vbat).setBit R.CHG_STATUS.SUSP 1 false
    if s.get R.CHG_STATUS.PHASE = 8 && !s.suspended && s.on R.CHG_STATUS.CYCLE && s.anySink then s.pickPhase else s

/-! ### Plating-margin charging (R123 to R127) -/

/-- The perturbation runs (R123). -/
def State.perturbs (s : State) : Bool :=
  s.get R.CHG_STATUS.PHASE = 5 && s.pmEn && s.geti R.CHG_CURRENT.I_SET * 2 ≥ 500 && s.fwRuns

/-- One step of the 11-bit PRBS of x^11 + x^9 + 1. -/
def prbsNext (r : Nat) : Nat := (r * 2 + (if bitAt r 10 != bitAt r 8 then 1 else 0)) % 2048

/-- PRBS_STEP (R123): the sign follows the PRBS output. -/
def execPrbsStep (s : State) : Res := .next <|
  s.when s.perturbs fun s =>
    { s with chg := { s.chg with plus := bitAt s.chg.prbs 10, prbs := prbsNext s.chg.prbs } }

/-- UA at an open-circuit voltage in mV (R107, R125): linear between eight points from VPRE to VCHG_NORMAL, held at the
ends, in 0.1 mV. -/
def State.uaAt (s : State) (ocv : Int) : Int :=
  let lo : Int := s.prof16 0x12
  let hi : Int := s.prof16 0x0E
  let ua (k : Nat) : Int := s.prof16 (0x70 + 2 * k) * 10
  if ocv ≤ lo || hi ≤ lo then ua 0
  else if ocv ≥ hi then ua 7
  else
    let x := (ocv - lo) * 7
    let k := (x / (hi - lo)).toNat
    ua k + (ua (k + 1) - ua k) * (x - k * (hi - lo)) / (hi - lo)

/-- K_OHM·Rohm + K_CT·Rct of a cell, in 10 µΩ/65,536 units. -/
def State.anodeR (s : State) (c : CellEst) : Nat := s.prof16 0x2C * c.rohm + s.prof16 0x2E * c.rct

/-- R125 for one cell: its margin in 0.1 mV and its i_cell in mA, none where the anode resistance is 0. Values of the
previous update give ocv. -/
def State.cellPlate (s : State) (old : CellEst) (vcell : Nat) (cur : Int) (c : CellEst) : Int × Option Int :=
  let ocv := (vcell : Int) - cur * (old.rohm + old.rct : Nat) / 100000
  let ua := s.uaAt ocv
  let ra : Int := s.anodeR c
  let margin := ua - cur * ra / 65536 / 10000
  let plate : Int := s.prof16 0x2A * 10
  (margin, if ra = 0 then none else some ((ua - plate) * 65536 * 10000 / ra))

/-- The cell index values of a fit (R124). -/
def fitCell (f : FitSample) (k : Nat) : CellEst :=
  { rohm := max 50 (min 50000 (f.rohm.getD k 0)), rct := max 50 (min 50000 (f.rct.getD k 0)),
    tau := max 10 (min 10000 (f.tau.getD k 0)) }

/-- The state after a second (R126, R127). -/
def Estimator.nextState (e : Estimator) (perturb : Bool) : Nat :=
  if e.state = estLearning then (if e.dataS ≥ 60 && e.var < 50 then estConverged else estLearning)
  else if e.state = estConverged then
    (if e.highS ≥ 10 then estLost else if !perturb then estHold else estConverged)
  else if e.state = estHold then
    (if perturb && e.agreeS ≥ 10 then estConverged else estHold)
  else if e.state = estLost then (if e.dataS ≥ 60 && e.var < 50 then estConverged else estLost)
  else e.state

/-- I_PLATE of an update (R125): it falls at once and rises by at most 2 %, and the first one is taken as computed. -/
def nextPlate (old new : Option Int) : Option Int :=
  match old, new with
  | o, none => o
  | none, some n => some n
  | some o, some n => some (if n ≤ o then n else min n (o + max 1 (o / 50)))

/-- ESTIMATOR_UPDATE (R124 to R127): the fit's values, each cell's margin, I_PLATE falling at once and rising by at
most 2 %, and the state. The estimator does not advance while no firmware runs (R128). -/
def execEstimatorUpdate (f : FitSample) (s : State) : Res := .next <|
  s.when (s.pmEn && s.fwRuns && s.chg.est.state != 0) fun s =>
    let n := if s.tapsUsed then s.cells else 1
    let old := s.chg.est
    let go (e : Estimator × Option Int) (k : Fin 5) : Estimator × Option Int :=
      if k.val ≥ n then e
      else
        let c := fitCell f k
        let r := s.cellPlate (old.cells.get k) (f.vcell.getD k 0) f.cur c
        ({ e.1 with cells := e.1.cells.set k { c with margin := r.1 },
                    margin := if k = 0 then r.1 else min e.1.margin r.1 },
          match e.2, r.2 with
          | none, x => x
          | some a, none => some a
          | some a, some b => some (min a b))
    let r := [(0 : Fin 5), 1, 2, 3, 4].foldl go (old, none)
    let e := { r.1 with
      iPlate := nextPlate old.iPlate r.2,
      var := f.var,
      dataS := if f.perturb then min 4095 (old.dataS + 1) else old.dataS,
      highS := if f.var > 150 then old.highS + 1 else 0,
      agreeS := if f.perturb && f.agree then 10 else 0 }
    let e := if old.state = estHold && !f.perturb then { e with iPlate := old.iPlate } else e
    { s with chg := { s.chg with est := { e with state := old.state } } }.setEst (e.nextState f.perturb)

/-! ### The charge opcodes (R132) -/

/-- CHARGE_START. -/
def opChargeStart (_ : Cmd) (s : State) : CmdRes × State :=
  let ph := s.get R.CHG_STATUS.PHASE
  if ph = 9 || ph = 0 || ph = 1 then (fail 0x22, s) else (ok, (s.set R.CHG_STATUS.STOPPED 0).startCycle)

/-- CHARGE_STOP: the target falls to 0 mA and the charger waits in IDLE; a FAULT stays (R130). -/
def opChargeStop (_ : Cmd) (s : State) : CmdRes × State :=
  let s := (s.set R.CHG_STATUS.STOPPED 1).endCycle.zeroCharge
  (ok, if s.charging || s.get R.CHG_STATUS.PHASE = 8 || s.get R.CHG_STATUS.PHASE = 7 then s.setChgPhase 2 else s)

/-- CHARGE_RESTART_AFTER_FAULT. -/
def opChargeRestart (_ : Cmd) (s : State) : CmdRes × State :=
  if s.get R.CHG_STATUS.PHASE != 9 then (fail 0x22, s)
  else if s.on R.CHG_COV_STATUS.LATCH && s.get R.CHG_COV_STATUS.ACTIVE != 0 then (fail 0x22, s)
  else
    let s := if s.get R.CHG_STATUS.FAULT = 4 then s.set R.CHG_COV_CFG.TAPS_OFF 1 else s
    let s := if s.on R.CHG_COV_STATUS.LATCH then
        { (s.set R.CHG_COV_STATUS.LATCH 0).set R.CHG_FAULT.COV_TRIPS 0 with chg := { s.chg with trips := [] } }
      else s
    let s := (s.set R.CHG_STATUS.FAULT 0).set R.CHG_FAULT.RUN_LIM 0
    (ok, (s.setChgPhase 2).startCycle)

/-- One cell of the snapshot (R132, R134). -/
def State.snapCell (s : State) (k : Fin 5) : State :=
  let c := s.chg.est.cells.get k
  let s := (s.setSat (R.CHG_CELL_R.ROHM k) c.rohm).setSat (R.CHG_CELL_R.RCT k) c.rct
  (s.seti (R.CHG_CELL_M.MARGIN k) c.margin).setSat (R.CHG_CELL_M.TAU k) c.tau

/-- ESTIMATOR_READ. -/
def opEstimatorRead (_ : Cmd) (s : State) : CmdRes × State :=
  let e := s.chg.est
  let s := ((s.set R.CHG_EST_STATUS.STATE e.state).setSat R.CHG_EST_STATUS.DATA_S e.dataS).setSat R.CHG_EST_STATUS.VAR e.var
  let s := (s.seti R.CHG_EST_LIMIT.I_PLATE (e.iPlate.getD 0 / 2)).seti R.CHG_EST_LIMIT.MARGIN e.margin
  let n := if s.tapsUsed then s.cells else 1
  let s := [(0 : Fin 5), 1, 2, 3, 4].foldl (fun (s : State) k => if k.val < n then s.snapCell k else s) s
  let q := (s.get R.CHG_EST_STATUS.SNAP_SEQ + 1) % 256
  (.done { status := 0x00, result := q }, s.set R.CHG_EST_STATUS.SNAP_SEQ q)

/-- ESTIMATOR_RESET. -/
def opEstimatorReset (_ : Cmd) (s : State) : CmdRes × State := if s.pmEn then (ok, s.discardEst) else (fail 0x22, s)

/-- CHARGE_START (R132). -/
def execChargeStart (s : State) : Res := .next <| s.when true fun s => s.runCmd (isOp 0x21) opChargeStart

/-- CHARGE_STOP (R132). -/
def execChargeStop (s : State) : Res := .next <| s.when true fun s => s.runCmd (isOp 0x22) opChargeStop

/-- CHARGE_RESTART_AFTER_FAULT (R132). -/
def execChargeRestartAfterFault (s : State) : Res := .next <| s.when true fun s => s.runCmd (isOp 0x23) opChargeRestart

/-- ESTIMATOR_READ (R132). -/
def execEstimatorRead (s : State) : Res := .next <| s.when true fun s => s.runCmd (isOp 0x24) opEstimatorRead

/-- ESTIMATOR_RESET (R132). -/
def execEstimatorReset (s : State) : Res := .next <| s.when true fun s => s.runCmd (isOp 0x25) opEstimatorReset

end Sys2Proof.Machine
end

