-- ==== Sys2Proof/Machine/PdOps.lean ====
section
/-! DEFINITION. What the port commands share (07_type_c_and_pd_link.md, 08_pd_policy_engine.md): PDOs and RDOs in the
encoding of USB Power Delivery, messages and retries, the sink's choice of an offer, source offers, sequences that wait
for the line, VCONN, Hard Reset and Soft_Reset. -/

namespace Sys2Proof.Machine

/-! ### PDOs and RDOs (R189: the encodings of USB Power Delivery Revision 3.2; log entry 8) -/

/-- Bits of a 32-bit object: `n` bits from bit `lo`. -/
def objBits (w lo n : Nat) : Nat := w / 2 ^ lo % 2 ^ n

/-- A supply that an object describes, in mV, mA and mW. -/
inductive Supply where
  | fixed (v i : Nat)
  | pps (lo hi i : Nat)
  | avs (lo hi pdp : Nat)
  | other
  deriving DecidableEq, Repr

/-- The supply of a source or sink PDO. -/
def supplyOf (w : Nat) : Supply :=
  if objBits w 30 2 = 0 then .fixed (objBits w 10 10 * 50) (objBits w 0 10 * 10)
  else if objBits w 30 2 = 3 && objBits w 28 2 = 0 then
    .pps (objBits w 8 8 * 100) (objBits w 17 8 * 100) (objBits w 0 7 * 50)
  else if objBits w 30 2 = 3 && objBits w 28 2 = 1 then
    .avs (objBits w 8 8 * 100) (objBits w 17 9 * 100) (objBits w 0 8 * 1000)
  else .other

/-- A sink-table PDO admits a voltage (R192). -/
def admits (w v : Nat) : Bool :=
  match supplyOf w with
  | .fixed u _ => w != 0 && u = v
  | .pps lo hi _ => lo ≤ v && v ≤ hi
  | .avs lo hi _ => lo ≤ v && v ≤ hi
  | .other => false

/-- A choice of R192: position, kind (1 fixed, 2 PPS, 3 AVS), mV, mA, mW. -/
structure Offer where
  pos  : Nat
  kind : Nat
  v    : Nat
  i    : Nat
  p    : Nat
  deriving DecidableEq, Repr

/-- The RDO of a contract (position, Capability Mismatch, EPR Mode Capable, currents, voltage). -/
def rdoOf (pos kind v i : Nat) (mismatch epr : Bool) : Nat :=
  let head := pos * 2 ^ 28 + ofBool mismatch * 2 ^ 26 + ofBool epr * 2 ^ 22
  if kind = 1 then head + i / 10 * 2 ^ 10 + i / 10
  else if kind = 2 then head + v / 20 * 2 ^ 9 + i / 50
  else head + v / 100 * 4 * 2 ^ 9 + i / 50

/-! ### Port parts -/

/-- The port has the source power role. -/
def State.isSrc (s : State) (p : Fin 4) : Bool := s.get (R.PD_CC_STATUS.POWER_ROLE p) = 2

/-- PE_STATE of a port. -/
def State.peState (s : State) (p : Fin 4) : Nat := s.get (R.PD_PE_STATUS.PE_STATE p)

/-- TC_STATE of a port. -/
def State.tcState (s : State) (p : Fin 4) : Nat := s.get (R.PD_CC_STATUS.TC_STATE p)

/-- The port talks with its partner: its BMC receiver is on (R175). -/
def State.talks (s : State) (p : Fin 4) : Bool := (s.tc p).bmc && !s.wet p

/-- A list of words into a table array, the entries beyond it cleared. -/
def State.putTable (s : State) (reg : Nat → Fld) (first n : Nat) (ws : List Nat) : State :=
  (List.range n).foldl (fun (s : State) k => s.set (reg (first + k)) (ws.getD k 0)) s

/-- The words of a table array. -/
def State.table (s : State) (reg : Nat → Fld) (first n : Nat) : List Nat :=
  (List.range n).map fun k => s.get (reg (first + k))

/-! ### Messages (R179, R180) -/

/-- Gives a message to the protocol layer, which sends it. -/
def State.send (s : State) (p : Fin 4) (sop : Nat) (kind : MsgKind) (objs : List Nat) : State :=
  if !s.talks p then s
  else
    (s.modTc p fun x => { x with tx := some { sop := sop, kind := kind, objs := objs, retries := 0 } }).emit
      (.pd p { sop := sop, kind := kind, objs := objs })

/-- The partner's revision (R180): Revision 2.0 holds until detach or Hard Reset. -/
def State.noteRev (s : State) (p : Fin 4) (rev2 : Bool) : State :=
  if s.get (R.PD_PRL_STATUS.PARTNER_REV p) = 1 then s
  else s.set (R.PD_PRL_STATUS.PARTNER_REV p) (if rev2 then 1 else 2)

/-- The answer to a message that is not supported (R180). -/
def State.refuseKind (s : State) (p : Fin 4) : MsgKind :=
  if s.get (R.PD_PRL_STATUS.PARTNER_REV p) = 1 then .reject else .notSupported

/-- Sets what the engine awaits within tSenderResponse. -/
def State.awaits (s : State) (p : Fin 4) (q : PeSeq) : State := s.modPe p fun x => { x with await := q }

/-- The command in progress on the port completes. -/
def State.finishCmd (s : State) (p : Fin 4) (r : Reply) : State :=
  (s.modPe p fun x => { x with cmd := none, cmdSeq := .none }).completeOpt (s.pe p).cmd r

/-- The command completes whose sequence `q` is. -/
def State.finishFor (s : State) (p : Fin 4) (q : PeSeq) (r : Reply) : State :=
  if (s.pe p).cmdSeq = q then s.finishCmd p r else s

/-- The state that a swap, a BIST mode or a Soft_Reset returns to (R215). -/
def State.readyState (s : State) (p : Fin 4) : Nat :=
  if s.isSrc p then (if s.on (R.PD_PE_STATUS.EXPLICIT p) then 0x13 else 0x10)
  else if s.on (R.PD_PE_STATUS.EXPLICIT p) then 0x04 else 0x01

/-- The state after a Soft_Reset (R215). -/
def State.softState (s : State) (p : Fin 4) : Nat := if s.isSrc p then 0x10 else 0x01

/-- Raises a PD_STATE event with its flag in PDn.PE_EVENT. -/
def State.peEvent (s : State) (p : Fin 4) (f : Fld) (kind : Nat) : State := (s.set f 1).raisePd p kind 0 0

/-! ### KEEP-ALIVE entry (R30) -/

/-- An attach during the delay of a KEEP-ALIVE entry abandons it (R30). -/
def State.abandonKa (s : State) : State :=
  if s.md.entry = .ka then
    ({ s with md := { s.md with entry := .none }, csc := { s.csc with sleepN := none, refused := false } }.set R.MOD_MODE_STATUS.ENTRY_PENDING 0).raiseMode s.mode s.mode 0x02
  else s

/-! ### VCONN (R170, R171, R184) -/

/-- The port may source VCONN (R170, R171). -/
def State.mayVconn (s : State) (p : Fin 4) : Bool :=
  s.on (R.PD_TC_CFG.VCONN_EN p) && !s.wet p && !(s.tc p).vconnLock

/-- Starts cable discovery (R184). -/
def State.startDiscover (s : State) (p : Fin 4) : State :=
  (s.modTc p fun x => { x with discover := some 1 }).send p 1 .discoverIdentity []

/-- Cable discovery ends: the CABLE flag and event. -/
def State.endDiscover (s : State) (p : Fin 4) : State :=
  let s := s.modTc p fun x => { x with discover := none }
  (s.set (R.PD_EVENT.CABLE p) 1).raisePd p 0x0C 0 0

/-- VCONN turns on with Ra on the other pin (R171), and the cable is discovered. -/
def State.vconnOn (s : State) (p : Fin 4) : State :=
  if s.mayVconn p && s.on (R.PD_PE_STATUS.VCONN_SRC p) && (s.tc p).ra then
    ((s.set (R.PD_VCONN.ON p) 1).setb (R.PD_VCONN.PIN p) (!s.on (R.PD_CC_STATUS.POLARITY p))).startDiscover p
  else s

/-! ### The sink's choice (R192) -/

/-- The offer at a position, as R192 reads it; none where R192 skips it. -/
def State.readOffer (s : State) (p : Fin 4) (pos : Nat) : Option Offer :=
  let w := s.get (R.PD_PARTNER_SRC_PDO.W p (pos - 1))
  let iin := s.get (R.MOD_IN_CFG.IIN_MAX (if s.busOf p = some 1 then 1 else 0)) * 2
  let apdo := s.get (R.PD_PE_SNK_CFG.APDO_V p)
  let pps := s.on (R.PD_PE_CFG.PPS_EN p) && !s.md.standAlone && s.get (R.PD_PRL_STATUS.PARTNER_REV p) != 1
  if w = 0 then none
  else
    match supplyOf w with
    | .fixed v i => some { pos := pos, kind := 1, v := v, i := min i iin, p := v * min i iin }
    | .pps lo hi i =>
      if !pps then none
      else
        let v := max lo (min hi (apdo / 20 * 20))
        some { pos := pos, kind := 2, v := v, i := min i iin, p := v * min i iin }
    | .avs lo hi pdp =>
      if !pps || !s.on (R.PD_PE_STATUS.EPR_MODE p) then none
      else
        let v := max lo (min hi (apdo / 100 * 100))
        let i := min (pdp * 1000 / max 1 v) (min 5000 iin)
        some { pos := pos, kind := 3, v := v, i := i, p := v * i }
    | .other => none

/-- The offer's voltage is one that the port may take (R192). -/
def State.offerOk (s : State) (p : Fin 4) (o : Offer) : Bool :=
  o.v ≤ s.get (R.PD_PE_SNK_CFG.VMAX p) && o.v ≤ 48000 && (s.table (R.PD_SNK_PDO.W p) 0 11).any fun w => admits w o.v

/-- The offer is better than the best so far (R192); powers in µW, PMIN in mW. -/
def State.better (s : State) (p : Fin 4) (o b : Offer) : Bool :=
  let pmin := s.get (R.PD_PE_SNK_PMIN.PMIN p) * 1000
  if !s.on (R.PD_PE_CFG.PREF p) then o.p > b.p || (o.p = b.p && o.v > b.v)
  else (o.p ≥ pmin && (b.p < pmin || o.v < b.v)) || (b.p < pmin && o.p > b.p)

/-- The positions that R192 looks at; those of EPR mode only while EPR_EN stands (R198). -/
def State.positions (s : State) (p : Fin 4) : List Nat :=
  [1, 2, 3, 4, 5, 6, 7] ++ (if s.on (R.PD_PE_STATUS.EPR_MODE p) && s.on (R.PD_PE_CFG.EPR_EN p) then [8, 9, 10, 11] else [])

/-- The offer that R192 chooses: the best, else position 1 at its maximum current. -/
def State.chooseOffer (s : State) (p : Fin 4) : Offer :=
  let best := (s.positions p).foldl (fun (best : Option Offer) pos =>
    match s.readOffer p pos with
    | none => best
    | some o =>
      if !s.offerOk p o then best
      else
        match best with
        | none => some o
        | some b => if s.better p o b then some o else some b) none
  match best with
  | some o => o
  | none =>
    let i := match supplyOf (s.get (R.PD_PARTNER_SRC_PDO.W p 0)) with | .fixed _ i => i | _ => 0
    { pos := 1, kind := 1, v := 5000, i := i, p := 5000 * i }

/-- The position carries the voltage, and the current within it (R192). -/
def State.carries (s : State) (p : Fin 4) (h : HoldReq) : Bool :=
  let w := s.get (R.PD_PARTNER_SRC_PDO.W p (h.pos - 1))
  w != 0 && 1 ≤ h.pos && h.pos ≤ 11 &&
    match supplyOf w with
    | .fixed v i => (h.mv = 0 || h.mv = v) && h.ma ≤ i
    | .pps lo hi i => lo ≤ h.mv && h.mv ≤ hi && h.ma ≤ i
    | .avs lo hi pdp => lo ≤ h.mv && h.mv ≤ hi && h.mv * h.ma ≤ pdp * 1000
    | .other => false

/-- The contract that a hold asks for. -/
def State.heldOffer (s : State) (p : Fin 4) (h : HoldReq) : Offer :=
  let w := s.get (R.PD_PARTNER_SRC_PDO.W p (h.pos - 1))
  match supplyOf w with
  | .fixed v _ => { pos := h.pos, kind := 1, v := v, i := h.ma, p := v * h.ma }
  | .pps _ _ _ => { pos := h.pos, kind := 2, v := h.mv, i := h.ma, p := h.mv * h.ma }
  | _ => { pos := h.pos, kind := 3, v := h.mv, i := h.ma, p := h.mv * h.ma }

/-- Sends the Request of a choice (R192): RDO, EPR_Request in EPR mode, SNK_EVAL. -/
def State.request (s : State) (p : Fin 4) (o : Offer) : State :=
  let epr := s.on (R.PD_PE_STATUS.EPR_MODE p)
  let mismatch : Bool := o.p < s.get (R.PD_PE_SNK_PMIN.PMIN p) * 1000
  let rdo := rdoOf o.pos o.kind o.v o.i mismatch (s.on (R.PD_PE_CFG.EPR_EN p))
  let s := s.set (R.PD_RDO_SENT.W p) rdo
  let s := s.modPe p fun x =>
    { x with next := some { pos := o.pos, kind := o.kind, mv := o.v, ma := o.i, rdo := rdo }, seq := .request,
             kaPending := false,
             eprLeave := x.eprLeave || (epr && o.pos ≤ 7) }
  let s := if mismatch then s.peEvent p (R.PD_PE_EVENT.MISMATCH p) 0x0A else s
  let s := (s.setPe p 0x02).awaits p .request
  if epr then s.send p 0 .eprRequest [rdo, s.get (R.PD_PARTNER_SRC_PDO.W p (o.pos - 1))] else s.send p 0 .request [rdo]

/-- Chooses by the hold or by R192 and sends the Request; a hold that the capabilities no longer carry is released. -/
def State.evaluate (s : State) (p : Fin 4) : State :=
  match (s.pe p).hold with
  | none => s.request p (s.chooseOffer p)
  | some h =>
    if s.carries p h then s.request p (s.heldOffer p h)
    else
      let s := s.modPe p fun x => { x with hold := none }
      s.request p (s.chooseOffer p)

/-! ### Source offers (R199) -/

/-- Power in mW that bounds the source offers: the unit's and the port's limits, and the cut string in a shed or the
new-contract allowance (R144, R145, R199). -/
def State.offerPower (s : State) (p : Fin 4) : Nat :=
  let left := s.get R.MOD_SRC_PMAX_UNIT.PMAX - (s.srcPower - s.get (R.BGT_STR_SRC.P p))
  let pb := s.bgt.ports.get p
  let top := match pb.shed with
    | some sh => sh.cut
    | none => pb.bound.getD (s.allowance p)
  min top (min (s.get R.MOD_SRC_PMAX_PORT.PMAX) left)

/-- A source-table PDO as offered, none where it is left out (R199). -/
def State.offerPdo (s : State) (p : Fin 4) (k w : Nat) : Option Nat :=
  let pw := s.offerPower p
  let cable := if s.on (R.PD_CABLE.VALID p) then s.cableMa p else 3000
  let flags (w : Nat) : Nat :=
    if k = 0 then w % 2 ^ 23 + ofBool (s.get (R.PD_TC_CFG.ROLE p) = 2) * 2 ^ 29 else w
  match supplyOf w with
  | .fixed v i =>
    let i := min i (min cable (mwToMa' pw v))
    let i := if k = 0 then max i (mwToMa' (s.get R.BGT_SRC_FLOOR.FLOOR) 5000) else i
    if k != 0 && i < 500 then none else some (flags (w / 1024 * 1024 + i / 10))
  | .pps _ hi i =>
    let i := min i (min cable (mwToMa' pw hi))
    if i < 500 then none else some (w / 128 * 128 + i / 50)
  | _ => none
where
  mwToMa' (p v : Nat) : Nat := p * 1000 / max 1 v

/-- The offers of the port. -/
def State.offers (s : State) (p : Fin 4) : List Nat :=
  (List.range 7).filterMap fun k =>
    let w := s.get (R.PD_SRC_PDO.W p k)
    if w = 0 then none else s.offerPdo p k w

/-- Sends Source_Capabilities, and keeps them as last sent. -/
def State.sendSrcCaps (s : State) (p : Fin 4) : State :=
  let os := s.offers p
  let s := s.putTable (R.PD_OFFER_PDO.W p) 0 7 os
  let s := s.modPe p fun x => { x with capsCount := x.capsCount + 1, seq := .sourceCaps }
  s.send p 0 .sourceCaps os

/-! ### Chunks (R182) -/

/-- Extended header of chunk `k` of a message of `total` bytes (encoding of USB PD, log entry 8). -/
def extHeader (k total : Nat) (request : Bool) : Nat := 0x8000 + k * 2048 + ofBool request * 1024 + total

/-- Sends chunk `k` of a message: at most 26 of the bytes left. -/
def State.sendChunk (s : State) (p : Fin 4) (k : Nat) (x : ChunkXfer) : State :=
  let rest := x.data.drop 26
  let s := s.modTc p fun y => { y with chunk := if rest.isEmpty then none else some { x with data := rest } }
  s.send p 0 x.kind (extHeader k x.total false :: (x.data.take 26).map (fun b => b.toNat))

/-! ### Sequences (R181, R203) -/

/-- The contract in force, as the registers hold it. -/
def State.nowContract (s : State) (p : Fin 4) : Contract :=
  { pos := s.get (R.PD_PE_STATUS.OBJ_POS p), kind := s.get (R.PD_PE_STATUS.CONTRACT p),
    mv := s.get (R.PD_PE_CONTRACT.VOLTAGE p), ma := (s.geti (R.PD_PE_CONTRACT.CURRENT p)).natAbs * 2,
    rdo := s.get (R.PD_RDO_SENT.W p) }

/-- Sends the last Request again (R193, R196). -/
def State.resend (s : State) (p : Fin 4) : State :=
  let c := (s.pe p).next.getD (s.nowContract p)
  let rdo := s.get (R.PD_RDO_SENT.W p)
  let s := (s.modPe p fun x => { x with next := some c, seq := .request, kaPending := false }).setPe p 0x02
  let s := s.awaits p .request
  if s.on (R.PD_PE_STATUS.EPR_MODE p) then
    s.send p 0 .eprRequest [rdo, s.get (R.PD_PARTNER_SRC_PDO.W p (c.pos - 1))]
  else s.send p 0 .request [rdo]

/-- The Request of a sequence: a repeat of one that is pending, the hold's, or the last one again (R193, R196, R219). -/
def State.runRequest (s : State) (p : Fin 4) : State :=
  match (s.pe p).next, (s.pe p).hold with
  | none, some h => s.request p (s.heldOffer p h)
  | _, _ => s.resend p

/-- EPR_Mode (Enter) with the port's PDP, a value the spec does not state (R197). -/
def State.runEprEnter (s : State) (p : Fin 4) : State :=
  let pdp := s.draw
  let s := pdp.2.modPe p fun x => { x with seq := .eprEnter, eprStage := 1, eprTried := true }
  ((s.setPe p 0x06).awaits p .eprEnter).send p 0 .eprModeEnter [1, pdp.1.toNat % 256]

/-- The exit from EPR mode (R198): an SPR offer is requested first, then EPR_Mode (Exit) is sent. -/
def State.runEprExit (s : State) (p : Fin 4) : State :=
  if s.get (R.PD_PE_STATUS.OBJ_POS p) > 7 then
    let s := s.modPe p fun x => { x with hold := none, eprLeave := true }
    s.request p (s.chooseOffer p)
  else ((s.modPe p fun x => { x with eprLeave := false, seq := .none }).send p 0 .eprModeExit [5]).endEpr p

/-- Soft_Reset is sent (R193, R194, R215); a command whose sequence it ends completes with ABORTED (log entry 21). -/
def State.runSoftReset (s : State) (p : Fin 4) : State :=
  let s := s.finishCmd p { status := 0x31, diagCode := 1 }
  let s := s.modPe p fun x => { x with seq := .softReset, swapStage := 0, next := none, held := .none, heldMsg := none,
                                       waits := 0, eprStage := 0, eprLeave := false, later := [] }
  let s := s.modTc p fun x => { x with txId0 := 0, rxId0 := none, chunk := none }
  ((s.setPe p 0x26).awaits p .softReset).send p 0 .softReset []

/-- Marks a sequence as started, with the answer that it awaits. -/
def State.enterSeq (s : State) (p : Fin 4) (q : PeSeq) (stage : Nat) : State :=
  (s.modPe p fun x => { x with seq := q, swapStage := stage }).awaits p q

/-- Starts a sequence's first message. -/
def State.runSeq (s : State) (p : Fin 4) (q : PeSeq) : State :=
  match q with
  | .none => s
  | .request => s.runRequest p
  | .eprEnter => s.runEprEnter p
  | .eprExit => s.runEprExit p
  | .prSwap => (s.enterSeq p q 1).send p 0 .prSwap []
  | .vconnSwap => (s.enterSeq p q 1).send p 0 .vconnSwap []
  | .drSwap => ((s.enterSeq p q 1).setPe p 0x23).send p 0 .drSwap []
  | .frSwap => (s.enterSeq p q 1).send p 0 .frSwap []
  | .hostMsg =>
    match (s.pe p).heldMsg, (s.tc p).chunk with
    | some (sop, kind, objs), _ =>
      (s.modPe p fun x => { x with seq := .hostMsg, heldMsg := none }).send p sop kind objs
    | none, some x => if x.sending then (s.modPe p fun y => { y with seq := .hostMsg }).sendChunk p 0 x else s
    | none, none => s
  | .softReset => s.runSoftReset p
  | .keepAlive => (s.enterSeq p q 0).send p 0 .eprKeepAlive []
  | .getSourceCap => (s.enterSeq p q 0).send p 0 .getSourceCap []
  | .getSinkCap => (s.enterSeq p q 0).send p 0 .getSinkCap []
  | .getStatus => (s.enterSeq p q 0).send p 0 .getStatus []
  | .sourceCaps => s.sendSrcCaps p
  | .discover => s.startDiscover p

/-- The line is held for a sink that reads SinkTxNG, or for a source that must set it first (R181). -/
def State.mustHold (s : State) (p : Fin 4) : Bool :=
  s.on (R.PD_PE_STATUS.EXPLICIT p) && s.get (R.PD_PRL_STATUS.PARTNER_REV p) = 2 &&
    (s.isSrc p || s.get (R.PD_CC_STATUS.SINK_TX p) = 2)

/-- The sequences that wait on the port, in order. -/
def Policy.line (x : Policy) : List PeSeq := (if x.held = .none then [] else [x.held]) ++ x.later

/-- The policy engine with the sequences given waiting. -/
def Policy.withLine (x : Policy) (line : List PeSeq) : Policy := { x with held := line.headD .none, later := line.tail }

/-- A partner's message breaks off the sequence that a command started: the command completes with ABORTED (log entry 21). -/
def State.breakOff (s : State) (p : Fin 4) : State :=
  if (s.pe p).seq != .none && (s.pe p).cmdSeq = (s.pe p).seq then
    (s.finishCmd p { status := 0x31, diagCode := 1 }).modTc p fun x => { x with chunk := none }
  else s

/-- Starts a sequence of the port, or holds it: until the running one and those before it end, until SinkTxOK as sink, or
for tSinkTx after SinkTxNG as source. -/
def State.startSeq (s : State) (p : Fin 4) (q : PeSeq) : State :=
  if (s.pe p).seq != .none || (s.pe p).held != .none then
    s.modPe p fun x => if x.line.contains q then x else x.withLine (x.line ++ [q])
  else if s.mustHold p then
    let s := s.modPe p fun x => { x with held := q }
    if s.isSrc p then s.setTerm p (.rp 1) else s
  else s.runSeq p q

/-- Runs the sequence that the port holds (R181, R203). -/
def State.runHeld (s : State) (p : Fin 4) : State :=
  let q := (s.pe p).held
  (s.modPe p fun x => { x with held := .none }).runSeq p q

/-- A keep-alive falls due (R203, R214): during another sequence, or while one is held, it waits for that one's end. -/
def State.kaDue (s : State) (p : Fin 4) (q : PeSeq) : State :=
  if (s.pe p).seq != .none || (s.pe p).held != .none then s.modPe p fun x => { x with kaPending := true }
  else s.startSeq p q

/-- Which keep-alive the port's contract needs. -/
def State.kaSeq (s : State) (p : Fin 4) : PeSeq :=
  if s.on (R.PD_PE_STATUS.EPR_MODE p) then .keepAlive else .request

/-- The sequence of the port ends: a source returns to SinkTxOK (R181), and what waited for the end starts: a keep-alive
that fell due (R214), else the first of the sequences that wait. -/
def State.endSeq (s : State) (p : Fin 4) : State :=
  let due := (s.pe p).kaPending
  let line := (s.pe p).line
  let rest := if due then line else line.tail
  let s := s.modPe p fun x =>
    { x with seq := .none, await := .none, swapStage := 0, waits := 0, kaPending := false, held := .none, later := rest }
  let s := if s.isSrc p && s.on (R.PD_PE_STATUS.EXPLICIT p) && s.get (R.PD_PRL_STATUS.PARTNER_REV p) = 2 then
      s.setTerm p (.rp 2) else s
  let q := if due then s.kaSeq p else line.headD .none
  if q = .none then s else s.startSeq p q

/-- A swap completes (R205, R221). -/
def State.swapDone (s : State) (p : Fin 4) : State :=
  let q := (s.pe p).seq
  let s := (s.peEvent p (R.PD_PE_EVENT.SWAP p) 0x06).finishFor p q { status := 0x00 }
  s.endSeq p

/-! ### Hard Reset and Soft_Reset (R194, R210, R211) -/

/-- The role in which a Hard Reset acts (R211): during a PR_Swap or before a Fast Role Swap sources, the attach role. -/
def State.resetAsSource (s : State) (p : Fin 4) : Bool :=
  let st := s.peState p
  if st = 0x20 || st = 0x21 then (s.tc p).attachSrc else s.isSrc p

/-- Hard Reset as sink (R210): VCONN off, UFP, SNK_HARD_RESET; the pair opens and the input is lost. -/
def State.hardResetSink (s : State) (p : Fin 4) : State :=
  let s := (s.stopSource p 800).leaveBus p
  let s := if s.on (R.PD_PE_STATUS.VCONN_SRC p) then (s.vconnOff p).set (R.PD_PE_STATUS.VCONN_SRC p) 0 else s
  let s := ((s.set (R.PD_PE_STATUS.DATA_ROLE p) 0).set (R.PD_CC_STATUS.POWER_ROLE p) 1).setTerm p .rd
  ((s.setTc p 0x4).setPe p 0x07).autoSelect

/-- Hard Reset as source (R210): tPSHardReset runs. -/
def State.hardResetSource (s : State) (p : Fin 4) : State :=
  let s := if s.isSrc p then s else s.leaveBus p
  let s := (s.set (R.PD_CC_STATUS.POWER_ROLE p) 2).setTerm p (.rp (s.rpLevel p))
  (s.setTc p 0x7).setPe p 0x15

/-- Hard Reset of a Fast Role Swap whose new source already sources (R211): VBUS stays at vSafe5V. -/
def State.hardResetFrs (s : State) (p : Fin 4) : State :=
  let s := ((s.set (R.PD_CC_STATUS.POWER_ROLE p) 2).setTerm p (.rp (s.rpLevel p))).setTc p 0x7
  s.setPe p 0x10

/-- What every Hard Reset ends (R210). -/
def State.hardResetEnds (s : State) (p : Fin 4) : State :=
  let s := s.bump (R.PD_PRL_STATUS.HR_CNT p)
  let n := s.get (R.PD_PE_STATUS.HR_COUNT p)
  let s := s.set (R.PD_PE_STATUS.HR_COUNT p) (min 3 (n + 1))
  let s := s.peEvent p (R.PD_PE_EVENT.HARD_RESET p) 0x07
  let s := s.endPe p 0x31 1
  let s := s.modPe p fun x => { x with eprTried := false }
  let s := s.modTc p fun x => { x with txId0 := 0, txId1 := 0, rxId0 := none, rxId1 := none }
  let s := s.set (R.PD_PRL_STATUS.PARTNER_REV p) 0
  ((s.endEpr p).clearContract p).endString p

/-- A Hard Reset, sent or received (R210, R211). -/
def State.hardReset (s : State) (p : Fin 4) : State :=
  let st := s.peState p
  let asSrc := s.resetAsSource p
  let frs : Bool := st = 0x24 && s.sourcing p
  let cur := (s.pe p).frsCur
  let s := s.hardResetEnds p
  if frs then (s.modPe p fun x => { x with frsCur := cur }).hardResetFrs p
  else if asSrc then s.hardResetSource p
  else (s.modPe p fun x => { x with frsCur := false }).hardResetSink p

/-- Sends Hard Reset. -/
def State.sendHardReset (s : State) (p : Fin 4) : State := (s.emit (.pdHardReset p)).hardReset p

/-- Hard Reset, subject to R194: a port that is the only supply sends Soft_Reset, which ends EPR mode. -/
def State.resetLink (s : State) (p : Fin 4) : State :=
  if s.supplyOnly p then (s.endEpr p).runSeq p .softReset else s.sendHardReset p

/-- The port's source is up at vSafe5V (R97, R171, R205, R210): a fresh attach, the end of a swap or of a Hard Reset. -/
def State.sourceUp (s : State) (p : Fin 4) : State :=
  let st := s.peState p
  let s := s.modPe p fun x => { x with capsCount := 0 }
  if st = 0x21 then
    let s := ((s.set (R.PD_CC_STATUS.POWER_ROLE p) 2).setTc p 0x7).send p 0 .psRdy []
    ((s.modTc p fun x => { x with attachSrc := true }).setPe p 0x10).swapDone p
  else if st = 0x15 then ((s.set (R.PD_PE_STATUS.DATA_ROLE p) 1).set (R.PD_PE_STATUS.VCONN_SRC p) 1 |>.vconnOn p).setPe p 0x10
  else if s.tcState p = 0xE then s
  else (s.vconnOn p).setPe p 0x10

end Sys2Proof.Machine
end

