-- ==== Sys2Proof/Machine/Path.lean ====
section
/-! DEFINITION. The power path's commands (04_power_path.md): bus moves, INPUT_SELECT, the BATFET's comparators, input
drops and over-voltage, sourcing and its faults. -/

namespace Sys2Proof.Machine

/-! ### Bus moves (R77 to R81) -/

/-- The move of a bus ends with a sink port connected: its group starts and the charger has an input (R79, R115). -/
def State.sinkClosed (s : State) (b : Fin 2) (p : Fin 4) : State :=
  let s := (s.setConn b (some p)).modBus b fun x => { x with move := .idle, selMove := false }
  ((s.groupDir b false).groupStart b).inputConnected.finishSelect

/-- The pair of a sourcing port is closed (R97): the port sources at vSafe5V, and its bus follows the
contract. -/
def State.sourceClosed (s : State) (b : Fin 2) (p : Fin 4) : State :=
  let s := (s.setConn b (some p)).modBus b fun x => { x with move := .idle }
  ((s.modPath p fun x => { x with src := .on }).setBit R.MOD_MATRIX_STATUS.SRC p true).sourceUp p

/-- PAIR_TURN_ON_DONE (R77, R79, R97). -/
def execPairTurnOnDone (b : Fin 2) (s : State) : Res := .next <|
  s.when (match (s.path.buses.get b).move with | .closing _ _ => true | _ => false) fun s =>
    match (s.path.buses.get b).move with
    | .closing p _ => if s.busSources b then s.sourceClosed b p else s.sinkClosed b p
    | _ => s

/-- The bus whose pair must open first does not connect the port any more (R78, R79). -/
def State.freeToClose (s : State) (b : Fin 2) (t : Option (Fin 4)) : Bool :=
  match t with
  | none => true
  | some p => !(s.busConn (otherBus b) && s.busPort (otherBus b) = p)
where
  otherBus (b : Fin 2) : Fin 2 := if b = 0 then 1 else 0

/-- A bus stands empty after a move that names no port (R79, R80, R93). -/
def State.busEmptied (s : State) (b : Fin 2) : State :=
  let s := (s.groupStop b).modBus b fun x => { x with move := .idle, selMove := false }
  (s.handOver).finishSelect.autoSelect

/-- The old pair opens at 0 A, and the bus goes on to its new port (R79, steps 2 to 4). -/
def State.rampDone (s : State) (b : Fin 2) (t : Option (Fin 4)) (vin vbus : Nat) : State :=
  let s := if s.busConn b then (s.setConn b none).endInput (s.busPort b) else s
  let s := s.chargeInputLost
  match t with
  | none => s.busEmptied b
  | some p => if s.holdsSink p then s.closeOrSettle b p vin vbus else s.busEmptied b

/-- BUS_MOVE_RAMP_DONE (R79). -/
def execBusMoveRampDone (b : Fin 2) (vin vbus : Nat) (s : State) : Res := .next <|
  s.when (match (s.path.buses.get b).move with | .ramp t => s.freeToClose b t | _ => false) fun s =>
    match (s.path.buses.get b).move with
    | .ramp t => s.rampDone b t vin vbus
    | _ => s

/-- BUS_MOVE_BUS_SETTLED (R79): within 0.5 V the new pair closes by fast turn-on. -/
def execBusMoveBusSettled (b : Fin 2) (s : State) : Res := .next <|
  s.when (match (s.path.buses.get b).move with | .settle _ => true | _ => false) fun s =>
    match (s.path.buses.get b).move with
    | .settle p => (s.groupStop b).modBus b fun x => { x with move := .closing p true }
    | _ => s

/-! ### INPUT_SELECT (R81) -/

/-- The port that a parameter byte names. -/
def namedPort (v : Nat) : Option (Fin 4) := if h : v < 4 then some ⟨v, h⟩ else none

/-- A bus is named with its present port and left untouched (R81). -/
def State.namesPresent (s : State) (b : Fin 2) (v : Nat) : Bool :=
  match namedPort v with
  | none => false
  | some p => s.busConn b && s.busPort b = p && !s.busSources b

/-- Check 3 of R81: a named port holds a sink contract, and no sourcing port uses a bus that leaves automatic
selection (log entry 20). -/
def State.selWrongPort (s : State) (b : Fin 2) (v : Nat) : Bool :=
  (v != 0xFE && s.busSources b) ||
    match namedPort v with
    | none => false
    | some p => !s.holdsSink p

/-- Check 4 of R81. -/
def State.selNoPhase (s : State) (b : Fin 2) (v : Nat) : Bool := (namedPort v).isSome && !s.groupUsable b

/-- The command would open the connected sink pair of a bus. -/
def State.selOpens (s : State) (b : Fin 2) (v other : Nat) : Bool :=
  s.sinkConn b && !s.namesPresent b v && (v != 0xFE || namedPort other = some (s.busPort b))

/-- Check 2 of R81 on one bus. -/
def State.selUnfitted (s : State) (b : Fin 2) (v : Nat) : Bool :=
  match namedPort v with
  | none => false
  | some p => !s.fitted p b

/-- Selection state of a bus. -/
def State.setAuto (s : State) (b : Fin 2) (auto : Bool) : State :=
  if b = 0 then s.setb R.MOD_MATRIX_STATUS.A_AUTO auto else s.setb R.MOD_MATRIX_STATUS.B_AUTO auto

/-- Marks a bus move as the command's. -/
def State.markSel (s : State) (b : Fin 2) : State := s.modBus b fun x => { x with selMove := true }

/-- One bus of INPUT_SELECT (R79, R81); `leaves` says that its port is named for the other bus. -/
def State.selBus (s : State) (b : Fin 2) (v : Nat) (leaves : Bool) : State :=
  let s := s.setAuto b (v = 0xFE)
  match namedPort v with
  | none =>
    let s := s.modBus b fun x => { x with hostPort := none }
    if s.sinkConn b && (v = 0xFF || leaves) then (s.beginMove b none).markSel b
    else if v = 0xFF then s.modBus b fun x => { x with held := none, move := .idle }
    else s
  | some p =>
    let was := s.namesPresent b v
    let s := s.modBus b fun x => { x with hostPort := some p }
    if was then s
    else
      let s := s.modBus b fun x => { x with held := none }
      if s.sinkConn b || s.busConn (if b = 0 then 1 else 0) && s.busPort (if b = 0 then 1 else 0) = p then
        (s.beginMove b (some p)).markSel b
      else (s.beginConnect b p).markSel b

/-- INPUT_SELECT on its parameters (R81). -/
def opInputSelect (c : Cmd) (s : State) : CmdRes × State :=
  let a := c.byte 0
  let b := c.byte 1
  if s.path.inputSel.isSome then (fail 0x30, s)
  else if s.selUnfitted 0 a then (badField 0, s)
  else if s.selUnfitted 1 b then (badField 1, s)
  else if (namedPort a).isSome && namedPort a = namedPort b then (badField 1, s)
  else if s.selWrongPort 0 a then (failAt 0x22 0, s)
  else if s.selWrongPort 1 b then (failAt 0x22 1, s)
  else if s.selNoPhase 0 a then (failAt 0x22 0, s)
  else if s.selNoPhase 1 b then (failAt 0x22 1, s)
  else if s.bat = batOff && !(s.sinkConn 0 && s.sinkConn 1) && (s.selOpens 0 a b || s.selOpens 1 b a) then (fail 0x22, s)
  else
    let leaveA := s.busConn 0 && namedPort b = some (s.busPort 0)
    let leaveB := s.busConn 1 && namedPort a = some (s.busPort 1)
    let s := (s.selBus 0 a leaveA).selBus 1 b leaveB
    let begun := (s.path.buses.get 0).selMove || (s.path.buses.get 1).selMove
    let s := { s with path := { s.path with inputSel := some { handle := some c.handle, begun := begun } } }
    (.wait, s.autoSelect.finishSelect)

/-- INPUT_SELECT (R81). -/
def execInputSelect (s : State) : Res := .next <| s.when true fun s => s.runCmd (isOp 0x62) opInputSelect

/-- V_EXP_SETTLE (R82). -/
def execVExpSettle (p : Fin 4) (s : State) : Res := .next <|
  s.when ((s.path.ports.get p).trans.isSome && !s.isSrc p && s.peState p != 3) fun s => s.modPath p fun x => { x with trans := none }

/-! ### The BATFET (R87, R90) -/

/-- BATFET_TO_SWITCH (R87). -/
def execBatfetToSwitch (vbat : Nat) (s : State) : Res := .next <|
  s.when (s.bat = batLinear && vbat ≥ s.get R.MOD_VSYS_CFG.VSYS_MIN) fun s =>
    { (s.setSat R.MOD_BAT_MEAS.VBAT vbat).set R.MOD_BATFET_STATUS.STATE batSwitch with
        path := { s.path with fastOn := false } }

/-- BATFET_TO_LINEAR (R87): with an input connected, and no discharge. -/
def execBatfetToLinear (vbat : Nat) (s : State) : Res := .next <|
  s.when (s.bat = batSwitch && s.anySink && vbat + 200 < s.get R.MOD_VSYS_CFG.VSYS_MIN) fun s =>
    (s.setSat R.MOD_BAT_MEAS.VBAT vbat).set R.MOD_BATFET_STATUS.STATE batLinear

/-- BATFET_FAST_ON (R90); it ends a presence probe with the pack present (R105). -/
def execBatfetFastOn (s : State) : Res := .next <|
  s.when (s.bat = batLinear || s.bat = batIdeal) fun s =>
    let s := { s.set R.MOD_BATFET_STATUS.FASTON 1 with path := { s.path with fastOn := true } }
    if s.chg.probe.isSome then s.probePassed else s

/-- BATFET_REVERSE_OFF (R90). -/
def execBatfetReverseOff (s : State) : Res := .next <|
  s.when (s.bat = batIdeal && s.path.fastOn) fun s => { s with path := { s.path with fastOn := false } }

/-- BATFET_LINEAR_RESUME (R90). -/
def execBatfetLinearResume (s : State) : Res := .next <|
  s.when (s.bat = batLinear && s.path.fastOn) fun s => { s with path := { s.path with fastOn := false } }

/-! ### Input faults (R86, R93, R94, R99, R100) -/

/-- A FAULT event of the power path (R99, R245). -/
def State.pathFault (s : State) (cause : Nat) (p : Fin 4) (b : Fin 2) : State := s.raiseFault 0x03 cause p (b + 1)

/-- The group is the running partner of a parallel pair and finds a drop against the V_EXP that the owner sent (R330). -/
def State.parDrop (s : State) (b : Fin 2) (vin : Nat) : Bool :=
  s.csc.parRun && s.get R.CSC_PAR_CFG.GROUP = b && vin < max 3600 (s.get (R.MOD_IN_CFG.DROP_PCT b) * s.csc.parVexp / 100)

/-- The running partner of a parallel pair finds an over-voltage (R82, R330). -/
def State.parOvp (s : State) (b : Fin 2) (vin : Nat) : Bool :=
  s.csc.parRun && s.get R.CSC_PAR_CFG.GROUP = b && s.csc.parVexp * 115 / 100 < vin

/-- SINK_DROP (R86, R93, R94): the port's sink contract is lost; a running partner stops at once (R330). -/
def execSinkDrop (b : Fin 2) (vin : Nat) (s : State) : Res := .next <|
  s.when ((s.sinkConn b && vin < s.dropTh b (s.busPort b)) || (!s.sinkConn b && s.parDrop b vin)) fun s =>
    if !s.sinkConn b then ((s.setSat (R.MOD_IN_MEAS.VIN b) vin).set (R.MOD_IN_STATE.DROP b) 1).parStop
    else
    let p := s.busPort b
    let s := (s.setSat (R.MOD_IN_MEAS.VIN b) vin).set (R.MOD_IN_STATE.DROP b) 1
    let s := s.setBit R.MOD_MATRIX_STATUS.SNK p false
    let s := s.pathFault 0x1 p b
    (s.loseSink b).abortSelect.autoSelect

/-- A pair opens on a fault and its bus is held for the port (R99). -/
def State.openHeld (s : State) (b : Fin 2) (p : Fin 4) (why : HoldWhy) : State :=
  (s.loseSink b).modBus b fun x => { x with held := some (p, why) }

/-- The over-voltage trips of a port within the last 60 s, this one included. -/
def State.ovpRecent (s : State) (p : Fin 4) : List Nat :=
  s.ts :: (s.path.ports.get p).ovpTrips.filter fun t => s.ts < t + tsSec 60

/-- SINK_OVP (R99): the third trip within 60 s locks the port and releases the bus. -/
def execSinkOvp (b : Fin 2) (vin : Nat) (s : State) : Res := .next <|
  s.when ((s.sinkConn b && vin > s.ovpTh (s.busPort b)) || (!s.sinkConn b && s.parOvp b vin)) fun s =>
    if !s.sinkConn b then ((s.setSat (R.MOD_IN_MEAS.VIN b) vin).set (R.MOD_IN_STATE.OVP b) 1).parStop
    else
    let p := s.busPort b
    let trips := s.ovpRecent p
    let s := (s.setSat (R.MOD_IN_MEAS.VIN b) vin).set (R.MOD_IN_STATE.OVP b) 1
    let s := s.modPath p fun x => { x with ovpTrips := trips }
    let s := s.pathFault 0x2 p b
    if trips.length ≥ 3 then
      let s := (s.setBit R.MOD_PP_EVENT.OVP_LOCK p true).pathFault 0x7 p b
      (s.loseSink b).abortSelect.autoSelect
    else (s.openHeld b p .ovp).abortSelect

/-- A held bus connects its port again while the contract holds, else it is released (R99). -/
def State.reclose (s : State) (b : Fin 2) : State :=
  match (s.path.buses.get b).held with
  | none => s
  | some (p, _) =>
    let s := s.modBus b fun x => { x with held := none }
    if s.holdsSink p && s.groupUsable b then s.beginConnect b p else s.autoSelect

/-- SINK_OVP_RECLOSE (R99). -/
def execSinkOvpReclose (b : Fin 2) (s : State) : Res := .next <|
  s.when (match (s.path.buses.get b).held with | some (_, .ovp) => true | _ => false) fun s => s.reclose b

/-- SINK_REVERSE (R99): IIN below −1.0 A. -/
def execSinkReverse (b : Fin 2) (iin : Int) (s : State) : Res := .next <|
  s.when (s.sinkConn b && iin < -1000) fun s =>
    let p := s.busPort b
    let s := (s.seti (R.MOD_IN_MEAS.IIN b) (iin / 2)).set (R.MOD_IN_STATE.REV b) 1
    let s := s.pathFault 0x3 p b
    (s.openHeld b p .rev).abortSelect

/-- SINK_REV_RECONNECT (R99). -/
def execSinkRevReconnect (b : Fin 2) (s : State) : Res := .next <|
  s.when (match (s.path.buses.get b).held with | some (_, .rev) => true | _ => false) fun s => s.reclose b

/-! ### Sourcing (R97 to R99) -/

/-- SOURCE_BUS_READY (R97): the pair closes by fast turn-on. -/
def execSourceBusReady (p : Fin 4) (s : State) : Res := .next <|
  s.when ((s.path.ports.get p).src = .raising) fun s =>
    match (s.path.ports.get p).srcBus with
    | none => s
    | some b =>
      (s.modPath p fun x => { x with src := .closing }).modBus b fun x => { x with move := .closing p true }

/-- A source fault (R99): FAULT event, then ErrorRecovery with VBUS discharged. -/
def State.sourceFault (s : State) (p : Fin 4) (cause : Nat) : State :=
  (s.pathFault cause p ((s.path.ports.get p).srcBus.getD 0)).errorRecovery p

/-- SOURCE_OVERLOAD (R99), of a fixed supply. -/
def execSourceOverload (p : Fin 4) (s : State) : Res := .next <|
  s.when (s.sourcing p && s.get (R.PD_PE_STATUS.CONTRACT p) != 2) fun s =>
    (s.setBit R.MOD_PP_EVENT.SRC_OVL p true).sourceFault p 0x4

/-- SOURCE_SHORT (R99), after the start of R97. -/
def execSourceShort (p : Fin 4) (s : State) : Res := .next <|
  s.when (s.sourcing p) fun s => (s.setBit R.MOD_PP_EVENT.SRC_SHORT p true).sourceFault p 0x5

/-- SOURCE_REVERSE (R99). -/
def execSourceReverse (p : Fin 4) (s : State) : Res := .next <|
  s.when (s.sourcing p) fun s => (s.setBit R.MOD_PP_EVENT.SRC_REV p true).sourceFault p 0x6

end Sys2Proof.Machine
end

