-- ==== Sys2Proof/Machine/Link.lean ====
section
/-! DEFINITION. The Type-C and link commands (07_type_c_and_pd_link.md): attach and detach, accessories, toggling,
VCONN, VBUS discharge, moisture tests, message retries, chunks, cable discovery and BIST. -/

namespace Sys2Proof.Machine

/-! ### Attach (R163, R164, R166) -/

/-- Begins an attach-time moisture test of the SBU pins (R173); an unclean test before it still counts (R174). -/
def State.attachTest (s : State) (p : Fin 4) : State :=
  if s.on (R.PD_TC_CFG.MOIST_EN p) then
    s.modTc p fun x => { x with moistPins := some 0xC, moistAtt := true, moistHold := false }
  else s

/-- CC_RP_DETECT (R166): Rp on one pin as sink, or Rd on one pin as source, enters AttachWait. -/
def execCcRpDetect (p : Fin 4) (src cc2 ra : Bool) (level : Fin 3) (s : State) : Res := .next <|
  s.when (if src then s.tcState p = 5 && (s.tc p).term != .open_ && !s.wet p else s.tcState p = 2) fun s =>
    let s := s.setb (R.PD_CC_STATUS.POLARITY p) cc2
    let s := s.set (R.PD_CC_STATUS.PARTNER p) (if src then 4 else level + 1)
    let s := s.modTc p fun x => { x with ra := ra }
    (s.setTc p (if src then 6 else 3)).attachTest p

/-- ATTACH_WAIT_CC_OPEN (R162): the unattached state returns. -/
def execAttachWaitCcOpen (p : Fin 4) (s : State) : Res := .next <|
  s.when (s.tcState p = 3 || s.tcState p = 6) fun s =>
    let s := (s.set (R.PD_CC_STATUS.PARTNER p) 0).modTc p fun x =>
      { x with moistHold := false, moistPins := none, moistRe := false }
    s.setTc p (if s.tcState p = 3 then 2 else 5)

/-- No moisture test holds the attach (R174). -/
def State.attachFree (s : State) (p : Fin 4) : Bool :=
  s.wet p || !((s.tc p).moistHold || ((s.tc p).moistPins.isSome && (s.tc p).moistAtt))

/-- The port attaches as sink (R166, R175): a dry port waits for capabilities, a wet one holds 5 V at 500 mA. -/
def State.attachSink (s : State) (p : Fin 4) : State :=
  let s := (s.setTerm p .rd).modTc p fun x =>
    { x with attachSrc := false, bmc := !s.wet p, moistHold := false, moistAtt := false }
  let s := s.modPe p fun _ => {}
  let s := (s.set (R.PD_CC_STATUS.POWER_ROLE p) 1).set (R.PD_PE_STATUS.DATA_ROLE p) 0
  let s := (s.set (R.PD_EVENT.ATTACH p) 1).setTc p 4
  let s := s.abandonKa.attachRestart
  if s.wet p then ((s.setContract p 0 0 5000 500 true).setPe p 0x05).autoSelect
  else s.setPe p 0x01

/-- The port tries the other role first (R162): Try.SRC of a DRP port with the source role available. -/
def State.triesSource (s : State) (p : Fin 4) : Bool :=
  s.tcState p = 3 && s.get (R.PD_TC_CFG.ROLE p) = 2 && s.get (R.PD_TC_CFG.TRY p) = 2 && s.srcAvail p && !s.wet p

/-- SINK_ATTACH (R162, R166): from AttachWait.SNK, TryWait.SNK or Try.SNK, with VBUS at 4.0 V or above. -/
def execSinkAttach (p : Fin 4) (vbus : Nat) (s : State) : Res := .next <|
  s.when ((s.tcState p = 3 || s.tcState p = 9 || s.tcState p = 0xA) && vbus ≥ 4000 && s.attachFree p) fun s =>
    let s := s.setSat (R.PD_VBUS_MEAS.VBUS p) vbus
    if s.triesSource p then (s.setTerm p (.rp (s.rpLevel p))).setTc p 8 else s.attachSink p

/-- The port attaches as source (R97, R166, R171): it starts sourcing; VCONN follows vSafe5V. -/
def State.attachSource (s : State) (p : Fin 4) : State :=
  let s := (s.setTerm p (.rp (s.rpLevel p))).modTc p fun x =>
    { x with attachSrc := true, bmc := true, moistHold := false, moistAtt := false }
  let s := s.modPe p fun _ => {}
  let s := (s.set (R.PD_CC_STATUS.POWER_ROLE p) 2).set (R.PD_PE_STATUS.DATA_ROLE p) 1
  let s := s.set (R.PD_PE_STATUS.VCONN_SRC p) 1
  let s := (s.set (R.PD_EVENT.ATTACH p) 1).setTc p 7
  s.abandonKa.startSource p

/-- The port tries to be sink first (R162): Try.SNK of a DRP port. -/
def State.triesSink (s : State) (p : Fin 4) : Bool :=
  s.tcState p = 6 && s.get (R.PD_TC_CFG.ROLE p) = 2 && s.get (R.PD_TC_CFG.TRY p) = 1

/-- SOURCE_ATTACH (R162, R164, R166): from AttachWait.SRC, Try.SRC or TryWait.SRC, with VBUS below 0.8 V. -/
def execSourceAttach (p : Fin 4) (vbus : Nat) (s : State) : Res := .next <|
  s.when ((s.tcState p = 6 || s.tcState p = 8 || s.tcState p = 0xB) && vbus < 800 && s.attachFree p && s.srcAvail p) fun s =>
    let s := s.setSat (R.PD_VBUS_MEAS.VBUS p) vbus
    if s.triesSink p then (s.setTerm p .rd).setTc p 0xA else s.attachSource p

/-- RP_CHANGE (R84, R166, R181): before a contract the current bound follows the level; after one with a Revision 3.x
partner it is the level of collision avoidance. -/
def execRpChange (p : Fin 4) (level : Fin 3) (s : State) : Res := .next <|
  s.when (s.tcState p = 4) fun s =>
    let s := s.set (R.PD_CC_STATUS.PARTNER p) (level + 1)
    s.when (s.on (R.PD_PE_STATUS.EXPLICIT p) && s.get (R.PD_PRL_STATUS.PARTNER_REV p) = 2) fun s =>
      s.set (R.PD_CC_STATUS.SINK_TX p) (if level = 2 then 1 else 2)

/-! ### Detach (R167, R168) -/

/-- The unattached state after a detach (R162, R167). -/
def State.unattach (s : State) (p : Fin 4) : State :=
  let s := s.detachPort p
  let s := (s.modTc p fun x => { x with bmc := false, moistAtt := false }).setPe p 0x00
  let s := (s.set (R.PD_EVENT.DETACH p) 1).setTerm p (s.restTerm p)
  ((s.setTc p (s.unattachedOf p)).autoSelect)

/-- VBUS may be absent now (R167, R205, R208 to R210): a swap or a Hard Reset is running. -/
def State.vbusMayFall (s : State) (p : Fin 4) : Bool :=
  let st := s.peState p
  st = 0x07 || st = 0x20 || st = 0x21 || st = 0x24 || st = 0x25

/-- SINK_DETACH (R167, R212). -/
def execSinkDetach (p : Fin 4) (vbus : Nat) (s : State) : Res := .next <|
  s.when (s.tcState p = 4 && vbus < 3670 && !s.vbusMayFall p) fun s =>
    (s.setSat (R.PD_VBUS_MEAS.VBUS p) vbus).unattach p

/-- SOURCE_DETACH (R167, R212). -/
def execSourceDetach (p : Fin 4) (s : State) : Res := .next <| s.when (s.tcState p = 7) fun s => s.unattach p

/-- The accessory flag and event (R168). -/
def State.accEvent (s : State) (p : Fin 4) : State := (s.set (R.PD_EVENT.ACCESSORY p) 1).raisePd p 0x0B 0 0

/-- ACCESSORY_ATTACH (R168): 0 Ra/Ra, 1 Rd/Rd, 2 Rp/Rp with the levels of CC1 and CC2. -/
def execAccessoryAttach (p : Fin 4) (kind l1 l2 : Fin 3) (s : State) : Res := .next <|
  s.when (s.on (R.PD_TC_CFG.ACC_EN p) && !s.wet p &&
      (if kind = 2 then s.tcState p = 2 || s.tcState p = 3
       else (s.tcState p = 5 || s.tcState p = 6) && s.srcAvail p)) fun s =>
    let s := s.set (R.PD_CC_STATUS.PARTNER p) (5 + kind)
    let s := s.modTc p fun x => { x with accLvl := min l1.val l2.val, moistPins := none, moistHold := false }
    let s := (s.set (R.PD_EVENT.ATTACH p) 1).abandonKa
    if kind = 0 then (s.setTc p 0xC).accEvent p
    else if kind = 1 then (((s.set (R.PD_CC_STATUS.POWER_ROLE p) 2).setTc p 0xE).startSource p).accEvent p
    else
      let s := (s.setb (R.PD_CC_STATUS.POLARITY p) (l2 > l1)).set (R.PD_CC_STATUS.POWER_ROLE p) 1
      (((s.setTc p 0xD).setContract p 0 0 5000 (rpMa (min l1.val l2.val)) true).autoSelect).accEvent p

/-- ACCESSORY_DETACH (R168). -/
def execAccessoryDetach (p : Fin 4) (s : State) : Res := .next <|
  s.when (s.tcState p = 0xC || s.tcState p = 0xD || s.tcState p = 0xE) fun s => (s.unattach p).accEvent p

/-! ### Toggling and Try (R162 to R164) -/

/-- DRP_TOGGLE (R163, R164): a detached DRP port changes between Rd and Rp; without the source role it keeps Rd. -/
def execDrpToggle (p : Fin 4) (s : State) : Res := .next <|
  s.when (s.get (R.PD_TC_CFG.ROLE p) = 2 && (s.tcState p = 2 || s.tcState p = 5) && !s.on (R.PD_CTRL.DISABLE p) &&
      !s.md.standAlone && !s.wet p) fun s =>
    if s.tcState p = 2 && s.srcAvail p then (s.setTerm p (.rp (s.rpLevel p))).setTc p 5
    else (s.setTerm p .rd).setTc p 2

/-- TRY_TIMEOUT (R163): Try.SRC to TryWait.SNK, Try.SNK to TryWait.SRC, TryWait to Unattached.SNK. -/
def execTryTimeout (p : Fin 4) (s : State) : Res := .next <|
  s.when (8 ≤ s.tcState p && s.tcState p ≤ 0xB) fun s =>
    if s.tcState p = 8 then (s.setTerm p .rd).setTc p 9
    else if s.tcState p = 0xA then
      (s.setTerm p (if s.srcAvail p then .rp (s.rpLevel p) else .rd)).setTc p 0xB
    else (s.setTerm p .rd).setTc p 2

/-- ERROR_RECOVERY_END (R163, R187). -/
def execErrorRecoveryEnd (p : Fin 4) (s : State) : Res := .next <|
  s.when (s.tcState p = 1) fun s =>
    let s := ((s.set (R.PD_CTRL.ERR_RECOVERY p) 0).setTerm p (s.restTerm p)).setPe p 0x00
    s.setTc p (if s.on (R.PD_CTRL.DISABLE p) then 0 else s.unattachedOf p)

/-- RP_LEVEL_RAISE (R165): before an explicit contract. -/
def execRpLevelRaise (p : Fin 4) (s : State) : Res := .next <|
  s.when (s.isSrc p && !s.on (R.PD_PE_STATUS.EXPLICIT p)) fun s =>
    match (s.tc p).term with
    | .rp l => if s.rpLevel p > l then s.setTerm p (.rp (s.rpLevel p)) else s
    | _ => s

/-! ### VCONN and discharge (R171, R172) -/

/-- Discovery that runs ends with VCONN (R184). -/
def State.stopDiscover (s : State) (p : Fin 4) : State :=
  if (s.tc p).discover.isSome then s.endDiscover p else s

/-- VCONN_OCP (R171). -/
def execVconnOcp (p : Fin 4) (s : State) : Res := .next <|
  s.when (s.on (R.PD_VCONN.ON p)) fun s =>
    let s := ((s.vconnOff p).set (R.PD_VCONN.OCP p) 1).modTc p fun x => { x with vconnLock := true }
    let s := s.set (R.PD_EVENT.VCONN_FAULT p) 1
    (s.raiseFault 0x07 0x1 p 0).stopDiscover p

/-- VCONN_REVERSE (R171). -/
def execVconnReverse (p : Fin 4) (s : State) : Res := .next <|
  s.when (s.on (R.PD_VCONN.ON p)) fun s =>
    let s := (s.set (R.PD_VCONN.ON p) 0).set (R.PD_VCONN.REV p) 1
    let s := s.set (R.PD_EVENT.VCONN_FAULT p) 1
    (s.raiseFault 0x07 0x2 p 0).stopDiscover p

/-- VBUS_DISCHARGE_DONE (R172). -/
def execVbusDischargeDone (p : Fin 4) (vbus : Nat) (s : State) : Res := .next <|
  s.when ((s.tc p).discharge.isSome && vbus ≤ (s.tc p).discharge.getD 0) fun s =>
    (s.setSat (R.PD_VBUS_MEAS.VBUS p) vbus).modTc p fun x => { x with discharge := none }

/-! ### Moisture (R173 to R177) -/

/-- No port runs a test (R177). -/
def State.noTest (s : State) : Bool := allPorts.all fun p => (s.tc p).moistPins.isNone

/-- The port is detached. -/
def State.detached (s : State) (p : Fin 4) : Bool := s.tcState p = 2 || s.tcState p = 5

/-- MOIST_SCAN (R173, R177): four pins while detached, the SBU pins of a wet attached port. -/
def execMoistScan (p : Fin 4) (s : State) : Res := .next <|
  s.when (s.on (R.PD_TC_CFG.MOIST_EN p) && s.noTest && s.mode != 0 &&
      (if s.wet p then true else s.detached p && s.mode != 1)) fun s =>
    s.modTc p fun x =>
      { x with moistPins := some (if s.detached p then 0xF else 0xC), moistAll := false, moistAtt := false, moistRe := false }

/-- A test's record of the pins tested: MOIST_Z in 10 kΩ (R173). -/
def State.moistZ (s : State) (p : Fin 4) (pins : Nat) (z : List Nat) : State :=
  let one (s : State) (f : Fld) (k : Nat) : State := if bitAt pins k then s.setSat f (z.getD k 255) else s
  one (one (one (one s (R.PD_MOIST_Z.CC1 p) 0) (R.PD_MOIST_Z.CC2 p) 1) (R.PD_MOIST_Z.SBU1 p) 2) (R.PD_MOIST_Z.SBU2 p) 3

/-- Pins tested that fail: by impedance, and by open-circuit voltage (R174). -/
def State.badPins (s : State) (p : Fin 4) (pins : Nat) (z : List Nat) (ocv : List Int) : Nat × Bool :=
  let g : Nat := s.get (R.PD_MOIST_CFG.GALV_MV p) * 2
  let bad (k : Nat) : Bool := bitAt pins k && (z.getD k 255 < s.get (R.PD_MOIST_CFG.WET_Z p) || (ocv.getD k 0).natAbs > g)
  let gal := (List.range 4).any fun k => bitAt pins k && (ocv.getD k 0).natAbs > g
  ((List.range 4).foldl (fun acc k => if bad k then acc + 2 ^ k else acc) 0, gal)

/-- A port is declared wet (R174, R175). -/
def State.declareWet (s : State) (p : Fin 4) (pins : Nat) (gal : Bool) : State :=
  let s := ((s.set (R.PD_MOIST_STATUS.WET p) 1).set (R.PD_MOIST_STATUS.WET_PINS p) pins).set (R.PD_MOIST_STATUS.CLEAN_CNT p) 0
  let s := (s.setb (R.PD_MOIST_STATUS.CORRODED p) gal).bump (R.PD_MOIST_STATUS.WET_CNT p)
  let s := (s.set (R.PD_EVENT.WET p) 1).raiseMoist p 1
  let s := (s.vconnOff p).setTerm p .rd
  let s := s.modTc p fun x => { x with bmc := false, moistHold := false, moistRe := false }
  if s.tcState p = 6 || s.tcState p = 5 then s.setTc p 2 else s

/-- A wet port is declared dry (R176). -/
def State.declareDry (s : State) (p : Fin 4) : State :=
  let s := (s.set (R.PD_MOIST_STATUS.WET p) 0).set (R.PD_MOIST_STATUS.CORRODED p) 0
  let s := (s.set (R.PD_EVENT.DRY p) 1).raiseMoist p 2
  if s.tcState p = 4 then
    let s := s.modTc p fun x => { x with bmc := true }
    if s.pBatNow > 0 then s.sendHardReset p else s.setPe p 0x01
  else if s.detached p then
    (s.setTerm p (s.restTerm p)).setTc p (s.unattachedOf p)
  else s

/-- A test of a wet port ends (R176). -/
def State.wetResult (s : State) (p : Fin 4) (clean : Bool) : State :=
  if !clean then s.set (R.PD_MOIST_STATUS.CLEAN_CNT p) 0
  else
    let n := s.get (R.PD_MOIST_STATUS.CLEAN_CNT p) + 1
    let s := s.set (R.PD_MOIST_STATUS.CLEAN_CNT p) (min 3 n)
    if n ≥ 3 then s.declareDry p else s

/-- A test of a dry port ends (R174): unclean, it is repeated; a second time, the port is wet. -/
def State.dryResult (s : State) (p : Fin 4) (bad : Nat) (gal : Bool) : State :=
  if bad = 0 then s.modTc p fun x => { x with moistRe := false, moistHold := false }
  else if (s.tc p).moistRe then s.declareWet p bad gal
  else s.modTc p fun x => { x with moistRe := true, moistHold := x.moistAtt }

/-- MOIST_TEST_DONE (R173 to R176): impedances in 10 kΩ and open-circuit voltages in mV, CC1, CC2, SBU1, SBU2. -/
def execMoistTestDone (p : Fin 4) (z : List Nat) (ocv : List Int) (s : State) : Res := .next <|
  s.when (s.tc p).moistPins.isSome fun s =>
    let pins := (s.tc p).moistPins.getD 0
    let r := s.badPins p pins z ocv
    let s := (s.modTc p fun x => { x with moistPins := none }).moistZ p pins z
    if s.wet p then s.wetResult p (r.1 = 0) else s.dryResult p r.1 r.2

/-- MOIST_RETEST (R174). -/
def execMoistRetest (p : Fin 4) (s : State) : Res := .next <|
  s.when ((s.tc p).moistRe && s.noTest) fun s =>
    s.modTc p fun x => { x with moistPins := some (if x.moistAtt then 0xC else 0xF) }

/-- MOIST_TEST_ABORT (R177): the result is discarded and the termination restored. -/
def execMoistTestAbort (p : Fin 4) (s : State) : Res := .next <|
  s.when (s.tc p).moistPins.isSome fun s =>
    s.modTc p fun x => { x with moistPins := none, moistHold := false }

/-! ### The protocol layer (R179, R182) -/

/-- What the engine does when a message could not be delivered (R179, R193, R199, R220). -/
def State.txFailed (s : State) (p : Fin 4) (m : TxMsg) : State :=
  match m.kind with
  | .request => s.runSeq p .softReset
  | .eprRequest => s.runSeq p .softReset
  | .softReset => if s.supplyOnly p then ((s.awaits p .none).setPe p (s.readyState p)) else s.sendHardReset p
  | .sourceCaps => s
  | .discoverIdentity => s
  | .eprModeEnter => ((s.endSeq p).peEvent p (R.PD_PE_EVENT.EPR_FAIL p) 0x04).setPe p (s.readyState p)
  | .frSwap => s.errorRecovery p
  | .eprKeepAlive => s.resetLink p
  | _ =>
    let s := s.finishFor p (s.pe p).seq { status := 0x32 }
    (s.setPe p (if s.peState p = 0x23 then s.readyState p else s.peState p)).endSeq p

/-- Retries of a message (R180). -/
def State.retryMax (s : State) (p : Fin 4) : Nat := if s.get (R.PD_PRL_STATUS.PARTNER_REV p) = 1 then 3 else 2

/-- PD_TX_RETRY (R179). -/
def execPdTxRetry (p : Fin 4) (s : State) : Res := .next <|
  s.when (s.tc p).tx.isSome fun s =>
    match (s.tc p).tx with
    | none => s
    | some m =>
      if m.retries < s.retryMax p then
        (s.modTc p fun x => { x with tx := some { m with retries := m.retries + 1 } }).emit
          (.pd p { sop := m.sop, kind := m.kind, objs := m.objs })
      else
        let s := (s.modTc p fun x => { x with tx := none, chunk := none }).bump (R.PD_PRL_STATUS.TX_FAIL p)
        (s.set (R.PD_EVENT.TX_FAIL p) 1).txFailed p m

/-- A delivered message's effect on the engine (R199, R220): a host message completes its command; a DR_Swap that it
was awaits its answer. -/
def State.txDone (s : State) (p : Fin 4) (m : TxMsg) : State :=
  match m.kind with
  | .sourceCaps =>
    if s.isSrc p then s.modPe p fun x => { x with capsCount := 0, seq := .sourceCaps, await := .sourceCaps } else s
  | _ =>
    if (s.pe p).seq = .hostMsg && (s.tc p).chunk.isNone then
      let s := s.finishFor p .hostMsg (clampReply (s.pe p).cmdClamp 0)
      if m.kind = .drSwap then (s.enterSeq p .drSwap 1).setPe p 0x23 else s.endSeq p
    else s

/-- GOODCRC_RX (R179): the MessageID of the SOP type advances. -/
def execGoodcrcRx (p : Fin 4) (s : State) : Res := .next <|
  s.when (s.tc p).tx.isSome fun s =>
    match (s.tc p).tx with
    | none => s
    | some m =>
      let s := s.modTc p fun x =>
        { x with tx := none, txId0 := if m.sop = 0 then (x.txId0 + 1) % 8 else x.txId0,
                 txId1 := if m.sop = 0 then x.txId1 else (x.txId1 + 1) % 8 }
      s.txDone p m

/-- CHUNK_TIMEOUT (R182): the exchange ends as failed. -/
def execChunkTimeout (p : Fin 4) (s : State) : Res := .next <|
  s.when (s.tc p).chunk.isSome fun s =>
    let sending := match (s.tc p).chunk with | some c => c.sending | none => false
    let s := s.modTc p fun x => { x with chunk := none, tx := none }
    if sending && (s.pe p).seq = .hostMsg then (s.finishFor p .hostMsg { status := 0x32 }).endSeq p else s

/-- DISCOVER_IDENTITY_RETRY (R184): after 20 attempts the cable counts as 3 A and 20 V. -/
def execDiscoverIdentityRetry (p : Fin 4) (s : State) : Res := .next <|
  s.when (s.tc p).discover.isSome fun s =>
    let n := (s.tc p).discover.getD 0
    if n < 20 then (s.modTc p fun x => { x with discover := some (n + 1) }).send p 1 .discoverIdentity []
    else s.endDiscover p

/-- CABLE_IDENTITY_RX (R184). -/
def execCableIdentityRx (p : Fin 4) (amps5 epr active rev2 : Bool) (vmax : Fin 4) (vid : Fin 65536) (s : State) : Res :=
  .next <| s.when (s.tc p).discover.isSome fun s =>
    let s := ((s.set (R.PD_CABLE.VALID p) 1).setb (R.PD_CABLE.EPR p) epr).set (R.PD_CABLE.VMAX p) vmax
    let s := ((s.set (R.PD_CABLE.IMAX p) (if amps5 then 2 else 1)).setb (R.PD_CABLE.ACTIVE p) active).set
      (R.PD_CABLE.CABLE_VID p) vid
    (s.set (R.PD_PRL_STATUS.CABLE_REV p) (if rev2 then 1 else 2)).endDiscover p

/-! ### BIST (R185) -/

/-- BIST_RX (R185): 0 carrier, 1 test data, 2 any other mode; only while VBUS is at vSafe5V. -/
def execBistRx (p : Fin 4) (bistMode : Fin 3) (vbus : Nat) (s : State) : Res := .next <|
  s.when (s.talks p && 4750 ≤ vbus && vbus ≤ 5500 && bistMode != 2) fun s =>
    let s := s.modPe p fun x => { x with back := s.peState p }
    (s.modTc p fun x => { x with bist := bistMode + 1 }).setPe p 0x30

/-- BIST_CARRIER_END (R185). -/
def execBistCarrierEnd (p : Fin 4) (s : State) : Res := .next <|
  s.when ((s.tc p).bist = 1) fun s => (s.modTc p fun x => { x with bist := 0 }).setPe p (s.pe p).back

/-! ### Hard Reset and Soft_Reset from the partner (R210, R215) -/

/-- HARD_RESET_RX (R187, R210). -/
def execHardResetRx (p : Fin 4) (s : State) : Res := .next <|
  s.when (s.talks p && (s.tcState p = 4 || s.tcState p = 7)) fun s => s.hardReset p

/-- SOFT_RESET_RX (R215): the protocol state resets, Accept answers, and the engine waits for, or sends, capabilities.
A command whose sequence it ends completes with ABORTED (log entry 21). -/
def execSoftResetRx (p : Fin 4) (s : State) : Res := .next <|
  s.when (s.talks p && (s.tc p).bist != 2) fun s =>
    let s := s.modTc p fun x => { x with tx := none, chunk := none, txId0 := 0, rxId0 := none }
    let s := s.finishCmd p { status := 0x31, diagCode := 1 }
    let s := (s.modPe p fun x => { x with held := .none, later := [], heldMsg := none, kaPending := false, next := none }).endSeq p
    let s := (s.modPe p fun x => { x with capsCount := 0 }).setPe p 0x26
    (s.send p 0 .accept []).setPe p (s.softState p)

end Sys2Proof.Machine
end

