-- ==== Sys2Proof/Machine/Policy.lean ====
section
/-! DEFINITION. The hardware policy engine's events (08_pd_policy_engine.md): contracts as sink and as source, EPR mode,
collision avoidance, swaps, Fast Role Swap, Hard Reset recovery, and messages that pass to the host. -/

namespace Sys2Proof.Machine

/-! ### As sink (R192 to R196) -/

/-- The port's engine listens: it talks with its partner and BIST test data does not run (R185). -/
def State.listens (s : State) (p : Fin 4) : Bool := s.talks p && (s.tc p).bist != 2

/-- VBUS stands at vSafe5V (R210). -/
def vSafe5V (vbus : Nat) : Bool := 4750 ≤ vbus && vbus ≤ 5500

/-- The attached sink takes capabilities in this state: outside swaps, and in SNK_HARD_RESET with VBUS at vSafe5V
(R192, R210, R215). -/
def State.takesCaps (s : State) (p : Fin 4) (vbus : Nat) : Bool :=
  let st := s.peState p
  s.tcState p = 4 && (st ≤ 0x06 || st = 0x26 || (st = 0x07 && vSafe5V vbus))

/-- Capabilities received are kept, and the choice of R192 applies. -/
def State.takeCaps (s : State) (p : Fin 4) (epr : Bool) (objs : List Nat) : State :=
  let s := s.putTable (R.PD_PARTNER_SRC_PDO.W p) 0 11 (if epr then objs else objs.take 7)
  let s := if (s.pe p).seq = .request then s else s.breakOff p
  let s := s.modPe p fun x =>
    { x with capHr := 0, eprStage := 0, seq := .none, await := .none, swapStage := 0, waits := 0, next := none }
  (if s.peState p = 0x07 then s.setPe p 0x01 else s).evaluate p

/-- SRC_CAPS_RX (R180, R192): the objects by position, in EPR form where `epr`. -/
def execSrcCapsRx (p : Fin 4) (epr rev2 : Bool) (vbus : Nat) (objs : List Nat) (s : State) : Res := .next <|
  s.when (s.listens p && s.takesCaps p vbus) fun s =>
    ((s.setSat (R.PD_VBUS_MEAS.VBUS p) vbus).noteRev p rev2).takeCaps p epr objs

/-- A reply to the Request that the port awaits. -/
def State.awaitsReply (s : State) (p : Fin 4) : Bool :=
  s.listens p && s.peState p = 0x02 && (s.pe p).await = .request

/-- ACCEPT_RX (R82, R193): SNK_TRANSITION, with the old and the new voltage in V_EXP's rule. -/
def execAcceptRx (p : Fin 4) (s : State) : Res := .next <|
  s.when (s.awaitsReply p) fun s =>
    let old := s.vExp p
    let new := match (s.pe p).next with | some c => c.mv | none => old
    let s := s.modPath p fun x => { x with trans := some (old, new) }
    ((s.modPe p fun x => { x with await := .none, waits := 0 }).setPe p 0x03)

/-- The level that the partner's Rp reads, as collision avoidance takes it (R181). -/
def State.readSinkTx (s : State) (p : Fin 4) : State :=
  if s.get (R.PD_PRL_STATUS.PARTNER_REV p) = 2 then
    s.set (R.PD_CC_STATUS.SINK_TX p) (if s.get (R.PD_CC_STATUS.PARTNER p) = 3 then 1 else 2)
  else s

/-- A contract comes into force as sink (R193, R210, R223). -/
def State.sinkContract (s : State) (p : Fin 4) (c : Contract) : State :=
  let s := (s.setContract p c.kind c.pos c.mv c.ma true).set (R.PD_PE_STATUS.HR_COUNT p) 0
  let s := s.modPe p fun x => { x with next := none, frsCur := false, kaPending := false }
  ((s.peEvent p (R.PD_PE_EVENT.CONTRACT p) 0x03).readSinkTx p).setPe p 0x04

/-- PS_RDY_RX_SINK (R80, R193): the contract is in force; the command that asked for it completes, an EPR exit goes on
(R198), and automatic selection connects the port. -/
def execPsRdyRxSink (p : Fin 4) (s : State) : Res := .next <|
  s.when (s.listens p && s.peState p = 0x03) fun s =>
    let c := (s.pe p).next.getD (s.nowContract p)
    let leave : Bool := (s.pe p).eprLeave && c.pos ≤ 7
    let s := s.sinkContract p c
    let s := if (s.pe p).held = .request then s else s.finishFor p .request { status := 0x00 }
    let s := s.endSeq p
    (if leave then s.startSeq p .eprExit else s).autoSelect

/-- REJECT_RX (R192, R193): a rejected hold is released and the choice of R192 applies at once; else the contract in
force is kept. -/
def execRejectRx (p : Fin 4) (s : State) : Res := .next <|
  s.when (s.awaitsReply p) fun s =>
    let held := (s.pe p).hold.isSome
    let s := s.modPe p fun x => { x with hold := none, await := .none, next := none, eprLeave := false }
    let s := (s.peEvent p (R.PD_PE_EVENT.MISMATCH p) 0x0A).finishFor p .request { status := 0x40 }
    if held then s.request p (s.chooseOffer p) else (s.setPe p (s.readyState p)).endSeq p

/-- WAIT_RX (R193, R219): the Request is repeated later; a command completes after three Waits. -/
def execWaitRx (p : Fin 4) (s : State) : Res := .next <|
  s.when (s.awaitsReply p) fun s =>
    let n := (s.pe p).waits + 1
    let s := s.modPe p fun x => { x with await := .none, waits := n }
    if n ≥ 3 then s.finishFor p .request { status := 0x41 } else s

/-- A Request that Wait answered is to be repeated (R193). -/
def State.waitsRetry (s : State) (p : Fin 4) : Bool :=
  s.peState p = 0x02 && (s.pe p).await = .none && (s.pe p).waits > 0 && (s.tc p).tx.isNone

/-- SINK_REQUEST_RETRY (R193, R203). -/
def execSinkRequestRetry (p : Fin 4) (s : State) : Res := .next <|
  s.when (s.waitsRetry p) fun s =>
    if s.mustHold p then s.modPe p fun x => x.withLine (.request :: x.line.filter fun q => q != .request) else s.resend p

/-- The EPR entry fails (R197). -/
def State.eprFail (s : State) (p : Fin 4) : State :=
  let s := (s.modPe p fun x => { x with eprStage := 0 }).peEvent p (R.PD_PE_EVENT.EPR_FAIL p) 0x04
  (s.setPe p 0x04).endSeq p

/-- SENDER_RESPONSE_TIMEOUT (R193, R194, R197, R198, R208): what the absence of the awaited answer leads to. The end of a
swap request or of a Get without an answer is that of USB PD (log entry 22). -/
def execSenderResponseTimeout (p : Fin 4) (s : State) : Res := .next <|
  s.when ((s.pe p).await != .none) fun s =>
    match (s.pe p).await with
    | .eprEnter => if (s.pe p).eprStage = 1 then s.eprFail p else s.resetLink p
    | .softReset =>
      if s.supplyOnly p then (s.setPe p (s.readyState p)).endSeq p else s.sendHardReset p
    | .frSwap => s.errorRecovery p
    | .prSwap => (s.finishFor p .prSwap { status := 0x32 }).endSeq p
    | .vconnSwap => (s.finishFor p .vconnSwap { status := 0x32 }).endSeq p
    | .drSwap => ((s.setPe p (s.readyState p)).finishFor p .drSwap { status := 0x32 }).endSeq p
    | .getSourceCap => s.endSeq p
    | .getSinkCap => s.endSeq p
    | .getStatus => s.endSeq p
    | _ => s.resetLink p

/-- PS_TRANSITION_TIMEOUT (R193). -/
def execPsTransitionTimeout (p : Fin 4) (s : State) : Res := .next <|
  s.when (s.peState p = 0x03) fun s => s.resetLink p

/-- The implicit contract of 5 V at the current of the partner's Rp (R195). -/
def State.goImplicit (s : State) (p : Fin 4) : State :=
  ((s.setContract p 0 0 5000 (s.partnerMa p) true).setPe p 0x05).autoSelect

/-- SINK_WAIT_CAP_TIMEOUT (R195). -/
def execSinkWaitCapTimeout (p : Fin 4) (s : State) : Res := .next <|
  s.when (s.peState p = 0x01 && s.tcState p = 4) fun s =>
    if s.supplyOnly p || (s.pe p).capHr ≥ 2 then s.goImplicit p
    else (s.modPe p fun x => { x with capHr := x.capHr + 1 }).sendHardReset p

/-- PPS_KEEPALIVE (R196, R203, R214). -/
def execPpsKeepalive (p : Fin 4) (s : State) : Res := .next <|
  s.when (s.listens p && s.on (R.PD_PE_STATUS.EXPLICIT p) && s.get (R.PD_PE_STATUS.CONTRACT p) = 2 && !s.isSrc p) fun s =>
    s.kaDue p .request

/-! ### EPR (R197, R198) -/

/-- The conditions of R197 for the entry into EPR mode. -/
def State.eprMay (s : State) (p : Fin 4) : Bool :=
  s.on (R.PD_PE_CFG.EPR_EN p) && !s.md.standAlone && s.get (R.PD_PRL_STATUS.PARTNER_REV p) != 1 &&
    bitAt (s.get (R.PD_PARTNER_SRC_PDO.W p 0)) 23 && (s.table (R.PD_SNK_PDO.W p) 7 4).any (fun w => w != 0) &&
    s.on (R.PD_PE_STATUS.EXPLICIT p) && !s.on (R.PD_PE_STATUS.EPR_MODE p) && !(s.pe p).eprTried

/-- EPR_ENTRY_START (R197). -/
def execEprEntryStart (p : Fin 4) (s : State) : Res := .next <|
  s.when (s.listens p && s.peState p = 0x04 && s.eprMay p) fun s => s.startSeq p .eprEnter

/-- EPR_MODE_RX (R197, R198): 0 Enter Acknowledged, 1 Enter Succeeded, 2 Enter Failed, 3 Exit. -/
def execEprModeRx (p : Fin 4) (action : Fin 4) (s : State) : Res := .next <|
  s.when (s.listens p) fun s =>
    let stage := (s.pe p).eprStage
    if action = 3 then s.endEpr p
    else if s.peState p != 0x06 then s
    else if action = 0 && stage = 1 then s.modPe p fun x => { x with eprStage := 2, await := .none }
    else if action = 1 && stage = 2 then
      ((s.set (R.PD_PE_STATUS.EPR_MODE p) 1).modPe p fun x => { x with eprStage := 3 }).awaits p .eprEnter
    else if action = 2 && stage != 3 then s.eprFail p
    else s

/-- EPR_ENTER_TIMEOUT (R197). -/
def execEprEnterTimeout (p : Fin 4) (s : State) : Res := .next <|
  s.when (s.peState p = 0x06 && (s.pe p).eprStage = 2) fun s => s.eprFail p

/-- EPR_KEEPALIVE (R198, R203, R214). -/
def execEprKeepalive (p : Fin 4) (s : State) : Res := .next <|
  s.when (s.listens p && s.on (R.PD_PE_STATUS.EPR_MODE p) && !s.isSrc p) fun s => s.kaDue p .keepAlive

/-- EPR_KEEPALIVE_ACK_RX (R198). -/
def execEprKeepaliveAckRx (p : Fin 4) (s : State) : Res := .next <|
  s.when (s.listens p && (s.pe p).await = .keepAlive) fun s => s.endSeq p

/-! ### As source (R199 to R202) -/

/-- The port sources with the engine at its start, or repeats capabilities that no GoodCRC answered (R199). -/
def State.sendsCaps (s : State) (p : Fin 4) : Bool :=
  s.isSrc p && s.tcState p = 7 && (s.path.ports.get p).src = .on &&
    (s.peState p = 0x10 || (s.peState p = 0x13 && (s.pe p).seq = .sourceCaps && (s.pe p).await = .none))

/-- SOURCE_CAPS_SEND (R199): after nCapsCount sends without GoodCRC the port holds vSafe5V at its Rp level. -/
def execSourceCapsSend (p : Fin 4) (s : State) : Res := .next <|
  s.when (s.listens p && s.sendsCaps p) fun s =>
    if (s.pe p).capsCount ≥ 50 then
      let s := (s.clearContract p).modPe p fun x => { x with seq := .none, await := .none }
      (s.setTerm p (.rp (s.rpLevel p))).setPe p 0x14
    else s.sendSrcCaps p

/-- What a Request asks of an offer, where it lies within it (R200): kind, mV and mA. -/
def requestOf (offer rdo : Nat) : Option (Nat × Nat × Nat) :=
  if offer = 0 then none
  else
    match supplyOf offer with
    | .fixed v i =>
      let op := objBits rdo 10 10 * 10
      let top := objBits rdo 0 10 * 10
      if op ≤ i && top ≤ i then some (1, v, top) else none
    | .pps lo hi i =>
      let v := objBits rdo 9 12 * 20
      let op := objBits rdo 0 7 * 50
      if lo ≤ v && v ≤ hi && op ≤ i then some (2, v, op) else none
    | _ => none

/-- The offer last sent that a Request names. -/
def State.offerAt (s : State) (p : Fin 4) (rdo : Nat) : Nat :=
  let pos := objBits rdo 28 4
  if 1 ≤ pos && pos ≤ 7 then s.get (R.PD_OFFER_PDO.W p (pos - 1)) else 0

/-- The source rejects a Request (R200, R215), and sends new capabilities where only the allowance forbade it. -/
def State.rejectRequest (s : State) (p : Fin 4) (again : Bool) : State :=
  let s := (s.send p 0 .reject []).setPe p 0x10
  if again then s.sendSrcCaps p else s.endSeq p

/-- The source accepts a Request (R200, R201): a PPS move starts at the Accept. -/
def State.acceptRequest (s : State) (p : Fin 4) (c : Contract) : State :=
  let old := if s.on (R.PD_PE_STATUS.EXPLICIT p) then s.get (R.PD_PE_CONTRACT.VOLTAGE p) else 5000
  let s := (s.send p 0 .accept []).modPe p fun x => { x with next := some c, await := .none }
  let s := if c.kind = 2 then s.modPath p fun x => { x with trans := some (old, c.mv) } else s
  s.setPe p 0x12

/-- Bound on a Request's power in mW: the allowance, or the bound that the offers had in its place (R144, R145, R200). -/
def State.requestLimit (s : State) (p : Fin 4) : Nat :=
  let pb := s.bgt.ports.get p
  match pb.shed with
  | some sh => max sh.cut (s.allowance p)
  | none => max (pb.bound.getD 0) (s.allowance p)

/-- The source's port takes Requests. -/
def State.takesRequest (s : State) (p : Fin 4) : Bool :=
  s.listens p && s.isSrc p && s.tcState p = 7 && (s.path.ports.get p).src = .on &&
    (s.peState p = 0x10 || s.peState p = 0x13 || s.peState p = 0x14)

/-- REQUEST_RX (R200): `rdo` as received. -/
def execRequestRx (p : Fin 4) (rdo : Nat) (rev2 : Bool) (s : State) : Res := .next <|
  s.when (s.takesRequest p) fun s =>
    let s := ((s.noteRev p rev2).set (R.PD_RDO_RECEIVED.W p) rdo).setPe p 0x11
    let s := s.awaits p .none
    match requestOf (s.offerAt p rdo) rdo with
    | none => s.rejectRequest p false
    | some (kind, v, i) =>
      if v * i / 1000 > s.requestLimit p then s.rejectRequest p true
      else s.acceptRequest p { pos := objBits rdo 28 4, kind := kind, mv := v, ma := i, rdo := rdo }

/-- SRC_TRANSITION_START (R201): a fixed supply starts to move. -/
def execSrcTransitionStart (p : Fin 4) (s : State) : Res := .next <|
  s.when (s.peState p = 0x12 && (s.path.ports.get p).trans.isNone) fun s =>
    let old := if s.on (R.PD_PE_STATUS.EXPLICIT p) then s.get (R.PD_PE_CONTRACT.VOLTAGE p) else 5000
    match (s.pe p).next with
    | none => s
    | some c => s.modPath p fun x => { x with trans := some (old, c.mv) }

/-- The string of a cut source is restored when the new contract reaches it (R145). -/
def State.newString (s : State) (p : Fin 4) (power : Nat) : State :=
  let s := s.modPb p fun x =>
    { x with bound := none,
             restore := match x.restore with | some r => if power ≥ r then none else some r | none => none }
  (s.endShed p 0x08).set (R.BGT_STR_SRC.P p) power

/-- A contract comes into force as source (R138, R144, R201, R210): PS_RDY, the source string, the end of a shed. -/
def State.sourceContract (s : State) (p : Fin 4) (c : Contract) : State :=
  let s := (s.send p 0 .psRdy []).setContract p c.kind c.pos c.mv c.ma false
  let s := (s.set (R.PD_PE_STATUS.HR_COUNT p) 0).modPath p fun x => { x with trans := none }
  let s := s.modPe p fun x => { x with next := none, frsCur := false }
  let s := s.newString p (c.mv * c.ma / 1000)
  (s.peEvent p (R.PD_PE_EVENT.CONTRACT p) 0x03).setPe p 0x13

/-- VBUS stands within ±3 % of a voltage (R201). -/
def within3 (vbus v : Nat) : Bool := v * 97 ≤ vbus * 100 && vbus * 100 ≤ v * 103

/-- SRC_PS_RDY (R201): then the partner's Sink_Capabilities are requested (R209). -/
def execSrcPsRdy (p : Fin 4) (vbus : Nat) (s : State) : Res := .next <|
  s.when (s.peState p = 0x12 && (s.path.ports.get p).trans.isSome &&
      (match (s.pe p).next with | some c => within3 vbus c.mv | none => false)) fun s =>
    match (s.pe p).next with
    | none => s
    | some c =>
      let s := (s.setSat (R.PD_VBUS_MEAS.VBUS p) vbus).sourceContract p c
      (s.endSeq p).startSeq p .getSinkCap

/-- PPS_SOURCE_TIMEOUT (R202). -/
def execPpsSourceTimeout (p : Fin 4) (s : State) : Res := .next <|
  s.when (s.listens p && s.isSrc p && s.on (R.PD_PE_STATUS.EXPLICIT p) && s.get (R.PD_PE_STATUS.CONTRACT p) = 2) fun s =>
    s.resetLink p

/-- SINK_CAPS_RX (R209): the partner's sink capabilities are kept, on which Fast Role Swap sending depends. -/
def execSinkCapsRx (p : Fin 4) (objs : List Nat) (s : State) : Res := .next <|
  s.when (s.listens p && (s.tcState p = 4 || s.tcState p = 7)) fun s =>
    let s := s.putTable (R.PD_PARTNER_SNK_PDO.W p) 0 11 objs
    if (s.pe p).await = .getSinkCap then s.endSeq p else s

/-! ### Collision avoidance (R181, R203) -/

/-- SINK_TX_OK (R203): the sink reads SinkTxOK, and a held sequence is sent. -/
def execSinkTxOk (p : Fin 4) (s : State) : Res := .next <|
  s.when (s.listens p && !s.isSrc p && s.tcState p = 4 && s.on (R.PD_PE_STATUS.EXPLICIT p) &&
      s.get (R.PD_PRL_STATUS.PARTNER_REV p) = 2) fun s =>
    let s := (s.set (R.PD_CC_STATUS.SINK_TX p) 1).set (R.PD_CC_STATUS.PARTNER p) 3
    if (s.pe p).seq = .none || (s.waitsRetry p && (s.pe p).held = .request) then s.runHeld p else s

/-- A sequence that waits may be dropped (R203): no keep-alive, a Request of the PPS keep-alive or a repeat among them. -/
def State.mayDrop (s : State) (p : Fin 4) (q : PeSeq) : Bool :=
  q != .none && q != .keepAlive && (q != .request || (s.pe p).cmdSeq = .request)

/-- SINK_TX_WAIT_DROP (R203): a sequence that has waited 1 s for SinkTxOK is dropped, and its command is BUSY; a keep-alive
that fell due meanwhile waits on. -/
def execSinkTxWaitDrop (p : Fin 4) (s : State) : Res := .next <|
  s.when (!s.isSrc p && (s.pe p).seq = .none && (s.pe p).line.any fun q => s.mayDrop p q) fun s =>
    let q := ((s.pe p).line.find? fun q => s.mayDrop p q).getD .none
    let due := (s.pe p).kaPending
    let k := s.kaSeq p
    let s := s.finishFor p q { status := 0x30 }
    let s := s.modTc p fun x => { x with chunk := if q = .hostMsg then none else x.chunk }
    s.modPe p fun x =>
      { x.withLine ((if due then [k] else []) ++ x.line.filter fun r => r != q) with
        kaPending := false, heldMsg := if q = .hostMsg then none else x.heldMsg }

/-- TSINKTX_EXPIRY (R181): the source starts the sequence it held. -/
def execTsinktxExpiry (p : Fin 4) (s : State) : Res := .next <|
  s.when (s.listens p && s.isSrc p && (s.pe p).held != .none && (s.pe p).seq = .none) fun s => s.runHeld p

/-! ### Power-role swap (R204, R205, R211, R214) -/

/-- R204 refuses a PR_Swap on the port. -/
def State.prsRefused (s : State) (p : Fin 4) : Bool :=
  !(s.on (R.PD_PE_CFG.PRS_ACCEPT p) && s.get (R.PD_TC_CFG.ROLE p) = 2 && !s.md.standAlone && !s.inSafe && !s.wet p &&
    if s.isSrc p then (s.path.ports.get p).srcBus.isSome || (s.srcBusFor p).isSome
    else s.srcAvail p && !s.supplyOnly p)

/-- A bus move of R79 runs on the port's bus. -/
def State.busMoving (s : State) (p : Fin 4) : Bool :=
  [(0 : Fin 2), 1].any fun b => s.busConn b && s.busPort b = p && (s.path.buses.get b).move != .idle

/-- A PR_Swap is accepted, by either side (R205): as source, sourcing continues; as sink, the input string is removed
and the bus moves away. -/
def State.prsStart (s : State) (p : Fin 4) : State :=
  let s := (s.modPe p fun x => { x with seq := .prSwap, swapStage := 2, await := .none })
  if s.isSrc p then s.setPe p 0x20
  else
    let b := s.busOf p
    let s := (s.clearContract p).endInput p
    let s := match b with | some b => s.beginMove b none | none => s.leaveBus p
    s.setPe p 0x21

/-- The unit's own PR_Swap that waits is dropped, and its command superseded (R214). -/
def State.dropOwnPrs (s : State) (p : Fin 4) : State :=
  let sent : Bool := (s.pe p).seq = .prSwap && (s.pe p).swapStage = 1
  if sent || (s.pe p).line.contains .prSwap then
    let s := if sent then s.modPe p fun x => { x with seq := .none, await := .none, swapStage := 0 }
      else s.modPe p fun x => x.withLine (x.line.filter fun q => q != .prSwap)
    s.finishFor p .prSwap { status := 0x33 }
  else s

/-- The port is in a state from which a swap may start (R215). -/
def State.inReady (s : State) (p : Fin 4) : Bool :=
  let st := s.peState p
  (s.tcState p = 4 || s.tcState p = 7) && (st = 0x01 || st = 0x04 || st = 0x05 || st = 0x10 || st = 0x13 || st = 0x14)

/-- PR_SWAP_RX (R204, R205, R214). -/
def execPrSwapRx (p : Fin 4) (s : State) : Res := .next <|
  s.when (s.listens p && s.inReady p) fun s =>
    let s := s.dropOwnPrs p
    if s.prsRefused p then s.send p 0 .reject []
    else if s.busMoving p then s.send p 0 .wait []
    else ((s.breakOff p).send p 0 .accept []).prsStart p

/-- PR_SWAP_SOURCE_OFF (R205): the old source stops and discharges VBUS; its string is released. -/
def execPrSwapSourceOff (p : Fin 4) (s : State) : Res := .next <|
  s.when (s.peState p = 0x20 && (s.pe p).swapStage = 2) fun s => (s.stopSource p 800).clearContract p

/-- PR_SWAP_VBUS_LOW (R205): Rp is replaced by Rd and PS_RDY is sent. -/
def execPrSwapVbusLow (p : Fin 4) (vbus : Nat) (s : State) : Res := .next <|
  s.when (s.peState p = 0x20 && (s.pe p).swapStage = 2 && (s.path.ports.get p).srcBus.isNone && vbus < 800) fun s =>
    let s := (s.setSat (R.PD_VBUS_MEAS.VBUS p) vbus).setTerm p .rd
    let s := (s.set (R.PD_CC_STATUS.POWER_ROLE p) 1).modTc p fun x => { x with discharge := none }
    (s.send p 0 .psRdy []).modPe p fun x => { x with swapStage := 3 }

/-- The port becomes sink at the end of a swap (R205, R209). -/
def State.becomeSink (s : State) (p : Fin 4) : State :=
  let s := (s.modTc p fun x => { x with attachSrc := false }).modPe p fun x => { x with capHr := 0, frsSent := false }
  ((s.setTc p 4).setPe p 0x01).swapDone p

/-- The new source of a PR_Swap starts to source on a free bus (R205); without one it cannot, and its PS_RDY stays out. -/
def State.becomeSource (s : State) (p : Fin 4) : State :=
  let s := s.modPe p fun x => { x with swapStage := 3 }
  (s.setTerm p (.rp (s.rpLevel p))).startSource p

/-- The new source of a Fast Role Swap (R208): Rp, PS_RDY, SRC_STARTUP. -/
def State.frsNewSource (s : State) (p : Fin 4) : State :=
  let s := (s.setTerm p (.rp (s.rpLevel p))).set (R.PD_CC_STATUS.POWER_ROLE p) 2
  let s := (s.setTc p 7).modTc p fun x => { x with attachSrc := true }
  let s := (s.send p 0 .psRdy []).modPe p fun x => { x with capsCount := 0 }
  (s.setPe p 0x10).swapDone p

/-- VCONN passes to the partner (R206). -/
def State.giveVconn (s : State) (p : Fin 4) : State :=
  let s := (s.vconnOff p).set (R.PD_PE_STATUS.VCONN_SRC p) 0
  (s.setPe p (s.readyState p)).swapDone p

/-- PS_RDY_RX_SWAP (R205, R206, R208, R209). -/
def execPsRdyRxSwap (p : Fin 4) (s : State) : Res := .next <|
  s.when (s.listens p) fun s =>
    let st := s.peState p
    let stage := (s.pe p).swapStage
    if st = 0x20 && stage = 3 then s.becomeSink p
    else if st = 0x21 && stage = 2 && (s.busOf p).isNone then s.becomeSource p
    else if st = 0x22 && stage = 2 then s.giveVconn p
    else if st = 0x24 && stage = 2 then s.frsNewSource p
    else if st = 0x25 && stage = 3 then s.becomeSink p
    else s

/-- The port awaits a PS_RDY of a power-role swap. -/
def State.awaitsSwapRdy (s : State) (p : Fin 4) : Bool :=
  let st := s.peState p
  let stage := (s.pe p).swapStage
  (st = 0x20 && stage = 3) || (st = 0x21 && stage = 2) || (st = 0x24 && stage = 2) || (st = 0x25 && stage = 3)

/-- SWAP_PS_RDY_TIMEOUT (R205). -/
def execSwapPsRdyTimeout (p : Fin 4) (s : State) : Res := .next <|
  s.when (s.awaitsSwapRdy p) fun s => s.errorRecovery p

/-! ### VCONN and data-role swap (R206, R207) -/

/-- The port becomes VCONN source (R206): VCONN on, PS_RDY, then cable discovery. -/
def State.takeVconn (s : State) (p : Fin 4) : State :=
  let s := ((s.set (R.PD_PE_STATUS.VCONN_SRC p) 1).setPe p 0x22).send p 0 .psRdy []
  ((s.setPe p (s.readyState p)).swapDone p).vconnOn p

/-- A VCONN_Swap is accepted, by either side (R206). -/
def State.vcsStart (s : State) (p : Fin 4) : State :=
  let s := s.modPe p fun x => { x with seq := .vconnSwap, swapStage := 2, await := .none }
  if s.on (R.PD_PE_STATUS.VCONN_SRC p) then s.setPe p 0x22 else s.takeVconn p

/-- R206 refuses a VCONN_Swap on the port; stand-alone behaviour refuses it (R183). -/
def State.vcsRefused (s : State) (p : Fin 4) : Bool :=
  s.md.standAlone ||
    (!s.on (R.PD_PE_STATUS.VCONN_SRC p) && !(s.on (R.PD_PE_CFG.VCS_ACCEPT p) && s.mayVconn p))

/-- VCONN_SWAP_RX (R206). -/
def execVconnSwapRx (p : Fin 4) (s : State) : Res := .next <|
  s.when (s.listens p && s.inReady p) fun s =>
    if s.vcsRefused p then s.send p 0 .reject []
    else if s.on (R.PD_PE_STATUS.VCONN_SRC p) && (s.tc p).discover.isSome then s.send p 0 .wait []
    else ((s.breakOff p).send p 0 .accept []).vcsStart p

/-- VCONN_SOURCE_TIMEOUT (R206): VCONN stays on and Hard Reset is sent, subject to R194. -/
def execVconnSourceTimeout (p : Fin 4) (s : State) : Res := .next <|
  s.when (s.peState p = 0x22 && (s.pe p).swapStage = 2 && s.on (R.PD_PE_STATUS.VCONN_SRC p)) fun s => s.resetLink p

/-- DATA_ROLE is inverted by an accepted DR_Swap (R207). -/
def State.drSwapped (s : State) (p : Fin 4) : State :=
  let s := s.setb (R.PD_PE_STATUS.DATA_ROLE p) (!s.on (R.PD_PE_STATUS.DATA_ROLE p))
  (s.setPe p (s.readyState p)).swapDone p

/-- SWAP_REPLY_RX (R205 to R208, R221): 0 Accept, 1 Reject, 2 Wait. -/
def execSwapReplyRx (p : Fin 4) (reply : Fin 3) (s : State) : Res := .next <|
  s.when (s.listens p) fun s =>
    let q := (s.pe p).await
    if q = .frSwap then
      if reply = 0 then s.modPe p fun x => { x with await := .none, swapStage := 2 } else s.errorRecovery p
    else if q != .prSwap && q != .vconnSwap && q != .drSwap then s
    else if reply = 0 then
      if q = .prSwap then s.prsStart p else if q = .vconnSwap then s.vcsStart p else s.drSwapped p
    else
      let s := if q = .drSwap then s.setPe p (s.readyState p) else s
      (s.finishFor p q { status := if reply = 1 then 0x40 else 0x41 }).endSeq p

/-! ### Fast Role Swap (R208, R209) -/

/-- The group of an armed sink turns to source with its pair closed (R208, step 1). -/
def State.frsTurn (s : State) (p : Fin 4) (b : Fin 2) : State :=
  let s := s.modPath p fun x => { x with src := .on, srcBus := some b }
  let s := ((s.groupDir b true).setBit R.MOD_MATRIX_STATUS.SRC p true).clearContract p
  ((s.endInput p).chargeInputLost).handOver

/-- FRS_SIGNAL_DETECT (R186, R208): a command whose sequence the signal breaks off completes with ABORTED (log entry 23). -/
def execFrsSignalDetect (p : Fin 4) (s : State) : Res := .next <|
  s.when (s.listens p && s.tcState p = 4 && s.frsArmed p && !s.isSrc p) fun s =>
    let s := s.finishCmd p { status := 0x31, diagCode := 1 }
    let s := s.modPe p fun x => { x with frsCur := true, next := none, held := .none, later := [], kaPending := false }
    let s := match s.busOf p with | some b => s.frsTurn p b | none => s
    let s := (s.peEvent p (R.PD_PE_EVENT.FRS p) 0x08).setPe p 0x24
    s.runSeq p .frSwap

/-- FR_SWAP_RX (R209): the old source accepts, presents Rd and sends PS_RDY. -/
def execFrSwapRx (p : Fin 4) (s : State) : Res := .next <|
  s.when (s.listens p && s.peState p = 0x25 && (s.pe p).swapStage = 0) fun s =>
    let s := ((s.send p 0 .accept []).setTerm p .rd).set (R.PD_CC_STATUS.POWER_ROLE p) 1
    let s := (s.clearContract p).modTc p fun x => { x with discharge := none }
    (s.send p 0 .psRdy []).modPe p fun x => { x with swapStage := 3, seq := .frSwap }

/-- FRS_SOURCE_WAIT_EXPIRY (R209). -/
def execFrsSourceWaitExpiry (p : Fin 4) (s : State) : Res := .next <|
  s.when (s.peState p = 0x25 && (s.pe p).swapStage = 0) fun s => (s.errorRecovery p).discharge p 800

/-! ### Hard Reset recovery (R210) -/

/-- HR_SINK_ALLOWANCE_END (R210). -/
def execHrSinkAllowanceEnd (p : Fin 4) (vbus : Nat) (s : State) : Res := .next <|
  s.when (s.peState p = 0x07) fun s =>
    let s := s.setSat (R.PD_VBUS_MEAS.VBUS p) vbus
    if vSafe5V vbus then s.setPe p 0x01 else if vbus < 3670 then s.unattach p else s

/-- HR_SINK_VBUS_RETURN (R210). -/
def execHrSinkVbusReturn (p : Fin 4) (vbus : Nat) (s : State) : Res := .next <|
  s.when (s.peState p = 0x07 && vSafe5V vbus) fun s => (s.setSat (R.PD_VBUS_MEAS.VBUS p) vbus).setPe p 0x01

/-- HR_SOURCE_VBUS_OFF (R210). -/
def execHrSourceVbusOff (p : Fin 4) (s : State) : Res := .next <|
  s.when (s.peState p = 0x15) fun s => (s.stopSource p 800).vconnOff p

/-- HR_SOURCE_RECOVER (R210): vSafe5V is restored; VCONN, DFP and Source_Capabilities follow. -/
def execHrSourceRecover (p : Fin 4) (s : State) : Res := .next <|
  s.when (s.peState p = 0x15 && (s.path.ports.get p).srcBus.isNone) fun s => s.startSource p

/-- SOFT_RESET_ACCEPT_RX (R193, R215). -/
def execSoftResetAcceptRx (p : Fin 4) (s : State) : Res := .next <|
  s.when (s.listens p && s.peState p = 0x26 && (s.pe p).await = .softReset) fun s =>
    (s.setPe p (s.softState p)).endSeq p

/-! ### Messages for the host (R213) -/

/-- The engine's own reply for the host (R183, R213). -/
def State.autoReply (s : State) (p : Fin 4) (kind : MsgKind) : State :=
  match kind with
  | .drSwap => s.send p 0 .reject []
  | .vdmStructured => s.send p 0 .vdmNak []
  | .enterUsb => s.send p 0 .reject []
  | _ => s.send p 0 (s.refuseKind p) []

/-- The fragments of a PD_MESSAGE event, 40 bytes each (R244). -/
def State.pdFragments (s : State) (p : Fin 4) (flags hdr ext : Nat) (data : List Byte) (n : Nat) : State :=
  (List.range n).foldl (fun (s : State) k =>
    s.raise 0x04 (leBytes 1 p ++ leBytes 1 flags ++ leBytes 2 hdr ++ leBytes 2 ext ++ leBytes 1 k ++ leBytes 1 n ++
      (data.drop (40 * k)).take 40)) s

/-- A message passes to the host as PD_MESSAGE events. -/
def State.toHost (s : State) (p : Fin 4) (sop1 needs : Bool) (hdr ext : Nat) (data : List Byte) : State :=
  s.pdFragments p (ofBool needs * 128 + ofBool sop1) hdr ext data (max 1 (min 7 ((data.length + 39) / 40)))

/-- A message that needs a reply goes to the host, which is waited for; without an event ring the engine replies itself
(R213). -/
def State.askHost (s : State) (p : Fin 4) (sop1 : Bool) (kind : MsgKind) (hdr ext : Nat) (data : List Byte) : State :=
  if s.on R.HIF_EVQ_CFG.EN then
    let s := (s.set (R.PD_PE_STATUS.HOST_WAIT p) 1).modPe p fun x => { x with hostMsg := some kind, hostLate := false }
    s.toHost p sop1 true hdr ext data
  else (s.autoReply p kind).peEvent p (R.PD_PE_EVENT.HOST_TIMEOUT p) 0x09

/-- The messages that R183 passes to the host, other than DR_Swap. -/
def hostKind (kind : MsgKind) : Bool :=
  match kind with
  | .sourceCapsExt | .sinkCapsExt | .status | .ppsStatus | .sourceInfo | .revision | .alert | .batteryCaps
  | .batteryStatus | .manufacturerInfo | .vdmStructured | .vdmNak | .vdmUnstructured | .vdmExtended | .securityRequest
  | .securityResponse | .fwUpdateRequest | .fwUpdateResponse | .enterUsb | .dataReset | .dataResetComplete => true
  | _ => false

/-- Those whose receipt without the host is discarded (R183, stand-alone column). -/
def discardKind (kind : MsgKind) : Bool :=
  match kind with
  | .sourceCapsExt | .sinkCapsExt | .status | .ppsStatus | .sourceInfo | .revision | .alert | .batteryCaps
  | .batteryStatus => true
  | _ => false

/-- A host-routed message is received (R183, R213). An Alert is followed by Get_Status, whose answer ends that sequence. -/
def State.hostRouted (s : State) (p : Fin 4) (sop1 needs : Bool) (kind : MsgKind) (hdr ext : Nat) (data : List Byte) :
    State :=
  let host : Bool := s.on (R.PD_PE_CFG.HOST_VDM p) && !s.md.standAlone
  let s := if host then
      (if needs then s.askHost p sop1 kind hdr ext data else s.toHost p sop1 false hdr ext data)
    else if discardKind kind || !needs then s
    else s.autoReply p kind
  if kind = .alert then s.startSeq p .getStatus
  else if kind = .status && (s.pe p).await = .getStatus then s.endSeq p
  else s

/-- HOST_ROUTED_RX (R183, R213): `needs` tells whether the message is a request that needs a reply. -/
def execHostRoutedRx (p : Fin 4) (sop1 needs : Bool) (kind : MsgKind) (hdr ext : Fin 65536) (data : List Byte)
    (s : State) : Res := .next <|
  s.when (s.listens p && hostKind kind) fun s => s.hostRouted p sop1 needs kind hdr ext data

/-- DR_SWAP_RX (R207, R213). -/
def execDrSwapRx (p : Fin 4) (hdr : Fin 65536) (s : State) : Res := .next <|
  s.when (s.listens p && s.inReady p) fun s =>
    if !s.on (R.PD_PE_CFG.HOST_DRS p) || s.md.standAlone then s.send p 0 .reject []
    else if s.on R.HIF_EVQ_CFG.EN then
      (((s.breakOff p).modPe p fun x => { x with seq := .drSwap }).setPe p 0x23).askHost p false .drSwap hdr 0 []
    else s.askHost p false .drSwap hdr 0 []

/-- A DR_Swap that was passed to the host ends without a change of roles (R207, R215). -/
def State.drsOver (s : State) (p : Fin 4) (kind : Option MsgKind) : State :=
  if kind = some .drSwap then (s.setPe p (s.readyState p)).endSeq p else s

/-- HOST_REPLY_TIMEOUT (R213). -/
def execHostReplyTimeout (p : Fin 4) (s : State) : Res := .next <|
  s.when (s.on (R.PD_PE_STATUS.HOST_WAIT p)) fun s =>
    let kind := (s.pe p).hostMsg
    let s := match kind with | some k => s.autoReply p k | none => s
    let s := (s.set (R.PD_PE_STATUS.HOST_WAIT p) 0).modPe p fun x => { x with hostMsg := none, hostLate := true }
    (s.peEvent p (R.PD_PE_EVENT.HOST_TIMEOUT p) 0x09).drsOver p kind

/-! ### Requests answered from tables (R183) -/

/-- Sink_Capabilities (R190, R208): the sink table, its first object with the Fast Role Swap current. -/
def State.sinkCaps (s : State) (p : Fin 4) (n : Nat) : List Nat :=
  let ws := s.table (R.PD_SNK_PDO.W p) 0 n
  match ws with
  | [] => []
  | w :: rest =>
    let w := w - objBits w 23 2 * 2 ^ 23 + s.get (R.PD_PE_CFG.FRS_CUR p) * 2 ^ 23
    if n ≤ 7 then w :: rest.filter (fun v => v != 0) else w :: rest

/-- An answer whose content the spec does not state: a free word (log entry 24). -/
def State.answerFree (s : State) (p : Fin 4) (kind : MsgKind) : State :=
  let d := s.draw
  d.2.send p 0 kind [d.1.toNat]

/-- Get_Source_Cap is answered (R183, R199): the source sends its capabilities as a sequence, a port in the sink role
answers alone. -/
def State.answerSrcCaps (s : State) (p : Fin 4) : State :=
  if s.isSrc p then (s.breakOff p).sendSrcCaps p
  else (s.putTable (R.PD_OFFER_PDO.W p) 0 7 (s.offers p)).send p 0 .sourceCaps (s.offers p)

/-- Answers a request from the tables and the unit's state; Ping is ignored, and what R183 does not support is refused.
A port without a source table, or in stand-alone behaviour, has no source capabilities. -/
def State.tableAnswer (s : State) (p : Fin 4) (kind : MsgKind) : State :=
  match kind with
  | .getSourceCap =>
    if s.get (R.PD_SRC_PDO.W p 0) = 0 || s.md.standAlone then s.send p 0 (s.refuseKind p) [] else s.answerSrcCaps p
  | .getSinkCap => s.send p 0 .sinkCaps (s.sinkCaps p 7)
  | .eprGetSourceCap =>
    if s.get (R.PD_SRC_PDO.W p 0) = 0 || s.md.standAlone then s.send p 0 (s.refuseKind p) []
    else s.send p 0 .eprSourceCaps (s.offers p)
  | .eprGetSinkCap => s.send p 0 .eprSinkCaps (s.sinkCaps p 11)
  | .getRevision => s.send p 0 .revision [0x32000000]
  | .getSourceCapExt => s.answerFree p .sourceCapsExt
  | .getSinkCapExt => s.answerFree p .sinkCapsExt
  | .getStatus => s.answerFree p .status
  | .getPpsStatus => s.answerFree p .ppsStatus
  | .getSourceInfo => s.answerFree p .sourceInfo
  | .getBatteryCap => s.answerFree p .batteryCaps
  | .getBatteryStatus => s.answerFree p .batteryStatus
  | .getManufacturerInfo =>
    if s.md.standAlone then s.send p 0 (s.refuseKind p) [] else s.answerFree p .manufacturerInfo
  | .gotoMin => s.send p 0 (s.refuseKind p) []
  | .getCountryCodes => s.send p 0 (s.refuseKind p) []
  | .getCountryInfo => s.send p 0 (s.refuseKind p) []
  | .countryCodes => s.send p 0 (s.refuseKind p) []
  | .countryInfo => s.send p 0 (s.refuseKind p) []
  | .other => s.send p 0 (s.refuseKind p) []
  | _ => s

/-- TABLE_REQUEST_RX (R183). -/
def execTableRequestRx (p : Fin 4) (kind : MsgKind) (s : State) : Res := .next <|
  s.when (s.listens p) fun s => s.tableAnswer p kind

/-! ### Chunks (R182) -/

/-- Words of a list of bytes. -/
def wordsOf (bs : List Byte) : List Nat := (List.range ((bs.length + 3) / 4)).map fun k => leAt bs (4 * k) 4

/-- A complete extended message reaches the engine: capabilities to R192, the rest to the host. -/
def State.deliver (s : State) (p : Fin 4) (sop1 : Bool) (kind : MsgKind) (hdr ext : Nat) (data : List Byte) : State :=
  if kind = .eprSourceCaps then
    (if s.takesCaps p (s.get (R.PD_VBUS_MEAS.VBUS p)) then s.takeCaps p true (wordsOf data) else s)
  else if hostKind kind then
    s.hostRouted p sop1 (kind = .vdmExtended || kind = .securityRequest || kind = .fwUpdateRequest) kind hdr ext data
  else s

/-- A chunk of a message being received (R182): the next one is requested until the message is whole. -/
def State.takeChunk (s : State) (p : Fin 4) (sop1 : Bool) (kind : MsgKind) (hdr ext : Nat) (bytes : List Byte) : State :=
  let k := objBits ext 11 4
  let total := min 260 (objBits ext 0 9)
  let old := match (s.tc p).chunk with | some c => if c.sending then [] else c.data | none => []
  let data := ((if k = 0 then [] else old) ++ bytes).take total
  if data.length ≥ total then (s.modTc p fun y => { y with chunk := none }).deliver p sop1 kind hdr ext data
  else
    let s := s.modTc p fun y => { y with chunk := some { sending := false, kind := kind, data := data, total := total } }
    s.send p 0 kind [extHeader (k + 1) 0 true]

/-- CHUNK_RX (R182): a chunk request sends the next chunk; a chunk adds to the message; an unchunked extended message is
answered with Not_Supported. -/
def execChunkRx (p : Fin 4) (sop1 : Bool) (kind : MsgKind) (hdr ext : Fin 65536) (bytes : List Byte) (s : State) : Res :=
  .next <| s.when (s.listens p) fun s =>
    if !bitAt ext 15 then s.send p 0 .notSupported []
    else if bitAt ext 10 then
      match (s.tc p).chunk with
      | some x => if x.sending then s.sendChunk p (objBits ext 11 4) x else s
      | none => s
    else s.takeChunk p sop1 kind hdr ext bytes

end Sys2Proof.Machine
end

