-- ==== Sys2Proof/Machine/PdCmd.lean ====
section
/-! DEFINITION. The PD commands (R216 to R222): port policy, source and sink tables, contract requests, messages, swaps,
Hard Reset and port disabling. -/

namespace Sys2Proof.Machine

/-- A command's sequence runs or waits on the port (R214). -/
def State.portBusy (s : State) (p : Fin 4) : Bool := (s.pe p).cmd.isSome

/-- The command waits for the end of sequence `q`, which it starts. -/
def State.cmdSeq (s : State) (p : Fin 4) (h : Nat) (q : PeSeq) : State :=
  (s.modPe p fun x => { x with cmd := some h, cmdSeq := q }).startSeq p q

/-! ### PD_SET_PORT_POLICY (R216) -/

/-- The numeric parameters of PD_SET_PORT_POLICY: byte, value, low, high. -/
def policyNums (c : Cmd) : List (Nat × Nat × Nat × Nat) :=
  [(4, c.num 4 2, 5000, 48000), (6, c.num 6 2, 3300, 48000), (8, c.num 8 4, 0, 240000), (12, c.byte 12, 5, 25),
   (13, c.byte 13, 1, 10), (14, c.byte 14, 50, 90), (15, c.byte 15, 5, 30)]

/-- The flags of PD_SET_PORT_POLICY go to PE_CFG. -/
def State.putPolicyFlags (s : State) (p : Fin 4) (f pref frs : Nat) : State :=
  let s := (s.setb (R.PD_PE_CFG.EPR_EN p) (bitAt f 0)).setb (R.PD_PE_CFG.PPS_EN p) (bitAt f 1)
  let s := (s.setb (R.PD_PE_CFG.FRS_EN p) (bitAt f 2)).setb (R.PD_PE_CFG.PRS_ACCEPT p) (bitAt f 3)
  let s := (s.setb (R.PD_PE_CFG.VCS_ACCEPT p) (bitAt f 4)).setb (R.PD_PE_CFG.HOST_VDM p) (bitAt f 5)
  let s := (s.setb (R.PD_PE_CFG.HOST_DRS p) (bitAt f 6)).set (R.PD_PE_CFG.PREF p) pref
  s.set (R.PD_PE_CFG.FRS_CUR p) frs

/-- The numbers of PD_SET_PORT_POLICY go to their fields, each held in its range. -/
def State.putPolicyNums (s : State) (p : Fin 4) (c : Cmd) : State :=
  let v (q : Nat × Nat × Nat × Nat) : Nat := (clampTo q.2.2.1 q.2.2.2 q.2.1).1
  match (policyNums c).map v with
  | [vmax, apdo, pmin, hostTo, pps, epr, slew] =>
    let s := (s.set (R.PD_PE_SNK_CFG.VMAX p) vmax).set (R.PD_PE_SNK_CFG.APDO_V p) apdo
    let s := (s.set (R.PD_PE_SNK_PMIN.PMIN p) pmin).set (R.PD_PE_CFG.HOST_TO p) hostTo
    ((s.set (R.PD_PE_KA.PPS_KA p) pps).set (R.PD_PE_KA.EPR_KA p) epr).set (R.PD_PE_KA.SRC_SLEW p) slew
  | _ => s

/-- EPR_EN was cleared in EPR mode: the port leaves it (R198). -/
def State.eprCleared (s : State) (p : Fin 4) : State :=
  if s.on (R.PD_PE_STATUS.EPR_MODE p) && !s.on (R.PD_PE_CFG.EPR_EN p) && !(s.pe p).eprLeave then s.startSeq p .eprExit
  else s

/-- REEVAL asks for new capabilities: the port is a sink with a contract (R216). -/
def State.reevals (s : State) (p : Fin 4) (c : Cmd) : Bool :=
  bitAt (c.byte 1) 7 && !s.isSrc p && s.on (R.PD_PE_STATUS.EXPLICIT p)

/-- PD_SET_PORT_POLICY (R216): the values apply by R189; REEVAL sends Get_Source_Cap and lets EPR entry be tried again. -/
def opPdSetPortPolicy (c : Cmd) (s : State) : CmdRes × State :=
  let p := c.port
  let again := s.reevals p c
  if again && s.portBusy p then (fail 0x30, s)
  else
    let s := (s.putPolicyFlags p (c.byte 1) (c.byte 2) (c.byte 3)).putPolicyNums p c
    let s := s.eprCleared p
    let s := if again then (s.modPe p fun x => { x with eprTried := false }).startSeq p .getSourceCap else s
    (.done (clampReply (clamps (policyNums c)) 0), s)

/-- PD_SET_PORT_POLICY (R216). -/
def execPdSetPortPolicy (s : State) : Res := .next <| s.when true fun s => s.runCmd (isOp 0x30) opPdSetPortPolicy

/-! ### PD_SET_SOURCE_CAPS (R217) and PD_SET_SINK_CAPS (R218) -/

/-- The seven objects of a table command. -/
def cmdPdos (c : Cmd) : List Nat := (List.range 7).map fun k => c.num (4 + 4 * k) 4

/-- The parameter byte of the first object from `n` on that is not 0. -/
def restNonZero (ws : List Nat) (n : Nat) : Option Nat :=
  ((List.range 7).find? fun k => n ≤ k && ws.getD k 0 != 0).map fun k => 4 + 4 * k

/-- The first object is a fixed 5 V supply (R217, R218). -/
def firstIs5V (w : Nat) : Bool :=
  match supplyOf w with
  | .fixed v _ => v = 5000
  | _ => false

/-- The offered objects in order (R217): fixed supplies ascend to 20 V and precede every PPS APDO of 3.3 V to 21 V. -/
def srcOrder : Nat → Bool → List Nat → Bool
  | _, _, [] => true
  | last, apdo, w :: rest =>
    match supplyOf w with
    | .fixed v _ => !apdo && last < v && v ≤ 20000 && srcOrder v false rest
    | .pps lo hi _ => 3300 ≤ lo && hi ≤ 21000 && srcOrder last true rest
    | _ => false

/-- The source table was changed: a port in SRC_READY sends Source_Capabilities (R189). -/
def State.sourceTableChanged (s : State) (p : Fin 4) : State :=
  if s.peState p = 0x13 then s.startSeq p .sourceCaps else s

/-- PD_SET_SOURCE_CAPS (R217). -/
def opPdSetSourceCaps (c : Cmd) (s : State) : CmdRes × State :=
  let n := (clampTo 1 7 (c.byte 1)).1
  let ws := cmdPdos c
  match restNonZero ws n with
  | some k => (badField k, s)
  | none =>
    if !firstIs5V (ws.getD 0 0) then (badField 4, s)
    else if !srcOrder 0 false (ws.take n) then (badField 4, s)
    else
      let s := (s.putTable (R.PD_SRC_PDO.W c.port) 0 7 ws).sourceTableChanged c.port
      (.done (clampReply (clamps [(1, c.byte 1, 1, 7)]) 0), s)

/-- PD_SET_SOURCE_CAPS (R217). -/
def execPdSetSourceCaps (s : State) : Res := .next <| s.when true fun s => s.runCmd (isOp 0x31) opPdSetSourceCaps

/-- An SPR object (R218): a fixed supply of up to 20 V, or a variable, battery or SPR programmable supply. -/
def isSpr (w : Nat) : Bool :=
  match supplyOf w with
  | .fixed v _ => w != 0 && v ≤ 20000
  | .avs _ _ _ => false
  | _ => objBits w 28 4 != 0xF

/-- An EPR object (R218): a fixed supply above 20 V, or an AVS APDO, up to 48 V. -/
def isEpr (w : Nat) : Bool :=
  match supplyOf w with
  | .fixed v _ => 20000 < v && v ≤ 48000
  | .avs _ hi _ => hi ≤ 48000
  | _ => false

/-- PD_SET_SINK_CAPS (R218). -/
def opPdSetSinkCaps (c : Cmd) (s : State) : CmdRes × State :=
  let spr : Bool := c.byte 1 = 0
  let top := if spr then 7 else 4
  let n := min top (c.byte 2)
  let ws := cmdPdos c
  if spr && n = 0 then (badField 2, s)
  else
    match restNonZero ws n with
    | some k => (badField k, s)
    | none =>
      if spr && !(firstIs5V (ws.getD 0 0) && (ws.take n).all isSpr) then (badField 4, s)
      else if !spr && !(ws.take n).all isEpr then (badField 4, s)
      else
        (.done (clampReply (clamps [(2, c.byte 2, 0, top)]) 0),
          s.putTable (fun k => R.PD_SNK_PDO.W c.port (k + if spr then 0 else 7)) 0 top ws)

/-- PD_SET_SINK_CAPS (R218). -/
def execPdSetSinkCaps (s : State) : Res := .next <| s.when true fun s => s.runCmd (isOp 0x32) opPdSetSinkCaps

/-! ### PD_REQUEST (R219) -/

/-- The voltage of a PD_REQUEST is one that the object gives (R219): 0, or its own, for a fixed supply. -/
def reqVoltOk (w mv : Nat) : Bool :=
  match supplyOf w with
  | .fixed v _ => mv = 0 || mv = v
  | .pps lo hi _ => lo ≤ mv && mv ≤ hi
  | .avs lo hi _ => lo ≤ mv && mv ≤ hi
  | .other => false

/-- PD_REQUEST (R219). -/
def opPdRequest (c : Cmd) (s : State) : CmdRes × State :=
  let p := c.port
  let pos := c.byte 1
  let st := s.peState p
  let w := s.get (R.PD_PARTNER_SRC_PDO.W p (pos - 1))
  if pos = 0 then (ok, s.modPe p fun x => { x with hold := none })
  else if s.portBusy p then (fail 0x30, s)
  else if (st != 0x04 && st != 0x05) || (pos > 7 && !s.on (R.PD_PE_STATUS.EPR_MODE p)) then (fail 0x22, s)
  else if pos > 11 || w = 0 then (badField 1, s)
  else if !reqVoltOk w (c.num 4 2) then (badField 4, s)
  else
    let s := s.modPe p fun x => { x with hold := some { pos := pos, mv := c.num 4 2, ma := c.num 8 4 } }
    (.wait, s.cmdSeq p c.handle .request)

/-- PD_REQUEST (R219). -/
def execPdRequest (s : State) : Res := .next <| s.when true fun s => s.runCmd (isOp 0x33) opPdRequest

/-! ### PD_SEND_MSG (R220) -/

/-- The message that a TYPE of PD_SEND_MSG names among those marked "on host command" (R183), by whether it carries data
objects or extended data; type codes of USB PD (log entry 8). -/
def hostCmdKind (typ count : Nat) : Option MsgKind :=
  if bitAt typ 15 then
    (match typ % 32 with
     | 0x06 => some .securityRequest | 0x07 => some .securityResponse
     | 0x08 => some .fwUpdateRequest | 0x09 => some .fwUpdateResponse
     | 0x1E => some .vdmExtended | _ => none)
  else if count = 0 then
    (match typ % 32 with
     | 0x09 => some .drSwap | 0x0E => some .dataReset | 0x0F => some .dataResetComplete | _ => none)
  else
    (match typ % 32 with
     | 0x0F => some .vdmUnstructured | 0x08 => some .enterUsb | _ => none)

/-- A reply of PD_SEND_MSG may be a plain answer too: Accept, Reject, Wait, Not_Supported (R213). -/
def replyKind (typ count : Nat) : Option MsgKind :=
  match hostCmdKind typ count with
  | some k => some k
  | none =>
    if bitAt typ 15 || count != 0 then none
    else
      match typ % 32 with
      | 0x03 => some .accept | 0x04 => some .reject | 0x0C => some .wait | 0x10 => some .notSupported | _ => none

/-- The host's reply to a message that waits for it is sent (R207, R213). -/
def State.hostReply (s : State) (p : Fin 4) (sop : Nat) (k : MsgKind) (objs : List Nat) : State :=
  let was := (s.pe p).hostMsg
  let s := (s.set (R.PD_PE_STATUS.HOST_WAIT p) 0).modPe p fun x => { x with hostMsg := none, seq := .hostMsg }
  let s := s.send p sop k objs
  if was != some .drSwap then s
  else if k = .accept then
    let s := s.setb (R.PD_PE_STATUS.DATA_ROLE p) (!s.on (R.PD_PE_STATUS.DATA_ROLE p))
    (s.setPe p (s.readyState p)).peEvent p (R.PD_PE_EVENT.SWAP p) 0x06
  else s.setPe p (s.readyState p)

/-- A message of the command goes out: the reply that waits, extended data in chunks, or a sequence of its own. -/
def State.hostSend (s : State) (p : Fin 4) (h sop : Nat) (reply : Bool) (k : MsgKind) (objs : List Nat)
    (ext : Option (List Byte)) : State :=
  let s := s.modPe p fun x => { x with cmd := some h, cmdSeq := .hostMsg }
  match ext with
  | some d =>
    let x : ChunkXfer := { sending := true, kind := k, data := d, total := d.length }
    if reply then (s.hostReply p sop k []).sendChunk p 0 x
    else (s.modTc p fun y => { y with chunk := some x }).startSeq p .hostMsg
  | none =>
    if reply then s.hostReply p sop k objs
    else (s.modPe p fun x => { x with heldMsg := some (sop, k, objs) }).startSeq p .hostMsg

/-- The port's refusal of a PD_SEND_MSG, where it has one (R214, R220): a reply with nothing pending or too late, a port
without a partner to talk to, a port whose command still runs. -/
def State.sendRefusal (s : State) (p : Fin 4) (reply : Bool) : Option Nat :=
  if reply && !s.on (R.PD_PE_STATUS.HOST_WAIT p) then some (if (s.pe p).hostLate then 0x60 else 0x22)
  else if !s.talks p then some 0x22
  else if s.portBusy p then some 0x30
  else none

/-- PD_SEND_MSG (R220); `data` is what the host's memory gives for EXT. -/
def opPdSendMsg (data : List Byte) (c : Cmd) (s : State) : CmdRes × State :=
  let p := c.port
  let reply := bitAt (c.byte 2) 0
  let ext := bitAt (c.byte 2) 1
  let count := min 7 (c.byte 3)
  let len := (clampTo 1 260 (c.num 16 2)).1
  let nums := if ext then [(16, c.num 16 2, 1, 260)] else [(3, c.byte 3, 0, 7)]
  let kind := if reply then replyKind (c.num 4 2) count else hostCmdKind (c.num 4 2) count
  if ext && c.src = .ec then (badField 2, s)
  else
    match kind, s.sendRefusal p reply with
    | none, _ => (badField 4, s)
    | some _, some st => (fail st, s)
    | some k, none =>
      let objs := (List.range count).map fun j => c.num (8 + 4 * j) 4
      let s := if ext then s.emit (.hostRead (c.num 8 8) len) else s
      let s := s.hostSend p c.handle (c.byte 1) reply k objs (if ext then some (sliceBytes data 0 len) else none)
      (.wait, s.modPe p fun x => { x with cmdClamp := clamps nums })

/-- PD_SEND_MSG (R220). -/
def execPdSendMsg (data : List Byte) (s : State) : Res := .next <|
  s.when true fun s => s.runCmd (isOp 0x34) (opPdSendMsg data)

/-! ### PD_SWAP (R221) -/

/-- A PD_SWAP of a kind. -/
def isSwap (kind : Nat) (c : Cmd) : Bool := c.opcode = 0x35 && c.byte 1 = kind

/-- The port may start a swap: attached to a partner that it talks with, in a ready state. -/
def State.maySwap (s : State) (p : Fin 4) : Bool := s.listens p && s.inReady p

/-- Starts the swap `q` unless the port is busy or the swap forbidden. -/
def State.swapCmd (s : State) (c : Cmd) (forbid : Bool) (q : PeSeq) : CmdRes × State :=
  let p := c.port
  if s.portBusy p then (fail 0x30, s)
  else if forbid || !s.maySwap p then (fail 0x22, s)
  else (.wait, s.cmdSeq p c.handle q)

/-- PD_SWAP of kind PR_Swap (R204, R221). -/
def opPdSwapPr (c : Cmd) (s : State) : CmdRes × State :=
  s.swapCmd c (s.prsRefused c.port || s.busMoving c.port) .prSwap

/-- PD_SWAP of kind VCONN_Swap (R206, R221). -/
def opPdSwapVconn (c : Cmd) (s : State) : CmdRes × State :=
  s.swapCmd c (s.vcsRefused c.port || (s.on (R.PD_PE_STATUS.VCONN_SRC c.port) && (s.tc c.port).discover.isSome))
    .vconnSwap

/-- PD_SWAP of kind DR_Swap (R207, R221). -/
def opPdSwapDr (c : Cmd) (s : State) : CmdRes × State :=
  s.swapCmd c (!s.on (R.PD_PE_CFG.HOST_DRS c.port) || s.md.standAlone) .drSwap

/-- PD_SWAP_PR (R221). -/
def execPdSwapPr (s : State) : Res := .next <| s.when true fun s => s.runCmd (isSwap 0) opPdSwapPr

/-- PD_SWAP_VCONN (R221). -/
def execPdSwapVconn (s : State) : Res := .next <| s.when true fun s => s.runCmd (isSwap 1) opPdSwapVconn

/-- PD_SWAP_DR (R221). -/
def execPdSwapDr (s : State) : Res := .next <| s.when true fun s => s.runCmd (isSwap 2) opPdSwapDr

/-! ### PD_HARD_RESET and PD_PORT_DISABLE (R222) -/

/-- PD_HARD_RESET (R194, R222). -/
def opPdHardReset (c : Cmd) (s : State) : CmdRes × State :=
  let p := c.port
  if (s.tcState p != 4 && s.tcState p != 7) || !s.talks p || s.supplyOnly p then (fail 0x22, s)
  else (ok, s.sendHardReset p)

/-- PD_HARD_RESET (R222). -/
def execPdHardReset (s : State) : Res := .next <| s.when true fun s => s.runCmd (isOp 0x36) opPdHardReset

/-- A write of DISABLE that the register ignores (R188). -/
def State.disableIgnored (s : State) (p : Fin 4) (v : Bool) : Bool := v && s.onlySink p && s.bat = batOff

/-- Sets or clears DISABLE (R188): disabled, the port leaves its attachment, which is a drop for the input matrix, and
opens CC; enabled again, it returns to its unattached state. -/
def State.setDisable (s : State) (p : Fin 4) (v : Bool) : State :=
  if s.disableIgnored p v || s.on (R.PD_CTRL.DISABLE p) = v then s
  else if v then
    let was := s.on (R.PD_CC_STATUS.ATTACHED p)
    let s := (s.set (R.PD_CTRL.DISABLE p) 1).detachPort p
    let s := if was then s.set (R.PD_EVENT.DETACH p) 1 else s
    let s := (s.modTc p fun x => { x with bmc := false }).setPe p 0x00
    (((s.setTerm p .open_).setTc p 0).autoSelect)
  else
    let s := s.set (R.PD_CTRL.DISABLE p) 0
    if s.tcState p = 0 then (s.setTerm p (s.restTerm p)).setTc p (s.unattachedOf p) else s

/-- PD_PORT_DISABLE (R222). -/
def opPdPortDisable (c : Cmd) (s : State) : CmdRes × State :=
  let p := c.port
  let v : Bool := c.byte 1 = 1
  if s.disableIgnored p v then (fail 0x22, s) else (ok, s.setDisable p v)

/-- PD_PORT_DISABLE (R222). -/
def execPdPortDisable (s : State) : Res := .next <| s.when true fun s => s.runCmd (isOp 0x37) opPdPortDisable

end Sys2Proof.Machine
end

