-- ==== Sys2Proof/Machine/Stage.lean ====
section
/-! DEFINITION. The power stage's commands (03_power_stage.md): precharge, refresh, the valleys of the control law, the
limiters of a group, phase shedding, PHASE_MAP_SET, phase faults and VDRV. -/

namespace Sys2Proof.Machine

/-! ### Switching phases -/

/-- A phase begins to switch (R52, R54, R60, R64): start dead time, drive level and inductance estimate, zero trim, and
the 32-period ramp where other phases of its group switch already. A group that starts beside a sinking one joins the
VSYS loop of the unit where it stands (R85). -/
def State.startSwitching (s : State) (ph : Fin 6) : State :=
  let g : Fin 2 := if s.mapOf ph = 2 then 1 else 0
  let joins := s.nSwitch g != 0
  let o : Fin 2 := if g = 0 then 1 else 0
  let dt := s.get (R.PH_DT.DT_INIT ph)
  let s := s.when (!joins && s.nSwitch o != 0 && !s.isSource o) fun s =>
    s.modGroup g fun x => { x with intVsys := (s.stage.groups.get o).intVsys }
  let s := s.modPhase ph fun x =>
    { x with precharge := false, ocRun := 0, trim := 0, ramp := if joins then 32 else 0, clHit := false,
             dtARise := dt, dtAFall := dt, dtBRise := dt, dtBFall := dt, lEst := s.get (R.PH_HW.L_NOM ph),
             drvHeld := none, drvApplied := s.get (R.PH_HW.DRV_LVL ph), refresh := 0, tOn := 0, lastLen := 0 }
  (s.setBit R.CNV_STATUS.SWITCHING ph true).reinterleave g

/-- BOOTSTRAP_PRECHARGE_DONE (R53). -/
def execBootstrapPrechargeDone (ph : Fin 6) (s : State) : Res := .next <|
  s.when ((s.stage.phases.get ph).precharge && s.mayswitch) fun s => s.startSwitching ph

/-- The high side that the region holds on (R53, R58): a switching phase in BUCK or BOOST. -/
def State.heldOn (s : State) (ph : Fin 6) : Bool :=
  let g : Fin 2 := if s.mapOf ph = 2 then 1 else 0
  s.switching ph && (s.get (R.CNV_GRP_STATUS.REGION g) = 0 || s.get (R.CNV_GRP_STATUS.REGION g) = 2)

/-- BOOTSTRAP_REFRESH (R53): the count of periods since the refresh starts again. -/
def execBootstrapRefresh (ph : Fin 6) (s : State) : Res := .next <|
  s.when (s.heldOn ph) fun s => s.modPhase ph fun x => { x with refresh := 0 }

/-- DRV_LVL_APPLY (R52): the held level applies once the phase does not switch. -/
def execDrvLvlApply (ph : Fin 6) (s : State) : Res := .next <|
  s.when (!s.switching ph && (s.stage.phases.get ph).drvHeld.isSome) fun s =>
    s.modPhase ph fun x => { x with drvApplied := x.drvHeld.getD x.drvApplied, drvHeld := none }

/-- DELAY_LINE_CALIBRATE (R57). -/
def execDelayLineCalibrate (s : State) : Res := .next <|
  s.when true fun s => { s with stage := { s.stage with delayCal := s.ts } }

/-! ### The control law (R54, R58 to R61, R64) -/

/-- Group of a mapped phase. -/
def State.groupOf (s : State) (ph : Fin 6) : Fin 2 := if s.mapOf ph = 2 then 1 else 0

/-- Phases that take a share of IREF: switching, not in a self-check (R64, R72). -/
def State.sharing (s : State) (g : Fin 2) : List (Fin 6) :=
  (s.groupPhases g).filter fun (ph : Fin 6) => s.switching ph && !(s.stage.phases.get ph).checking

/-- Thirty-seconds of its full share that a phase takes: a joining phase ramps up over 32 periods, a leaving one down
over 16 (R64, R67). -/
def Phase.part (x : Phase) : Nat :=
  if x.moving && x.ramp ≤ 16 then 2 * x.ramp else 32 - min 32 x.ramp

/-- The full share of a group's reference, in mA: the phases at full share carry what the ramping ones do not. -/
def State.share (s : State) (g : Fin 2) (ph : Fin 6) : Int :=
  let iref := s.geti (R.CNV_GRP_STATUS.IREF g) * 2
  let n : Int := (s.sharing g).length
  let part : Int := (s.stage.phases.get ph).part
  let partial_ := (s.sharing g).filter fun (q : Fin 6) => (s.stage.phases.get q).part < 32
  let taken := partial_.foldl (fun (acc : Int) (q : Fin 6) => acc + iref * ((s.stage.phases.get q).part : Int) / (32 * n)) 0
  let full : Int := n - partial_.length
  if part < 32 then iref * part / (32 * n) else (iref - taken) / full

/-- The balance trim in force, in mA: the phase's trim less the group mean, so that trims sum to zero (R64). -/
def State.trimOf (s : State) (g : Fin 2) (ph : Fin 6) : Int :=
  let ps := s.sharing g
  let sum := ps.foldl (fun (acc : Int) (q : Fin 6) => acc + (s.stage.phases.get q).trim) 0
  ((s.stage.phases.get ph).trim - sum / (ps.length : Int)) / 1000

/-- The phase reference i_ref in mA (R64); 0 A during a self-check (R72). -/
def State.iRef (s : State) (ph : Fin 6) : Int :=
  if (s.stage.phases.get ph).checking then 0
  else s.share (s.groupOf ph) ph + s.trimOf (s.groupOf ph) ph

/-- Rising slope from the bus voltages and L_EST, in 4 mA/µs (R58, R60). -/
def slopeRise (region vin vsys lEst : Nat) : Int :=
  let v : Int := if region = 0 then (vin : Int) - vsys else vin
  (v * 25).tdiv lEst

/-- Falling slope from the bus voltages and L_EST, in 4 mA/µs (R58, R60). -/
def slopeFall (region vin vsys lEst : Nat) : Int :=
  let v : Int := if region = 2 then (vin : Int) - vsys else -(vsys : Int)
  (v * 25).tdiv lEst

/-- t_on of R59 in units of 78.125 ps, on the nearest grid point: currents in mA, slopes in 4 mA/µs. -/
def lawTon (iRef iv mr mf : Int) (t : Nat) (corr : Int) : Int :=
  let den := mr - mf
  (2 * ((iRef - iv) * 3200 - mf * t) + den) / (2 * den) - corr

/-- The steady-state t_on from the voltage-derived slopes (R59, R69). -/
def steadyTon (mr mf : Int) (t : Nat) : Int := (2 * (-mf * t) + (mr - mf)) / (2 * (mr - mf))

/-- An applied dead time moves toward its target by at most 8 steps, within DT_MIN and DT_MAX (R54). -/
def adaptDt (cur meas lo hi : Nat) : Nat :=
  let target := meas + 13
  let v := if target > cur then min target (cur + 8) else max target (cur - 8)
  max lo (min hi v)

/-- L_EST held within ±30 % of L_NOM (R60). -/
def clampL (l nom : Nat) : Nat := max (nom * 7 / 10) (min (nom * 13 / 10) l)

/-- The dead times at a valley (R54): adaptation, PH_DTMEAS, and the sticky miss when a node had not crossed by
DT_MAX. -/
def State.valleyDt (s : State) (ph : Fin 6) (v : ValleySample) : State :=
  let lo := s.get (R.PH_DT.DT_MIN ph)
  let hi := s.get (R.PH_DT.DT_MAX ph)
  let s := s.modPhase ph fun x =>
    { x with dtARise := adaptDt x.dtARise v.dARise lo hi, dtAFall := adaptDt x.dtAFall v.dAFall lo hi,
             dtBRise := adaptDt x.dtBRise v.dBRise lo hi, dtBFall := adaptDt x.dtBFall v.dBFall lo hi }
  let x := s.stage.phases.get ph
  let s := ((s.setSat (R.PH_DTMEAS.A_RISE ph) (x.dtARise / 4)).setSat (R.PH_DTMEAS.A_FALL ph) (x.dtAFall / 4))
  let s := ((s.setSat (R.PH_DTMEAS.B_RISE ph) (x.dtBRise / 4)).setSat (R.PH_DTMEAS.B_FALL ph) (x.dtBFall / 4))
  if v.dARise > hi || v.dAFall > hi || v.dBRise > hi || v.dBFall > hi then s.setBit (R.PH_FAULT.FLAGS ph) 2 true else s

/-- The expected valley current of R60 in mA from the previous period's edges. -/
def expectedIv (prev : Int) (mr mf : Int) (tOn len : Nat) : Int :=
  prev + (mr * tOn + mf * ((len : Int) - tOn)) / 3200

/-- A phase leaving its group stops at a valley once its share is at 0 A, takes its new map entry, and precharges where
its new group switches; elsewhere its move has ended (R67). -/
def State.leaveGroup (s : State) (ph : Fin 6) : State :=
  match s.stage.mapChange with
  | none => s
  | some m =>
    let old := s.groupOf ph
    let code := m.target / 4 ^ ph.val % 4
    let s := s.gateOff ph
    let map := s.get R.CNV_PHASE_MAP.MAP
    let s := s.set R.CNV_PHASE_MAP.MAP (map - map / 4 ^ ph.val % 4 * 4 ^ ph.val + code * 4 ^ ph.val)
    let s := (s.reinterleave old).writePmax old
    let new := s.groupOf ph
    if code != 0 && s.nSwitch new != 0 then
      (s.modPhase ph fun x => { x with precharge := true, moving := true }).writePmax new
    else (s.modPhase ph fun x => { x with moving := false }).writePmax new

/-- Where a phase's map entry is the one its move leads to. -/
def State.arrived (s : State) (ph : Fin 6) : Bool :=
  match s.stage.mapChange with
  | none => true
  | some m => s.mapOf ph = m.target / 4 ^ ph.val % 4

/-- One period of a phase's share ramp (R64, R67): a leaving phase counts 16 periods down and stops; a joining one
counts 32. -/
def State.valleyRamp (s : State) (ph : Fin 6) : State :=
  let x := s.stage.phases.get ph
  if x.moving && !s.arrived ph then
    if x.ramp ≤ 1 then s.leaveGroup ph else s.modPhase ph fun x => { x with ramp := x.ramp - 1 }
  else if x.ramp = 0 then s.modPhase ph fun x => { x with moving := false }
  else s.modPhase ph fun x => { x with ramp := x.ramp - 1, moving := x.moving && x.ramp != 1 }

/-- The trim's integration (R64): the difference of the group mean and the phase's valley current, over 64 periods,
bounded to 10 % of IPH_LIM. -/
def State.valleyTrim (s : State) (ph : Fin 6) (iv : Int) : State :=
  let ps := s.sharing (s.groupOf ph)
  let sum := ps.foldl (fun (acc : Int) (q : Fin 6) => acc + s.geti (R.PH_STATUS.IVAL q) * 2) 0
  let mean := if ps.isEmpty then iv else sum / (ps.length : Int)
  let top : Int := s.get (R.PH_CFG.IPH_LIM ph) * 2 * 100
  s.modPhase ph fun x => { x with trim := max (-top) (min top (x.trim + (mean - iv) * 1000 / 64)) }

/-- Phase add-back (R66): when a phase's share exceeds SHED_HI % of IPH_LIM, the lowest-numbered shed phase of the group
restarts. -/
def State.addBack (s : State) (g : Fin 2) : State :=
  let hi := s.get (R.CNV_GRP_DYN.SHED_HI g)
  let big := (s.sharing g).any fun ph => (s.share g ph).natAbs * 100 > hi * (s.get (R.PH_CFG.IPH_LIM ph) * 2)
  if !big then s
  else
    match (s.groupPhases g).find? fun (ph : Fin 6) => s.shed ph && !s.retired ph with
    | none => s
    | some ph => (s.setBit R.CNV_STATUS.SHED ph false).startSwitching ph

/-- The valley of a switching phase (R54, R59 to R61, R64, R66, R69). -/
def State.phaseValley (s : State) (ph : Fin 6) (v : ValleySample) : State :=
  let g := s.groupOf ph
  let x := s.stage.phases.get ph
  let region := s.get (R.CNV_GRP_STATUS.REGION g)
  let nom := s.get (R.PH_HW.L_NOM ph)
  let lEst := if v.mr.isSome && v.mf.isSome then clampL v.lEst nom else x.lEst
  let mrV := slopeRise region v.vin v.vsys (max 1 lEst)
  let mfV := slopeFall region v.vin v.vsys (max 1 lEst)
  let mr := v.mr.getD mrV
  let mf := v.mf.getD mfV
  let prev := s.geti (R.PH_STATUS.IVAL ph) * 2
  let off := x.lastLen != 0 && region != 3 &&
    (v.iv - expectedIv prev mrV mfV x.tOn x.lastLen).natAbs * 10 > s.get (R.PH_CFG.IPK_LIM ph) * 2
  let s := s.valleyDt ph v
  let s := s.modPhase ph fun x => { x with lEst := lEst, refresh := x.refresh + 1,
                                           ocRun := if x.clHit then x.ocRun else 0 }
  let s := s.setb (R.PH_STATUS.CL_ACTIVE ph) x.clHit
  let s := s.modPhase ph fun x => { x with clHit := false }
  let s := s.seti (R.PH_STATUS.IVAL ph) (v.iv / 2)
  let s := (s.seti (R.PH_SLOPE.M_R ph) mr).seti (R.PH_SLOPE.M_F ph) mf
  let s := s.setb (R.PH_STATUS.FF_HOLD ph) off
  let s := if off then s.setBit (R.PH_FAULT.FLAGS ph) 3 true else s
  let s := s.valleyTrim ph v.iv
  let want := if off then steadyTon mrV mfV v.len else lawTon (s.iRef ph) v.iv mr mf v.len v.refresh
  let lo : Int := s.get (R.PH_TMIN.TON_MIN ph)
  let hi : Int := (v.len : Int) - s.get (R.PH_TMIN.TOFF_MIN ph)
  let sat := want < lo || want > hi
  let tOn := if want < lo then lo else if want > hi then hi else want
  let s := s.setb (R.PH_STATUS.SAT ph) sat
  let s := s.modPhase ph fun x => { x with tOn := tOn.toNat, lastLen := v.len }
  let s := s.setb (R.CNV_GRP_STATUS.SAT g)
    ((s.groupPhases g).any fun q => s.switching q && s.on (R.PH_STATUS.SAT q))
  (s.valleyRamp ph).addBack g

/-- PHASE_VALLEY (R54, R59, R60, R61, R64, R66). -/
def execPhaseValley (ph : Fin 6) (v : ValleySample) (s : State) : Res := .next <|
  s.when (s.switching ph) fun s => s.phaseValley ph v

/-! ### The group reference (R55, R56, R58, R62 to R65, R83 to R89) -/

/-- The region at a reference valley (R58). -/
def nextRegion (region vin vsys : Nat) : Nat :=
  let k := vsys * 1000
  if region = 3 then (if k < 865 * vin then 0 else if k ≤ 1135 * vin then 1 else 2)
  else if region = 0 then (if k < 880 * vin then 0 else if k ≤ 1120 * vin then 1 else if k ≤ 1150 * vin then 1 else 2)
  else if region = 1 then (if k < 850 * vin then 0 else if k > 1150 * vin then 2 else 1)
  else if k > 1120 * vin then 2 else if k < 850 * vin then 0 else 1

/-- The group sinks: its bus connects a sink port or settles for one (R79), or it is the running partner of a parallel
pair (R330). -/
def State.groupSinks (s : State) (g : Fin 2) : Bool :=
  s.sinkConn g || (s.settlePort g).isSome ||
    (s.csc.parRun && s.on R.CSC_PAR_CFG.EN && !s.on R.CSC_PAR_CFG.OWNER && s.get R.CSC_PAR_CFG.GROUP = g)

/-- The group's part of a limit that a parallel pair shares by phases (R330). -/
def State.parPart (s : State) (g : Fin 2) (x : Nat) : Nat :=
  if s.csc.parN = 0 || !s.on R.CSC_PAR_CFG.EN || s.get R.CSC_PAR_CFG.GROUP != g then x
  else x * s.nonRetired g / (s.nonRetired g + s.csc.parN)

/-- The input string of a sink group: the connected port's, the one that the port of a settling bus would have (R79,
R136), or the one that the owner of a parallel pair sends (R330). -/
def State.stringIn (s : State) (g : Fin 2) : Nat :=
  if s.sinkConn g then s.get (R.BGT_STR_IN.P (s.busPort g))
  else
    match s.settlePort g with
    | some p => s.vExp p * s.iinFor g p * (100 - s.get R.BGT_SUPPLY_CFG.MARGIN_PCT) / 100000
    | none => s.csc.parInP

/-- P_g of R85: the lower of the group's input string and its GRP_PMAX. -/
def State.shareP (s : State) (g : Fin 2) : Nat :=
  if !s.groupSinks g then 0
  else min (s.parPart g (s.stringIn g)) (s.get (R.CNV_GRP_PMAX.PMAX g))

/-- The other group. -/
def otherGroup (g : Fin 2) : Fin 2 := if g = 0 then 1 else 0

/-- A unit is a counted follower of this master (R139, R326). -/
def State.member (s : State) (u : Fin 4) : Bool :=
  u != 0 && s.get R.CSC_STATUS.STATE = 1 && s.bit R.BGT_STATUS.MEMBERS u

/-- The units. -/
def allUnits : List (Fin 4) := [0, 1, 2, 3]

/-- The latest reports of the counted followers (R324). -/
def State.reports (s : State) : List ReportPart :=
  (allUnits.filter fun u => s.member u).filterMap fun u => (s.csc.peers.get u).report

/-- P_g of a follower's group (R85, R325). -/
def reportP (r : ReportPart) (g : Nat) : Nat := min (r.inGrp.getD g 0) (r.pmax.getD g 0)

/-- Sum of P_g over the followers' sink groups (R325). -/
def State.followerP (s : State) : Nat :=
  s.reports.foldl (fun (acc : Nat) r => acc + reportP r 0 + reportP r 1) 0

/-- What the followers' groups fall short of their parts by, in mA (R325). -/
def State.followerShort (s : State) : Nat := s.reports.foldl (fun (acc : Nat) r => acc + r.short) 0

/-- A group's share s_g of a quantity of the unit (R85), over every sink group of the cascade (R325). -/
def State.portion (s : State) (g : Fin 2) (x : Int) : Int :=
  let far := s.followerP
  if !(s.groupSinks g && s.groupSinks (otherGroup g)) && far = 0 then x
  else
    let pg := s.shareP g
    let sum := pg + s.shareP (otherGroup g) + far
    if sum = 0 then x / 2 else x * pg / sum

/-- A limiter of the group's own binds: THERM, PMAX, PHASE, STRING, VIN or IIN (R62, R85). -/
def State.ownLimited (s : State) (g : Fin 2) : Bool :=
  [0, 1, 2, 3, 6, 7].any fun k => s.bit (R.CNV_GRP_STATUS.LIMITER g) k

/-- A group's part of a unit-level candidate (R85, R325): its share, the shortfall of the unit's other group where that
group's own limiter holds it below its part, and the group's share of what the followers fall short by. -/
def State.partOf (s : State) (g : Fin 2) (x : Int) : Int :=
  let o := otherGroup g
  let lack := if s.groupSinks g && s.groupSinks o && s.ownLimited o then
    max 0 (s.portion o x - s.geti (R.CNV_GRP_STATUS.IREF o) * 2) else 0
  let mine := s.shareP 0 + s.shareP 1
  let far : Nat := if mine = 0 then 0 else s.followerShort * s.shareP g / mine
  s.portion g x + lack + far

/-- The group whose gains the VSYS loop of a sink group uses: group A while both groups sink, or in a cascade whose
followers sink, else the group's own (R63, R85, R325). -/
def State.loopGroup (s : State) (g : Fin 2) : Fin 2 :=
  if (s.groupSinks 0 && s.groupSinks 1) || s.followerP != 0 then 0 else g

/-- By how much the VSYS loop's output leads the references of the unit's sink groups, the group's new one included, in
mA of the output (R62, R85). -/
def State.vsysLead (s : State) (g : Fin 2) (out iref : Int) : Int :=
  let o := otherGroup g
  let sum := iref + (if s.groupSinks o && !s.isSource o then s.geti (R.CNV_GRP_STATUS.IREF o) * 2 else 0)
  let mine := s.shareP 0 + s.shareP 1
  let far := s.followerP
  if far = 0 || mine = 0 then out - sum else out - sum * ((mine + far : Nat) : Int) / (mine : Int)

/-- The PHASE limiter (R62, R66, R70): IPH_LIM summed over the non-retired phases, in mA. -/
def State.phaseLim (s : State) (g : Fin 2) : Nat :=
  ((s.groupPhases g).filter fun (ph : Fin 6) => !s.retired ph && !(s.stage.phases.get ph).checking).foldl
    (fun (acc : Nat) (ph : Fin 6) => acc + s.get (R.PH_CFG.IPH_LIM ph) * 2) 0

/-- A power in mW as a current in mA at a voltage in mV. -/
def mwToMa (p v : Nat) : Nat := if v = 0 then 0 else p * 1000 / v

/-- f_d of R349 in 1/1000. -/
def State.derate (s : State) : Nat :=
  let tj := s.geti R.THM_STATUS.TJ
  let reg : Int := s.get R.THM_CFG.T_REG * 16
  let f := if tj ≤ reg then 1000 else max 250 (1000 - ((tj - reg) * 50 / 16).toNat)
  let hot := (List.range 8).any fun n =>
    s.on (R.THM_NTC_CFG.EN n) && s.on (R.THM_NTC_CFG.HI_DERATE n) &&
      s.geti (R.THM_NTC_TEMP.TEMP n) > s.geti (R.THM_NTC_CFG.HI n) * 16
  if hot then min f 500 else f

/-- f_c of R349 in 1/1000. -/
def State.fold (s : State) : Nat :=
  let tj := s.geti R.THM_STATUS.TJ
  let reg : Int := s.get R.THM_CFG.T_REG * 16
  let fold : Int := s.get R.THM_CFG.T_FOLD * 16
  if tj ≤ fold then 1000 else if tj ≥ reg then 0 else ((reg - tj) * 1000 / (reg - fold)).toNat

/-- The THERM limiter of R349 in mA; a source group takes no C_fold. -/
def State.thermLim (s : State) (g : Fin 2) (vsys : Nat) (isys : Int) : Nat :=
  let pmax := mwToMa (s.get (R.CNV_GRP_PMAX.PMAX g)) vsys
  let d := s.derate * pmax / 1000
  let d := if s.get R.THM_STATUS.REGION_LOST != 0 then min d (pmax / 2) else d
  if s.isSource g then d
  else
    let load := isys + mwToMa (s.bgt.pAux + s.bgt.drw) vsys + s.fold * (s.geti R.CHG_CURRENT.I_SET * 2) / 1000
    min d (s.portion g load).toNat

/-- IIN_EFF of a group in mA, raised while an overload grant stands (R141): the bus's own, the owner's for the partner of a parallel pair, and the group's part of it
by phases while a pair runs (R84, R330). -/
def State.groupIin (s : State) (g : Fin 2) : Nat :=
  let own := if s.sinkConn g then s.iinEff g
    else match s.settlePort g with
      | some p => s.iinFor g p
      | none => s.csc.parIin
  let own := match (s.bgt.ports.get (s.busPort g)).window with
    | some w => if w.granting && s.sinkConn g then own * w.pct / 100 else own
    | none => own
  s.parPart g own

/-- The bound of R98 on a source port's current, in mA. -/
def State.sourceBound (s : State) (p : Fin 4) : Nat :=
  if s.on (R.PD_PE_STATUS.EXPLICIT p) then
    if s.get (R.PD_PE_STATUS.CONTRACT p) = 2 then s.contractMa p else s.contractMa p * 110 / 100
  else if (s.ports.get p).pe.frsCur then frsMa (s.get (R.PD_PE_CFG.FRS_CUR p)) * 110 / 100
  else
    (match (s.ports.get p).tc.term with
     | .rp l => rpMa l
     | _ => 900) * 110 / 100

/-- The source port of a bus. -/
def State.sourcePort (s : State) (g : Fin 2) : Option (Fin 4) :=
  allPorts.find? fun p => (s.path.ports.get p).srcBus = some g

/-- The voltage a source bus follows, in mV (R63, R97): 5.0 V until the pair is closed and without a contract. -/
def State.sourceVolt (s : State) (p : Fin 4) : Nat :=
  if s.sourcing p && s.on (R.PD_PE_STATUS.EXPLICIT p) then
    match (s.ports.get p).pe.next with
    | some c => if (s.path.ports.get p).trans.isSome then c.mv else s.get (R.PD_PE_CONTRACT.VOLTAGE p)
    | none => s.get (R.PD_PE_CONTRACT.VOLTAGE p)
  else if s.sourcing p then
    match (s.ports.get p).pe.next with
    | some c => if (s.path.ports.get p).trans.isSome then c.mv else 5000
    | none => 5000
  else 5000

/-- The integrator's step in µA over one period of `len` units of 78.125 ps, for an error in mV (R63). -/
def piStep (ki : Nat) (err : Int) (len : Nat) : Int := ki * err * len * 78125 / 1000000000

/-- The loop output in mA from the error in mV and the integrator in µA (R63, R74). -/
def piOut (kp : Nat) (err integ : Int) : Int := err * kp / 64 + integ / 1000

/-- A list of candidates: LIMITER bit and value in mA (R62). -/
abbrev Cands := List (Nat × Int)

/-- The lowest candidate. -/
def Cands.low (c : Cands) : Int := c.foldl (fun acc x => min acc x.2) ((c.head?.map (·.2)).getD 0)

/-- The highest candidate. -/
def Cands.high (c : Cands) : Int := c.foldl (fun acc x => max acc x.2) ((c.head?.map (·.2)).getD 0)

/-- The LIMITER bits of the candidates equal to IREF (R62). -/
def Cands.bits (c : Cands) (iref : Int) : Nat :=
  c.foldl (fun acc x => if x.2 = iref then setBitAt acc x.1 else acc) 0

/-- What IREF may change in one period, in mA (R65): SLEW × 0.1 A/µs over the period. -/
def State.slewStep (s : State) (g : Fin 2) (len : Nat) : Int := s.get (R.CNV_GRP_DYN.SLEW g) * 100 * len * 78125 / 1000000000

/-- A value moved toward a target by at most a step. -/
def toward (cur target step : Int) : Int :=
  if target > cur then min target (cur + step) else max target (cur - step)

/-- The group ramps its reference to 0 A: for a change of direction (R65) or before its pair opens (R79). -/
def State.rampsDown (s : State) (g : Fin 2) : Bool :=
  (s.stage.groups.get g).dirTarget.isSome ||
    (match (s.path.buses.get g).move with | .ramp _ => true | _ => false)

/-- The sink candidates of R62 in mA, `vs` being the VSYS loop's output. -/
def State.sinkCands (s : State) (g : Fin 2) (v : GroupSample) (vs : Int) : Cands :=
  let follows := s.get R.BGT_STATUS.SOURCE = 1
  let loops : Cands :=
    if follows then [(11 - 6, s.csc.parts.get g + v.isys)]
    else [(15 - 6, s.partOf g vs), (11 - 6, s.partOf g (v.ichgOut + v.isys)), (10 - 6, s.partOf g v.vchgOut)]
  let prod : Int := if v.vsys = 0 then 0 else (s.groupIin g * v.vin / v.vsys : Nat)
  let corr := max (-(prod / 5)) (min (prod / 5) v.iinCorr)
  loops ++ [(12 - 6, v.vinOut), (13 - 6, max 0 (prod + corr)), (9 - 6, (s.bgt.strCand.get g : Int)),
    (8 - 6, (s.phaseLim g : Int)), (7 - 6, (mwToMa (s.get (R.CNV_GRP_PMAX.PMAX g)) v.vsys : Int)),
    (6 - 6, (s.thermLim g v.vsys v.isys : Int))]

/-- The source candidates of R62 in mA, `vb` being the VBUS loop's output. -/
def State.sourceCands (s : State) (g : Fin 2) (v : GroupSample) (vb : Int) : Cands :=
  let bound := match s.sourcePort g with | some p => s.sourceBound p | none => 0
  let iin : Int := if v.vsys = 0 then 0 else (bound * v.vin / v.vsys : Nat)
  [(14 - 6, vb), (13 - 6, -iin), (9 - 6, -(s.bgt.strCand.get g : Int)), (8 - 6, -(s.phaseLim g : Int)),
    (7 - 6, -(mwToMa (s.get (R.CNV_GRP_PMAX.PMAX g)) v.vsys : Int)), (6 - 6, -(s.thermLim g v.vsys v.isys : Int))]

/-- The half-period in force (R55): the written one, or the sync carrier's once the group has locked to it, kept when
its edges stop (R329). -/
def State.halfNow (s : State) (g : Fin 2) : Nat :=
  if s.on (R.CSC_LOCK.LOCK g) && s.csc.syncHalf != 0 then s.csc.syncHalf
  else s.get (R.CNV_GRP_CFG.HALF_PERIOD g)

/-- A half-period that waits for the reference valley takes effect, with re-interleave and recalibration (R55 to R57). -/
def State.takeHalf (s : State) (g : Fin 2) : State :=
  if (s.stage.groups.get g).half = s.halfNow g then s
  else
    let s := s.modGroup g fun x => { x with half := s.halfNow g }
    { s.reinterleave g with stage := { (s.reinterleave g).stage with delayCal := s.ts } }

/-- The measured values of a reference valley. -/
def State.valleyMeas (s : State) (g : Fin 2) (v : GroupSample) : State :=
  let s := (s.setSat (R.MOD_IN_MEAS.VIN g) v.vin).seti (R.MOD_IN_MEAS.IIN g) (v.iin / 2)
  (s.setSat R.MOD_VSYS_STATUS.VSYS v.vsys).seti R.MOD_SYS_MEAS.ISYS (v.isys / 2)

/-- Stores the reference of a period: IREF, the binding limiters, the VIN limiter's flag (R62, R83), and the
integrators of the loops, held under SAT and against winding beyond 2 A (R61, R62). -/
def State.setIref (s : State) (g : Fin 2) (iref : Int) (bits : Nat) (iv ib : Int) (done : Bool) : State :=
  let s := (s.seti (R.CNV_GRP_STATUS.IREF g) (iref / 2)).set (R.CNV_GRP_STATUS.LIMITER g) bits
  let s := s.setb (R.MOD_IN_STATE.FLOOR g) (bitAt bits (12 - 6))
  s.modGroup g fun x => { x with intVsys := iv, intVbus := ib, starting := x.starting && !done }

/-- While both groups sink, the unit has one VSYS loop, whose integrator both groups hold (R85). -/
def State.shareLoop (s : State) (g : Fin 2) : State :=
  if s.groupSinks g && s.groupSinks (otherGroup g) then
    s.modGroup (otherGroup g) fun x => { x with intVsys := (s.stage.groups.get g).intVsys }
  else s

/-- The reference valley of a group (R55 to R65, R83 to R89, R98, R349). -/
def State.refValley (s : State) (g : Fin 2) (v : GroupSample) : State :=
  let s := (s.valleyMeas g v).takeHalf g
  let s := s.set (R.CNV_GRP_STATUS.REGION g) (nextRegion (s.get (R.CNV_GRP_STATUS.REGION g)) v.vin v.vsys)
  let s := s.modGroup g fun x => { x with reint := x.reint - 1 }
  let x := s.stage.groups.get g
  let len := 2 * x.half
  let sat := s.on (R.CNV_GRP_STATUS.SAT g)
  let cur := s.geti (R.CNV_GRP_STATUS.IREF g) * 2
  let step := s.slewStep g len
  if s.isSource g then
    let target : Int := match s.sourcePort g with | some p => s.sourceVolt p | none => 0
    let err := (v.vbus : Int) - target
    let kp := s.get (R.CNV_GRP_LOOP.KP g)
    let integ := if sat then x.intVbus else x.intVbus + piStep (s.get (R.CNV_GRP_LOOP.KI g)) err len
    let out := piOut kp err integ
    let c := s.sourceCands g v out
    let full := min c.high 0
    let iref := if s.rampsDown g then toward cur 0 step
      else if x.starting then max full (toward cur full step) else full
    let integ := if out < iref - 2000 then integ + (iref - 2000 - out) * 1000 else integ
    s.setIref g iref (c.bits iref) x.intVsys integ (iref = full)
  else
    let err := (s.vsysTarget : Int) - v.vsys
    let lg := s.loopGroup g
    let kp := s.get (R.CNV_GRP_LOOP.KP lg)
    let runs : Bool := !sat && (g = lg || s.nSwitch lg = 0)
    let integ := if runs then x.intVsys + piStep (s.get (R.CNV_GRP_LOOP.KI lg)) err len else x.intVsys
    let out := piOut kp err integ
    let s := { s with stage := { s.stage with cand := min out (min (v.ichgOut + v.isys) v.vchgOut) } }
    let c := s.sinkCands g v out
    let full := max c.low 0
    let iref := if s.rampsDown g then toward cur 0 step
      else if x.starting then min full (toward cur full step) else full
    let lead := s.vsysLead g out iref
    let integ := if lead > 2000 then integ - (lead - 2000) * 1000 else integ
    (s.setIref g iref (c.bits iref) integ x.intVbus (iref = full)).shareLoop g

/-- GROUP_REF_VALLEY (R55, R58, R62 to R65, R83 to R89, R98, R349). -/
def execGroupRefValley (g : Fin 2) (v : GroupSample) (s : State) : Res := .next <|
  s.when (s.nSwitch g != 0) fun s => s.refValley g v

/-- DIR_RAMP_HANDOVER (R65): at 0 A regulation passes to the other loop, in the new direction. -/
def execDirRampHandover (g : Fin 2) (s : State) : Res := .next <|
  s.when ((s.stage.groups.get g).dirTarget.isSome && s.geti (R.CNV_GRP_STATUS.IREF g) = 0) fun s =>
    let d := (s.stage.groups.get g).dirTarget.getD 0
    let s := (s.set (R.CNV_GRP_CFG.DIR g) d).modGroup g fun x => { x with dirTarget := none, starting := true }
    s.eachPort allPorts fun s p =>
      if (s.path.ports.get p).srcBus = some g && (s.path.ports.get p).src = .dirRamp && d = 1 then
        s.modPath p fun x => { x with src := .raising }
      else s

/-! ### Shedding (R66) -/

/-- The highest-numbered switching phase of a group. -/
def State.topPhase (s : State) (g : Fin 2) : Option (Fin 6) := (s.sharing g).getLast?

/-- With one phase fewer each share stays below SHED_LO % of IPH_LIM (R66). -/
def State.maySheds (s : State) (g : Fin 2) : Bool :=
  let n := (s.sharing g).length
  s.on (R.CNV_GRP_CFG.SHED_EN g) && s.nSwitch g > s.get (R.CNV_GRP_CFG.SHED_MIN g) && n > 1 &&
    (s.sharing g).all fun ph =>
      (s.geti (R.CNV_GRP_STATUS.IREF g)).natAbs * 2 * 100 <
        s.get (R.CNV_GRP_DYN.SHED_LO g) * (s.get (R.PH_CFG.IPH_LIM ph) * 2) * (n - 1)

/-- PHASE_SHED (R66). -/
def execPhaseShed (g : Fin 2) (s : State) : Res := .next <|
  s.when (s.maySheds g) fun s =>
    match s.topPhase g with
    | none => s
    | some ph => ((s.gateOff ph).setBit R.CNV_STATUS.SHED ph true).reinterleave g

/-! ### PHASE_MAP_SET (R67, R68, R72) -/

/-- Bit of REINSTATE on a retired phase; on any other it is ignored. -/
def State.reinstates (s : State) (c : Cmd) (ph : Fin 6) : Bool := bitAt (c.byte 6) ph && s.retired ph

/-- The first parameter byte that check 2 of R68 refuses. -/
def State.mapBad (s : State) (c : Cmd) : Option Nat :=
  match allPhases.find? fun (ph : Fin 6) =>
      s.retired ph && !bitAt (c.byte 6) ph && c.byte ph != 0 && c.byte ph != s.mapOf ph with
  | some ph => some ph
  | none => if allPhases.any fun ph => s.reinstates c ph && c.byte ph = 0 then some 6 else none

/-- Check 4 of R68: a group whose pair is closed, or which sources, keeps a phase that counts. -/
def State.mapLeaves (s : State) (c : Cmd) (g : Fin 2) : Bool :=
  (!s.busConn g && !s.busSources g) ||
    allPhases.any fun ph => c.byte ph = g + 1 && (s.connects ph || s.reinstates c ph)

/-- The map that the command's bytes give. -/
def mapOfCmd (c : Cmd) : Nat := allPhases.foldl (fun (acc : Nat) (ph : Fin 6) => acc + c.byte ph * 4 ^ ph.val) 0

/-- One phase's part at the start of the sequence (R67, R72): a switching phase that leaves ramps down; any other takes
its entry, and precharges where its new group switches; a reinstated one begins its self-check there, or is marked. -/
def State.mapPhase (s : State) (c : Cmd) (ph : Fin 6) : State :=
  if s.mapOf ph != c.byte ph && s.switching ph then s.modPhase ph fun x => { x with moving := true, ramp := 16 }
  else
    let rein := s.reinstates c ph
    let changed := s.mapOf ph != c.byte ph
    let map := s.get R.CNV_PHASE_MAP.MAP
    let s := s.set R.CNV_PHASE_MAP.MAP (map - s.mapOf ph * 4 ^ ph.val + c.byte ph * 4 ^ ph.val)
    let run := c.byte ph != 0 && s.nSwitch (s.groupOf ph) != 0 && !s.inSafe
    if rein then
      if run then s.startCheck ph else s.modPhase ph fun x => { x with marked := true }
    else if changed && run && !s.retired ph then
      (s.setBit R.CNV_STATUS.SHED ph false).modPhase ph fun x => { x with moving := true, precharge := true }
    else s

/-- PHASE_MAP_SET on its parameters (R68). -/
def opPhaseMapSet (c : Cmd) (s : State) : CmdRes × State :=
  if s.stage.mapChange.isSome then (fail 0x30, s)
  else
    match s.mapBad c with
    | some k => (badField k, s)
    | none =>
      if allPhases.any fun ph => s.reinstates c ph && s.reinst ph ≥ 3 then (fail 0x20, s)
      else if !(s.mapLeaves c 0 && s.mapLeaves c 1) then (fail 0x22, s)
      else
        let s := if s.inSafe then s
          else { s with stage := { s.stage with mapChange := some { handle := some c.handle, target := mapOfCmd c } } }
        let s := s.eachPhase allPhases fun s ph => s.mapPhase c ph
        let s := (s.writePmax 0).writePmax 1
        if s.inSafe then (.done { status := 0x00, result := s.mapResult }, s) else (.wait, s)

/-- PHASE_MAP_SET (R67, R68). -/
def execPhaseMapSet (s : State) : Res := .next <| s.when true fun s => s.runCmd (isOp 0x61) opPhaseMapSet

/-- PHASE_MAP_SET_DONE (R67, R80): no phase moves or is checked any more. -/
def execPhaseMapSetDone (s : State) : Res := .next <|
  s.when (s.stage.mapChange.isSome &&
      allPhases.all fun ph => !(s.stage.phases.get ph).moving && !(s.stage.phases.get ph).checking) fun s =>
    s.finishMap.autoSelect

/-! ### Phase faults (R69 to R72) -/

/-- A phase whose gates run: switching, or precharging for it. -/
def State.inService (s : State) (ph : Fin 6) : Bool := s.switching ph || (s.stage.phases.get ph).precharge

/-- PHASE_CYCLE_LIMIT (R69): the hit counts once in its period. -/
def execPhaseCycleLimit (ph : Fin 6) (s : State) : Res := .next <|
  s.when (s.switching ph && !(s.stage.phases.get ph).clHit) fun s =>
    let s := (s.set (R.PH_STATUS.CL_ACTIVE ph) 1).setBit (R.PH_FAULT.FLAGS ph) 0 true
    (s.bump (R.PH_FAULT.CL_HITS ph)).modPhase ph fun x => { x with clHit := true, ocRun := x.ocRun + 1 }

/-- PHASE_OVERCURRENT (R69, R70). -/
def execPhaseOvercurrent (ph : Fin 6) (s : State) : Res := .next <|
  s.when (s.switching ph && (s.stage.phases.get ph).ocRun ≥ s.get (R.PH_HW.OC_CNT ph)) fun s => s.retire ph 1

/-- PHASE_HARD_OVERCURRENT (R69, R70). -/
def execPhaseHardOvercurrent (ph : Fin 6) (s : State) : Res := .next <|
  s.when (s.switching ph) fun s => s.retire ph 1

/-- PHASE_DRIVER_UV (R69, R70). -/
def execPhaseDriverUv (ph : Fin 6) (s : State) : Res := .next <|
  s.when (s.inService ph) fun s => (s.setBit (R.PH_FAULT.FLAGS ph) 1 true).retire ph 2

/-- PHASE_SW_NODE_FAULT (R69, R70). -/
def execPhaseSwNodeFault (ph : Fin 6) (s : State) : Res := .next <|
  s.when (s.switching ph) fun s => (s.setBit (R.PH_FAULT.FLAGS ph) 2 true).retire ph 3

/-- PHASE_SENSE_MISMATCH (R69, R70): the valley after one that put the phase on feed-forward mismatches again. -/
def execPhaseSenseMismatch (ph : Fin 6) (s : State) : Res := .next <|
  s.when (s.switching ph && s.on (R.PH_STATUS.FF_HOLD ph)) fun s => (s.setBit (R.PH_FAULT.FLAGS ph) 3 true).retire ph 4

/-- PHASE_SLOPE_FAULT (R69, R70). -/
def execPhaseSlopeFault (ph : Fin 6) (s : State) : Res := .next <|
  s.when (s.switching ph) fun s => (s.setBit (R.PH_FAULT.FLAGS ph) 3 true).retire ph 4

/-- PHASE_CM_FAULT (R69, R70). -/
def execPhaseCmFault (ph : Fin 6) (s : State) : Res := .next <|
  s.when (s.inService ph) fun s => (s.setBit (R.PH_FAULT.FLAGS ph) 3 true).retire ph 4

/-- PHASE_SELF_CHECK_DONE (R72): a phase that passes joins its group by the ramp of R64; one that fails stays retired
with the new cause. -/
def execPhaseSelfCheckDone (ph : Fin 6) (fail : Option (Fin 16)) (s : State) : Res := .next <|
  s.when ((s.stage.phases.get ph).checking) fun s =>
    match fail with
    | some cause => s.retire ph cause
    | none =>
      let s := s.setBit R.CNV_STATUS.RETIRED ph false
      let s := s.modPhase ph fun x => { x with checking := false, trim := 0, ramp := 32 }
      (s.reinterleave (s.groupOf ph)).writePmax (s.groupOf ph)

/-! ### VDRV (R73) -/

/-- A bus at a VDRV undervoltage (R73): a sink pair opens with its contract kept and its bus held; a move loses its
place. -/
def State.vdrvBus (s : State) (b : Fin 2) : State :=
  if s.sinkConn b then
    let p := s.busPort b
    (s.loseSink b).modBus b fun x => { x with held := some (p, .vdrv) }
  else s.groupStop b

/-- VDRV_UV (R73). -/
def execVdrvUv (s : State) : Res := .next <|
  s.when (s.on R.CNV_STATUS.STAGE_EN && !s.on R.CNV_STATUS.VDRV_UV) fun s =>
    let s := (s.set R.CNV_STATUS.VDRV_UV 1).set R.CNV_STATUS.VDRV_OK 0
    let s := s.eachPort allPorts fun s p => s.stopSource p 800
    let s := (s.vdrvBus 0).vdrvBus 1
    s.raiseFault 0x02 0x1 0xFF 0

/-- A pair that a VDRV undervoltage opened closes again while its port holds its contract (R73). -/
def State.vdrvBack (s : State) (b : Fin 2) : State :=
  match (s.path.buses.get b).held with
  | some (p, .vdrv) =>
    let s := s.modBus b fun x => { x with held := none }
    if s.holdsSink p && s.groupUsable b then s.beginConnect b p else s
  | _ => s

/-- VDRV_RECOVER (R73). -/
def execVdrvRecover (s : State) : Res := .next <|
  s.when (s.on R.CNV_STATUS.VDRV_UV) fun s =>
    let s := (s.set R.CNV_STATUS.VDRV_UV 0).set R.CNV_STATUS.VDRV_OK 1
    let s := (s.vdrvBack 0).vdrvBack 1
    (s.raiseFault 0x02 0x2 0xFF 0).autoSelect

end Sys2Proof.Machine
end

