-- ==== Sys2Proof/Machine/Budget.lean ====
section
/-! DEFINITION. The budget (06_budget_arbitration.md): the computation of R139, overload windows, sheds and restores,
SYS_THROT#, the local arbiter, intents, members of a cascade, and the budget commands. Powers are in mW. -/

namespace Sys2Proof.Machine

/-! ### Relief (R139) -/

/-- The relief state of R139. -/
def State.reliefNow (s : State) : Nat :=
  if s.on R.BGT_STATUS.THROT then 4
  else if s.get R.BGT_STATUS.SHED != 0 then 3
  else if s.bgt.lacks then 2
  else if s.bgt.chgCut then 1
  else 0

/-- RELIEF follows, with a BUDGET event on a change. -/
def State.updRelief (s : State) : State :=
  let r := s.reliefNow
  if s.get R.BGT_STATUS.RELIEF = r then s else (s.set R.BGT_STATUS.RELIEF r).raiseBudget 0x01 0xFF

/-! ### Input strings (R136, R141) -/

/-- IN_p of a connected sink port (R136), scaled in local fallback (R150); 0 of any other port. -/
def State.inBase (s : State) (p : Fin 4) : Nat :=
  match s.busOf p with
  | none => 0
  | some b =>
    if !s.sinkConn b then 0
    else
      let x := s.vExp p * s.iinEff b * (100 - s.get R.BGT_SUPPLY_CFG.MARGIN_PCT) / 100000
      let x := min x (s.get (R.CNV_GRP_PMAX.PMAX b))
      if s.get R.BGT_STATUS.SOURCE = 2 then x * s.get R.BGT_SUPPLY_CFG.FALLBACK_PCT / 100 else x

/-- Peak Current of the contracted fixed-supply PDO (R141); 0 without a fixed contract. -/
def State.peakCode (s : State) (p : Fin 4) : Nat :=
  if s.get (R.PD_PE_STATUS.CONTRACT p) = 1 then
    objBits (s.get (R.PD_PARTNER_SRC_PDO.W p (s.get (R.PD_PE_STATUS.OBJ_POS p) - 1))) 20 2
  else 0

/-- Percentage of a tier for a Peak Current code (R141); 0 for none. -/
def ovlPct (tier code : Nat) : Nat :=
  match tier, code with
  | 1, 1 => 150 | 1, 2 => 200 | 1, 3 => 200
  | 2, 1 => 125 | 2, 2 => 150 | 2, 3 => 175
  | 3, 1 => 110 | 3, 2 => 125 | 3, 3 => 150
  | _, _ => 0

/-- A tier's duration in µs (R141). -/
def tierUs (tier : Nat) : Nat := if tier = 1 then 1000 else if tier = 2 then 2000 else 10000

/-- The rest level of a window (R141). -/
def restLevel (inp usedUs pct : Nat) : Nat := (20000 * inp * 100 - usedUs * inp * pct) / ((20000 - min 19999 usedUs) * 100)

/-- The continuous string of a port, or the rest level of its window (R139, R141). -/
def State.inRest (s : State) (p : Fin 4) : Nat :=
  let x := s.inBase p
  match (s.bgt.ports.get p).window with
  | none => x
  | some w => if w.granting || w.usedUs = 0 then x else restLevel x w.usedUs w.pct

/-- The input string of a port with any grant (R141). -/
def State.inNow (s : State) (p : Fin 4) : Nat :=
  match (s.bgt.ports.get p).window with
  | some w => if w.granting then s.inBase p * w.pct / 100 else s.inRest p
  | none => s.inRest p

/-- Sum over the ports. -/
def sumPorts (f : Fin 4 → Nat) : Nat := allPorts.foldl (fun (acc : Nat) p => acc + f p) 0

/-- Writes the input strings. -/
def State.putIn (s : State) : State :=
  s.eachPort allPorts fun s p => s.set (R.BGT_STR_IN.P p) (if (s.busOf p).isSome then s.inNow p else 0)

/-- OVL shows the ports with a grant standing. -/
def State.setGrant (s : State) (p : Fin 4) (w : Option OvlWindow) : State :=
  (s.modPb p fun x => { x with window := w }).setBit R.BGT_STATUS.OVL p
    (match w with | some w => w.granting | none => false)

/-- A standing grant has run for the 10 µs since the last computation, and ends at the tier's duration (R141). -/
def State.ageGrant (s : State) (p : Fin 4) : State :=
  match (s.bgt.ports.get p).window with
  | none => s
  | some w =>
    if !w.granting then s
    else
      let used := w.usedUs + 10
      s.setGrant p (some { w with usedUs := used, granting := used < tierUs (s.get R.BGT_SUPPLY_CFG.OVL_TIER) })

/-- Grants overload where the pack cannot cover the gap, ends it where it is not needed (R139, R141). No new overload is
granted in local fallback (R150). -/
def State.grantOvl (s : State) (gap : Int) (p : Fin 4) : State :=
  let tier := s.get R.BGT_SUPPLY_CFG.OVL_TIER
  let pct := ovlPct tier (s.peakCode p)
  match (s.bgt.ports.get p).window with
  | none =>
    if gap > 0 && pct != 0 && (s.busOf p).isSome && s.get R.BGT_STATUS.SOURCE != 2 then
      s.setGrant p (some { usedUs := 0, pct := pct, granting := true })
    else s
  | some w =>
    if gap > 0 && pct != 0 && w.usedUs < tierUs tier && s.get R.BGT_STATUS.SOURCE != 2 then
      s.setGrant p (some { w with granting := true })
    else if gap ≤ 0 && w.granting then s.setGrant p (some { w with granting := false })
    else s

/-- The extension that a port's grant gives. -/
def State.extension (s : State) (p : Fin 4) : Nat :=
  match (s.bgt.ports.get p).window with
  | some w => if w.granting then s.inBase p * (w.pct - 100) / 100 else 0
  | none => 0

/-- The overload still available to a port, as the throttle ceiling counts it (R142). -/
def State.available (s : State) (p : Fin 4) : Nat :=
  let tier := s.get R.BGT_SUPPLY_CFG.OVL_TIER
  let pct := ovlPct tier (s.peakCode p)
  if pct = 0 || (s.busOf p).isNone || s.get R.BGT_STATUS.SOURCE = 2 then 0
  else
    match (s.bgt.ports.get p).window with
    | some w => if w.usedUs < tierUs tier then s.inBase p * (w.pct - 100) / 100 else 0
    | none => s.inBase p * (pct - 100) / 100

/-! ### Source strings (R138, R140, R144) -/

/-- STR_q in force for the budget: the cut string in a shed, else the contract's (R138, R144). -/
def State.strOf (s : State) (p : Fin 4) : Nat :=
  match (s.bgt.ports.get p).shed with
  | some sh => sh.cut
  | none => s.get (R.BGT_STR_SRC.P p)

/-- A source string is cut (R144): the port enters shed, or stays in it with a deeper cut, and new capabilities go out. -/
def State.cutTo (s : State) (p : Fin 4) (x : Nat) : State :=
  let old := s.get (R.BGT_STR_SRC.P p)
  let s := match (s.bgt.ports.get p).shed with
    | some sh =>
      let s := s.modPb p fun b => { b with shed := some { sh with cut := x } }
      if sh.taken then s.set (R.BGT_STR_SRC.P p) x else s
    | none =>
      let s := s.modPb p fun b => { b with shed := some { cut := x, before := old, taken := false },
                                           restore := some (b.restore.getD old) }
      (s.setBit R.BGT_STATUS.SHED p true).raiseBudget 0x07 p
  s.startSeq p .sourceCaps

/-- A source port that the cut may reach: unit, port, priority, string. -/
structure CutPort where
  unit : Fin 4
  port : Fin 4
  prio : Nat
  str  : Nat
  deriving DecidableEq, Repr

/-- One cut port stands before another (R140): the lower priority, then the higher port, then the higher unit. -/
def CutPort.before (a b : CutPort) : Bool :=
  a.prio < b.prio || (a.prio = b.prio && (a.port > b.port || (a.port = b.port && a.unit > b.unit)))

/-- Inserts by the order of R140. -/
def insertCut (a : CutPort) : List CutPort → List CutPort
  | [] => [a]
  | b :: t => if a.before b then a :: b :: t else b :: insertCut a t

/-- Priority of a port number. -/
def State.prioOf (s : State) (p : Fin 4) : Nat := s.get R.BGT_SRC_PRIO.PRIO / 4 ^ p.val % 4

/-- The source ports with a string, in the order of R140: this unit's, and the members'. -/
def State.cutOrder (s : State) : List CutPort :=
  let own := (allPorts.filter fun p => s.sourcing p && s.strOf p > 0).map fun p =>
    ({ unit := 0, port := p, prio := s.prioOf p, str := s.strOf p } : CutPort)
  let far := (allUnits.filter fun u => s.member u).flatMap fun u =>
    match (s.csc.peers.get u).report with
    | none => []
    | some r => (allPorts.filter fun (p : Fin 4) => r.strSrc.getD p 0 > 0).map fun (p : Fin 4) =>
        ({ unit := u, port := p, prio := s.prioOf p, str := r.strSrc.getD p 0 } : CutPort)
  (own ++ far).foldl (fun acc a => insertCut a acc) []

/-- Changes what the next master slot grants a follower. -/
def State.modFarGrant (s : State) (u : Fin 4) (f : Grant → Grant) : State :=
  { s with csc := { s.csc with grants := s.csc.grants.set u (f (s.csc.grants.get u)) } }

/-- A follower's source string in the next master slot. -/
def State.grantStr (s : State) (u p : Fin 4) (x : Nat) : State :=
  s.modFarGrant u fun g => { g with strSrc := g.strSrc.set p x }

/-- Cuts source strings in order until the cut is covered (R140). -/
def State.cutAll (s : State) (left : Nat) : List CutPort → State
  | [] => s
  | c :: rest =>
    let floor := s.get R.BGT_SRC_FLOOR.FLOOR
    let x := max floor (c.str - left)
    if left = 0 || x ≥ c.str then s.cutAll left rest
    else
      let s := if c.unit = 0 then s.cutTo c.port x else s.grantStr c.unit c.port x
      s.cutAll (left - (c.str - x)) rest

/-! ### SYS_THROT# (R146) -/

/-- The budget asserts SYS_THROT#. -/
def State.assertThrot (s : State) : State :=
  if s.on R.BGT_STATUS.THROT then s
  else ((s.set R.BGT_STATUS.THROT 1).bump R.BGT_THROT_CNT.COUNT).raiseBudget 0x02 0xFF

/-! ### The computation (R139) -/

/-- The numeric fields of BUDGET_SET_POLICY: byte, value, low, high (R155, R157). -/
def budgetNums (ps : List Byte) : List (Nat × Nat × Nat × Nat) :=
  [(0, byteAt ps 0, 0, 20), (3, byteAt ps 3, 0, 100), (4, leAt ps 4 2, 100, 2000), (6, leAt ps 6 2, 10, 1000),
   (8, byteAt ps 8, 1, 60), (12, leAt ps 12 4, 2500, 15000)]

/-- Writes a policy, each number held in its range (R155). -/
def State.putBudget (s : State) (ps : List Byte) : State :=
  match (budgetNums ps).map fun q => (clampTo q.2.2.1 q.2.2.2 q.2.1).1 with
  | [margin, fb, shedT, hr, rest, floor] =>
    let s := (s.set R.BGT_SUPPLY_CFG.MARGIN_PCT margin).set R.BGT_SUPPLY_CFG.OVL_TIER (byteAt ps 1)
    let s := (s.set R.BGT_SRC_PRIO.PRIO (byteAt ps 2)).set R.BGT_SUPPLY_CFG.FALLBACK_PCT fb
    let s := (s.set R.BGT_SRC_CFG.SHED_T shedT).set R.BGT_SRC_CFG.HR_DELAY hr
    (s.set R.BGT_SRC_CFG.RESTORE_T rest).set R.BGT_SRC_FLOOR.FLOOR floor
  | _ => s

/-- The policies that wait apply together, and their commands complete (R151, R155). -/
def State.applyPolicies (s : State) : State :=
  let ps := s.bgt.policies
  ps.foldl (fun (s : State) q => (s.putBudget q.2).complete q.1 (clampReply (clamps (budgetNums q.2)) 0))
    { s with bgt := { s.bgt with policies := [] } }

/-- The peak credit over 10 µs (R137). -/
def State.stepCredit (s : State) (ibat : Int) : State :=
  let c := s.bgt.credit
  let top := s.get R.BGT_PACK_PEAK.PEAK_T * 10000
  let drains : Bool := ibat < -(s.get R.BGT_PACK_CFG.IDSG_CONT * 2 : Int)
  let n := min top (if drains then c - 1 else c + 1)
  { s.set R.BGT_PACK_PEAK.CREDIT (n / 10000) with bgt := { s.bgt with credit := n } }

/-- The measured terms of this unit (R138): P_SYS, P_AUX, DRW. -/
def State.measure (s : State) (v : BudgetSample) : Nat × Nat × Nat :=
  (v.vsys * v.isys.toNat / 1000, v.paux,
    sumPorts fun p => if s.sourcing p then max (s.strOf p) (v.deliv.getD p 0) else 0)

/-- Measurements that the budget takes into the registers. -/
def State.budgetMeas (s : State) (v : BudgetSample) : State :=
  let s := (s.setSat R.MOD_VSYS_STATUS.VSYS v.vsys).seti R.MOD_SYS_MEAS.ISYS (v.isys / 2)
  (s.setSat R.MOD_BAT_MEAS.VBAT v.vbat).seti R.MOD_BAT_MEAS.IBAT (v.ibat / 2)

/-- Sum of a term over the members' reports. -/
def sumReports (rs : List ReportPart) (f : ReportPart → Nat) : Nat := rs.foldl (fun (acc : Nat) r => acc + f r) 0

/-- A report's supply. -/
def ReportPart.supply (r : ReportPart) : Nat := r.strIn.foldl (· + ·) 0

/-- A report's source strings. -/
def ReportPart.strTotal (r : ReportPart) : Nat := r.strSrc.foldl (· + ·) 0

/-- R_INT: the sum of ΔP over the active intents (R138, R147). -/
def State.rInt (s : State) : Nat := s.bgt.intents.foldl (fun (acc : Nat) i => if i.active then acc + i.dP else acc) 0

/-- The terms of a computation, over every unit counted (R139). -/
structure Terms where
  d    : Nat
  drw  : Nat
  str  : Nat
  cReq : Nat
  own  : Nat
  pbat : Nat
  deriving DecidableEq, Repr

/-- C_REQ of this unit (R138, R151). -/
def State.cReqOwn (s : State) (vbat : Nat) : Nat :=
  if s.inSafe || !s.charging then 0 else vbat * ((s.geti R.CHG_CURRENT.I_TGT).toNat * 2) / 1000

/-- Gathers the terms. -/
def State.terms (s : State) (v : BudgetSample) : Terms :=
  let m := s.measure v
  let rs := s.reports
  { d := m.1 + m.2.1 + sumReports rs ReportPart.demand, drw := m.2.2 + sumReports rs ReportPart.drw,
    str := sumPorts (fun p => if s.sourcing p then s.strOf p else 0) + sumReports rs ReportPart.strTotal,
    cReq := s.cReqOwn v.vbat + sumReports rs ReportPart.cReq, own := m.1 + m.2.1 + m.2.2, pbat := s.pBat v.vbat }

/-- The supply S: this unit's inputs at their continuous or rest strings, and the members' (R139, R330). -/
def State.supplyNow (s : State) : Nat := sumPorts (fun p => s.inRest p) + sumReports s.reports ReportPart.supply

/-- This unit's share of the throttle ceiling: whole alone, else by measured demand (R142). -/
def ceilShare (total own all : Nat) : Nat := if all = 0 then total else total * own / all

/-- What the computation leaves for the rest of the unit (R139, R142, R143, R156): strings, snapshot values, ceilings. -/
def State.putTerms (s : State) (t : Terms) (m : Nat × Nat × Nat) (sup chg : Nat) (ovl : Nat) (ov : Int) (cOwn : Nat) :
    State :=
  let all := t.d + t.drw
  let total := sup + t.pbat + sumPorts fun p => s.available p
  let s := (s.set R.BGT_STR_CHG.P (if t.cReq = 0 then 0 else chg * cOwn / t.cReq)).set R.BGT_P_BAT.P t.pbat
  let s := s.set R.BGT_THROT_CEIL.P (if s.reports.isEmpty then total else ceilShare total t.own all)
  { s with chg := { s.chg with forcedZero := false },
           bgt := { s.bgt with supply := sup + t.pbat + ovl, demand := all + chg, short := ov.toNat, sTotal := sup,
                               dTotal := t.d, strTotal := t.str, overNow := ov, pAux := m.2.1, drw := m.2.2,
                               lacks := all > sup, chgCut := chg < t.cReq, chgAll := chg } }

/-- `over` of R139; in local fallback it counts the unit's own system and AUX load alone (R327). -/
def State.overOf (s : State) (t : Terms) (m : Nat × Nat × Nat) (sup ovl : Nat) : Int :=
  if s.get R.BGT_STATUS.SOURCE = 2 then (m.1 + m.2.1 : Int) - sup - t.pbat
  else (t.d + t.drw : Int) - sup - t.pbat - ovl

/-- U0's grants for the followers (R149, R324): the strings as they stand, and each unit's part of the ceiling. -/
def State.putGrants (s : State) (t : Terms) (total : Nat) : State :=
  let one (s : State) (u : Fin 4) : State :=
    match (s.csc.peers.get u).report with
    | none => s
    | some r =>
      s.modFarGrant u fun g =>
        { g with strIn := r.strIn, strSrc := r.strSrc, ceil := ceilShare total (r.demand + r.drw) (t.d + t.drw) }
  (allUnits.filter fun u => s.member u).foldl one s

/-- Rp falls at once where the allowance no longer carries it, before an explicit contract (R165). -/
def State.lowerRp (s : State) (p : Fin 4) : State :=
  match (s.tc p).term with
  | .rp l => if !s.on (R.PD_PE_STATUS.EXPLICIT p) && s.rpLevel p < l then s.setTerm p (.rp (s.rpLevel p)) else s
  | _ => s

/-- Puppeteer's computation (R139 to R141, R146): supply, charge string, overload, source cuts, SYS_THROT#, RELIEF. -/
def State.compute (s : State) (v : BudgetSample) : State :=
  let s := ((s.applyPolicies).budgetMeas v).stepCredit v.ibat
  let s := s.eachPort allPorts State.ageGrant
  let t := s.terms v
  let m := s.measure v
  let gap : Int := (t.d + t.drw : Int) - s.supplyNow - t.pbat
  let s := s.eachPort allPorts fun s p => s.grantOvl gap p
  let sup := s.supplyNow
  let chg := min t.cReq (sup - t.d - t.drw - s.rInt)
  let ovl := sumPorts fun p => s.extension p
  let ov := s.overOf t m sup ovl
  let cut : Int := (t.d + t.str : Int) - sup - t.pbat - ovl
  let s := ((s.putTerms t m sup chg ovl ov (s.cReqOwn v.vbat)).putGrants t
    (sup + t.pbat + sumPorts fun p => s.available p)).putIn
  let s := if cut > 0 then s.cutAll cut.toNat s.cutOrder else s
  let s := if ov > 0 then s.assertThrot else s
  (s.updRelief).eachPort allPorts State.lowerRp

/-- PUPPETEER_COMPUTE (R139): in the master, in a unit alone, and in local fallback. -/
def execPuppeteerCompute (v : BudgetSample) (s : State) : Res := .next <|
  s.when (s.get R.BGT_STATUS.SOURCE != 1) fun s => s.compute v

/-- OVL_GRANT_END (R141): the grant reaches the tier's duration, and the port falls to the rest level. -/
def execOvlGrantEnd (p : Fin 4) (usedUs : Nat) (s : State) : Res := .next <|
  s.when (match (s.bgt.ports.get p).window with | some w => w.granting | none => false) fun s =>
    match (s.bgt.ports.get p).window with
    | none => s
    | some w => (s.setGrant p (some { w with usedUs := usedUs, granting := false })).putIn

/-- OVL_WINDOW_END (R141). -/
def execOvlWindowEnd (p : Fin 4) (s : State) : Res := .next <|
  s.when (s.bgt.ports.get p).window.isSome fun s => (s.setGrant p none).putIn

/-! ### The local arbiter (R142) -/

/-- The STRING candidate of a group in mA (R142): a source group's string, a sink group's input string against its share of
the demand, or a follower's against the part that the master sent. -/
def State.strCandidate (s : State) (g : Fin 2) (v : BudgetSample) : Nat :=
  if s.isSource g then
    match s.sourcePort g with
    | some p => mwToMa (s.get (R.BGT_STR_SRC.P p)) v.vsys
    | none => 0
  else
    let inMa := mwToMa (s.parPart g (s.stringIn g)) v.vsys
    if s.get R.BGT_STATUS.SOURCE = 1 then min inMa (s.csc.parts.get g + v.isys).toNat
    else
      let m := s.measure v
      let rs := s.reports
      let want : Nat := m.1 + m.2.1 + m.2.2 + s.bgt.chgAll + sumReports rs ReportPart.demand +
        sumReports rs ReportPart.drw
      min inMa (mwToMa (s.portion g want).toNat v.vsys)

/-- LOCAL_ARBITER_EVAL (R142, R146): the STRING candidates, and SYS_THROT# at the ceiling. -/
def execLocalArbiterEval (v : BudgetSample) (s : State) : Res := .next <|
  s.when true fun s =>
    let m := s.measure v
    let a := s.strCandidate 0 v
    let b := s.strCandidate 1 v
    let s := { s with bgt := { s.bgt with strCand := (s.bgt.strCand.set 0 a).set 1 b, pAux := m.2.1, drw := m.2.2 } }
    if m.1 + m.2.1 + m.2.2 > s.get R.BGT_THROT_CEIL.P then s.assertThrot.updRelief else s

/-- LOCAL_ARBITER_PMAX_UPDATE (R142). -/
def execLocalArbiterPmaxUpdate (s : State) : Res := .next <| s.when true fun s => (s.writePmax 0).writePmax 1

/-! ### Deadlines (R143 to R146) -/

/-- CHG_SHED_DEADLINE (R143): `power` is the charge power 50 µs after the cut. -/
def execChgShedDeadline (power : Nat) (s : State) : Res := .next <|
  s.when (power > s.get R.BGT_STR_CHG.P + max (s.get R.BGT_STR_CHG.P / 50) 1000) fun s =>
    let s := { s.seti R.CHG_CURRENT.I_SET 0 with chg := { s.chg with forcedZero := true } }
    (s.set R.BGT_EVENT.CHG_OVERRUN 1).raiseBudget 0x04 0xFF

/-- SHED_T_EXPIRY (R144): the STRING limiter takes the cut string. -/
def execShedTExpiry (p : Fin 4) (s : State) : Res := .next <|
  s.when (match (s.bgt.ports.get p).shed with | some sh => !sh.taken | none => false) fun s =>
    match (s.bgt.ports.get p).shed with
    | none => s
    | some sh => (s.modPb p fun x => { x with shed := some { sh with taken := true } }).set (R.BGT_STR_SRC.P p) sh.cut

/-- SHED_HARD_RESET (R144, step 4): SRC_HR, one BUDGET event of kind 0x09, Hard Reset, and offers within the cut string. -/
def execShedHardReset (p : Fin 4) (s : State) : Res := .next <|
  s.when (match (s.bgt.ports.get p).shed with | some sh => sh.taken | none => false) fun s =>
    match (s.bgt.ports.get p).shed with
    | none => s
    | some sh =>
      let s := (s.setBit R.BGT_EVENT.SRC_HR p true).endShed p 0x09
      (s.sendHardReset p).modPb p fun x => { x with bound := some sh.cut }

/-- The string of before the cut may return (R145): the shed has ended, SYS_THROT# is released, and S − D − STR stands at
least at the increase. -/
def State.mayRestore (s : State) (p : Fin 4) : Bool :=
  match (s.bgt.ports.get p).restore, (s.bgt.ports.get p).shed with
  | some r, none =>
    !s.throt && s.sourcing p && s.get R.BGT_STATUS.SOURCE != 2 &&
      (s.bgt.sTotal : Int) - s.bgt.dTotal - s.bgt.strTotal ≥ (r : Int) - s.strOf p
  | _, _ => false

/-- SOURCE_RESTORE (R145): capabilities up to the lowest of SRC_PMAX_PORT, what SRC_PMAX_UNIT leaves and the contract of
before the cut. -/
def execSourceRestore (p : Fin 4) (s : State) : Res := .next <|
  s.when (s.mayRestore p) fun s =>
    let r := (s.bgt.ports.get p).restore
    (s.modPb p fun x => { x with bound := r, restore := none }).startSeq p .sourceCaps

/-- THROT_DEASSERT (R146). -/
def execThrotDeassert (s : State) : Res := .next <|
  s.when (s.on R.BGT_STATUS.THROT && !s.inSafe && s.bgt.overNow ≤ -(s.get R.BGT_THROT_CFG.HYST * 1000 : Int)) fun s =>
    ((s.set R.BGT_STATUS.THROT 0).raiseBudget 0x03 0xFF).updRelief

/-! ### Intents (R147, R148) -/

/-- Changes the intent of a slot. -/
def State.modIntent (s : State) (k : Nat) (f : Intent → Intent) : State :=
  { s with bgt := { s.bgt with intents := s.bgt.intents.map fun i => if i.slot = k then f i else i } }

/-- Removes intents. -/
def State.dropIntents (s : State) (out : Intent → Bool) : State :=
  { s with bgt := { s.bgt with intents := s.bgt.intents.filter fun i => !out i } }

/-- Supplement is armed: an ideal-diode BATFET is held fully on with reverse turn-off (R147). -/
def State.armSupplement (s : State) : State :=
  if s.bat = batIdeal then { s with path := { s.path with fastOn := true } } else s

/-- INTENT_ACTIVATE (R147). -/
def execIntentActivate (slot : Fin 8) (s : State) : Res := .next <|
  s.when (s.bgt.intents.any fun i => i.slot = slot && !i.active) fun s =>
    (s.modIntent slot fun i => { i with active := true }).armSupplement

/-- INTENT_EXPIRE (R148). -/
def execIntentExpire (slot : Fin 8) (s : State) : Res := .next <|
  s.when (s.bgt.intents.any fun i => i.slot = slot) fun s => s.dropIntents fun i => i.slot = slot

/-- The lowest free slot (R148). -/
def State.freeSlot (s : State) : Option Nat := (List.range 8).find? fun k => !s.bgt.intents.any fun i => i.slot = k

/-- Holds an intent in a slot with its next generation; the handle is [2:0] the slot, [15:3] the generation (R153). An
intent whose lead has come is active at once (R147). -/
def State.addIntent (s : State) (k : Fin 8) (dP start stop owner : Nat) : Nat × State :=
  let gen := (s.bgt.gens.get k + 1) % 8192
  let lead := tsUs (s.get R.BGT_INTENT_CFG.LEAD)
  let act : Bool := start ≤ s.ts + lead
  let i : Intent := { slot := k, gen := gen, dP := dP, start := start, stop := stop, owner := owner, active := act }
  let s := { s with bgt := { s.bgt with intents := s.bgt.intents ++ [i], gens := s.bgt.gens.set k gen } }
  (k.val + 8 * gen, if act then s.armSupplement else s)

/-- A follower without a master, or removed by it (R153). -/
def State.noMaster (s : State) : Bool := s.get R.CSC_STATUS.STATE = 3 || s.get R.BGT_STATUS.SOURCE = 2

/-- The unit is a follower that hears its master. -/
def State.follows (s : State) : Bool := s.get R.CSC_STATUS.STATE = 2

/-- BUDGET_INTENT (R148, R153): a follower forwards the intent to its master. -/
def opBudgetIntent (c : Cmd) (s : State) : CmdRes × State :=
  let dP := clampTo 1000 500000 (c.num 0 4)
  let dur := clampTo 10 10000000 (c.num 12 4)
  let t := if c.num 4 8 = 0 then s.ts else c.num 4 8
  let stop := t + tsUs dur.1
  let cs := clamps [(0, c.num 0 4, 1000, 500000), (12, c.num 12 4, 10, 10000000)]
  if t > s.ts + tsSec 60 then (badField 4, s)
  else if stop ≤ s.ts then (fail 0x32, s)
  else if s.noMaster then (fail 0x13, s)
  else
    match s.freeSlot with
    | none => (fail 0x30, s)
    | some k =>
      let r := s.addIntent (Fin.ofNat 8 k) dP.1 t stop (s.get R.MOD_STRAP.IDX)
      let s := r.2
      let s := if s.follows then
          { s with csc := { s.csc with forward := s.csc.forward ++ [{ dP := dP.1, start := t, dur := dur.1 }] } } else s
      (.done (clampReply cs r.1), s)

/-- BUDGET_INTENT (R153). -/
def execBudgetIntent (s : State) : Res := .next <| s.when true fun s => s.runCmd (isOp 0x10) opBudgetIntent

/-- BUDGET_CANCEL_INTENT (R154). -/
def opBudgetCancelIntent (c : Cmd) (s : State) : CmdRes × State :=
  let h := c.num 0 2
  if s.bgt.intents.any fun i => i.slot + 8 * i.gen = h then (ok, s.dropIntents fun i => i.slot + 8 * i.gen = h)
  else (badField 0, s)

/-- BUDGET_CANCEL_INTENT (R154). -/
def execBudgetCancelIntent (s : State) : Res := .next <| s.when true fun s => s.runCmd (isOp 0x11) opBudgetCancelIntent

/-- BUDGET_SET_POLICY (R155): it waits for the next computation. -/
def opBudgetSetPolicy (c : Cmd) (s : State) : CmdRes × State :=
  (.wait, { s with bgt := { s.bgt with policies := s.bgt.policies ++ [(c.handle, c.params)] } })

/-- BUDGET_SET_POLICY (R155). -/
def execBudgetSetPolicy (s : State) : Res := .next <| s.when true fun s => s.runCmd (isOp 0x12) opBudgetSetPolicy

/-- BUDGET_QUERY (R156). -/
def opBudgetQuery (_ : Cmd) (s : State) : CmdRes × State :=
  let n := (s.get R.BGT_SNAP_SEQ.SEQ + 1) % 256
  let s := ((s.setSat R.BGT_SNAP_SUPPLY.P s.bgt.supply).setSat R.BGT_SNAP_DEMAND.P s.bgt.demand).setSat R.BGT_SNAP_SHORT.P
    s.bgt.short
  (.done { status := 0x00, result := n }, s.set R.BGT_SNAP_SEQ.SEQ n)

/-- BUDGET_QUERY (R156). -/
def execBudgetQuery (s : State) : Res := .next <| s.when true fun s => s.runCmd (isOp 0x13) opBudgetQuery

end Sys2Proof.Machine
end

