-- ==== Sys2Proof/Machine/CapFormat.lean ====
section
/-! DEFINITION. The capture formats (R268 to R271) and the capture block with its header and CRC (R273). -/

namespace Sys2Proof.Machine

/-! ### Channels and rates (R264, R265, R268) -/

/-- A fast channel with signed codes (R264). -/
def fastSigned (ch : Nat) : Bool := ch ≤ 5 || ch = 7 || ch = 9 || ch = 11 || ch = 13 || ch = 15

/-- A slow channel with signed codes (R265). -/
def slowSigned (ch : Nat) : Bool := ch = 27 || ch = 30 || ch = 31

/-- The enabled channels of a mask, in ascending order. -/
def maskChannels (m : Nat) : List Nat := (List.range 32).filter fun (k : Nat) => bitAt m k

/-- The formats that pressure slows (R275): raw, packed and delta. -/
def slowable (fmt : Nat) : Bool := fmt ≤ 2

/-- Nominal rate of a stream in bit/s (R268). -/
def nominalRate (fmt dec nch slowKsa : Nat) : Nat :=
  if fmt = 0 || fmt = 2 then nch * 640000000
  else if fmt = 1 then nch * 560000000
  else if fmt = 3 then nch * 640000000 / 2 ^ dec
  else nch * 16 * (slowKsa * 1000)

/-! ### Bit streams (R269, R270) -/

/-- The low `w` bits of a code, least significant first. -/
def codeBits : Nat → Int → List Bool
  | 0, _ => []
  | w + 1, v => (v % 2 = 1) :: codeBits w (v / 2)

/-- Up to eight bits as a byte, least significant first. -/
def byteOfBits (bs : List Bool) : Byte :=
  BitVec.ofNat 8 ((List.range 8).foldl (fun acc k => if bs.getD k false then acc + 2 ^ k else acc) 0)

/-- A bit stream as `n` bytes. -/
def packBits : Nat → List Bool → List Byte
  | 0, _ => []
  | n + 1, bs => byteOfBits (bs.take 8) :: packBits n (bs.drop 8)

/-- The smallest width that holds a delta in two's complement; 0 for 0. -/
def deltaWidth (d : Int) : Nat :=
  if d = 0 then 0
  else ((List.range 16).find? fun (w : Nat) => 1 ≤ w && -(2 ^ (w - 1) : Int) ≤ d && d < 2 ^ (w - 1)).getD 15

/-- One channel of a group: its width, then its deltas. -/
def groupChannel (ds : List Int) : List Bool :=
  let w := ds.foldl (fun acc d => max acc (deltaWidth d)) 0
  codeBits 4 w ++ ds.flatMap fun (d : Int) => codeBits w d

/-- A group of R270: `prev` is the frame before it, `fs` its frames. -/
def groupBits (prev : List Int) (fs : List (List Int)) : List Bool :=
  (List.range prev.length).flatMap fun (k : Nat) =>
    groupChannel (((prev :: fs).zip fs).map fun (p : List Int × List Int) => p.2.getD k 0 - p.1.getD k 0)

/-- The groups of a delta block after its first frame; `n` bounds their number. -/
def deltaGroups : Nat → List Int → List (List Int) → List Bool
  | 0, _, _ => []
  | _ + 1, _, [] => []
  | n + 1, prev, f :: fs =>
    let g := (f :: fs).take 8
    groupBits prev g ++ deltaGroups n (g.getLastD prev) ((f :: fs).drop 8)

/-- The bits of a block's frames by format (R269, R270). CIC frames are already filtered. -/
def payloadBits (fmt : Nat) (frames : List (List Int)) : List Bool :=
  if fmt = 1 then frames.flatMap fun (f : List Int) => f.flatMap fun (c : Int) => codeBits 14 c
  else if fmt = 2 then
    match frames with
    | [] => []
    | f :: fs => (f.flatMap fun (c : Int) => codeBits 14 c) ++ deltaGroups fs.length f fs
  else frames.flatMap fun (f : List Int) => f.flatMap fun (c : Int) => codeBits 16 c

/-! ### The CIC filter (R271) -/

/-- One input sample into the integrators. -/
def Cic.push (c : Cic) (x : Int) : Cic :=
  let a := c.int.get 0 + BitVec.ofInt 64 x
  let b := c.int.get 1 + a
  let d := c.int.get 2 + b
  { c with int := #v[a, b, d, c.int.get 3 + d] }

/-- The combs at the output rate: the output and the new comb states. -/
def Cic.pull (c : Cic) : BitVec 64 × Cic :=
  let x := c.int.get 3
  let a := x - c.comb.get 0
  let b := a - c.comb.get 1
  let d := b - c.comb.get 2
  (d - c.comb.get 3, { c with comb := #v[x, a, b, d] })

/-- The stored word of an output in units of 1/4 code, for decimation 2^k. -/
def cicWord (k : Nat) (y : BitVec 64) : Int := (y.toInt + 2 ^ (4 * k - 3)) / 2 ^ (4 * k - 2)

/-- Feeds input frames: filter states, input count, and the stored outputs with the offset of their input frame, newest
first. Outputs 0 to 2 are not stored. -/
def cicFeed (k : Nat) (st : List Cic × Nat × List (Nat × List Int)) (i : Nat) (f : List Int) :
    List Cic × Nat × List (Nat × List Int) :=
  let cs := (st.1.zip f).map fun (p : Cic × Int) => p.1.push p.2
  let n := st.2.1
  if n % 2 ^ k = 2 ^ k - 1 then
    let outs := cs.map fun (c : Cic) => c.pull
    let word := outs.map fun (o : BitVec 64 × Cic) => cicWord k o.1
    (outs.map fun (o : BitVec 64 × Cic) => o.2, n + 1, if n / 2 ^ k < 3 then st.2.2 else (i, word) :: st.2.2)
  else (cs, n + 1, st.2.2)

/-- Runs frames through a stream's filters: new states and count, and the outputs in order. -/
def cicRun (k : Nat) (cs : List Cic) (n : Nat) (frames : List (List Int)) : List Cic × Nat × List (Nat × List Int) :=
  let r := ((List.range frames.length).zip frames).foldl (fun st p => cicFeed k st p.1 p.2) (cs, n, [])
  (r.1, r.2.1, r.2.2.reverse)

/-! ### The block (R273) -/

/-- One byte of the reflected CRC-32. -/
def crcByte (crc : BitVec 32) (b : Byte) : BitVec 32 :=
  (List.range 8).foldl (fun (c : BitVec 32) (_ : Nat) => if c.getLsbD 0 then (c >>> 1) ^^^ 0xEDB88320 else c >>> 1)
    (crc ^^^ b.setWidth 32)

/-- CRC-32: polynomial 0x04C1_1DB7, reflected, initial value and final XOR 0xFFFF_FFFF. -/
def crc32 (bs : List Byte) : Nat := ((bs.foldl crcByte 0xFFFFFFFF) ^^^ 0xFFFFFFFF).toNat

/-- Header flags of R273. -/
def flagTrig : Nat := 1
def flagGap : Nat := 2
def flagFirst : Nat := 4
def flagLast : Nat := 8
def flagPre : Nat := 16
def flagRate : Nat := 32
def flagEcc : Nat := 64

/-- The block's header bytes 0 to 59 for ring `c` at block count `n`. -/
def blockHeader (c : Nat) (st : CapStream) (n : Nat) (b : CapBlock) : List Byte :=
  let t := b.trig.getD (0, 0, 0)
  leBytes 2 0xCA9E ++ leBytes 1 1 ++ leBytes 1 c ++ leBytes 1 st.fmt ++ leBytes 1 (if st.fmt = 3 then st.dec else 0) ++
    leBytes 1 b.rate ++ leBytes 1 b.flags ++ leBytes 4 st.chmask ++ leBytes 2 b.nframes ++ leBytes 2 b.bits ++ leBytes 8 n ++
    leBytes 8 b.frameNo ++ leBytes 8 b.ts ++ leBytes 8 t.1 ++ leBytes 4 b.gap ++ leBytes 2 (t.2.1 + 256 * t.2.2) ++
    leBytes 2 b.level ++ leBytes 4 0

/-- The 4,096 bytes of a block. -/
def blockBytes (c : Nat) (st : CapStream) (n : Nat) (b : CapBlock) : List Byte :=
  let h := blockHeader c st n b
  h ++ leBytes 4 (crc32 (h ++ b.payload)) ++ b.payload

end Sys2Proof.Machine
end

