-- ==== Sys2Proof/Machine/Capture.lean ====
section
/-! DEFINITION. The capture engine (10_capture_engine.md): rings and streams, closing and writing blocks, pressure,
triggers, the capture commands, and the rows that drive them. -/

namespace Sys2Proof.Machine

/-! ### Streams and rings (R266, R267, R291) -/

/-- The capture rings. -/
def allRings : List (Fin 8) := [0, 1, 2, 3, 4, 5, 6, 7]

/-- Ring states (R291). -/
def capDetached : Nat := 0
def capIdle : Nat := 1
def capArmed : Nat := 2
def capRunning : Nat := 3
def capDone : Nat := 4
def capFull : Nat := 5
def capStopped : Nat := 6
def capError : Nat := 7

/-- The stream of a ring. -/
def State.stream (s : State) (c : Fin 8) : CapStream := s.cap.streams.get c

/-- Changes a stream. -/
def State.modStream (s : State) (c : Fin 8) (f : CapStream → CapStream) : State :=
  { s with cap := { s.cap with streams := s.cap.streams.set c (f (s.stream c)) } }

/-- A ring's state. -/
def State.ring (s : State) (c : Fin 8) : Nat := s.get (R.CAP_RING_STATE.STATE c)

/-- A ring is armed or running. -/
def State.ringOn (s : State) (c : Fin 8) : Bool := s.ring c = capArmed || s.ring c = capRunning

/-- CAP_TAIL. -/
def State.capTail (s : State) (c : Fin 8) : Nat :=
  s.get (R.CAP_RING_TAIL_LO.TAIL c) + 2 ^ 32 * s.get (R.CAP_RING_TAIL_HI.TAIL c)

/-- CAP_HEAD of the last doorbell fetch. -/
def State.capHead (s : State) (c : Fin 8) : Nat :=
  s.get (R.CAP_RING_HEAD_LO.HEAD c) + 2 ^ 32 * s.get (R.CAP_RING_HEAD_HI.HEAD c)

/-- Sets CAP_TAIL. -/
def State.setTail (s : State) (c : Fin 8) (v : Nat) : State :=
  (s.set (R.CAP_RING_TAIL_LO.TAIL c) v).set (R.CAP_RING_TAIL_HI.TAIL c) (v / 2 ^ 32)

/-- Sets CAP_HEAD. -/
def State.setHead (s : State) (c : Fin 8) (v : Nat) : State :=
  (s.set (R.CAP_RING_HEAD_LO.HEAD c) v).set (R.CAP_RING_HEAD_HI.HEAD c) (v / 2 ^ 32)

/-- SIZE of a ring in blocks. -/
def State.capSize (s : State) (c : Fin 8) : Nat := s.get (R.CAP_RING_SIZE.SIZE c)

/-- Free blocks of a ring (R266). -/
def State.capFree (s : State) (c : Fin 8) : Nat := s.capSize c - (s.capTail c - s.capHead c)

/-- The rings of a mask. -/
def maskRings (m : Nat) : List (Fin 8) := allRings.filter fun (c : Fin 8) => bitAt m c

/-! ### Fill, latency tolerance and events (R275, R278, R286) -/

/-- Bytes in the elastic buffer. -/
def State.capFill (s : State) : Nat :=
  s.cap.forming + allRings.foldl (fun (acc : Nat) (c : Fin 8) =>
    acc + 4032 * ((s.stream c).kept.length + (s.stream c).due.length)) 0

/-- Nominal rate of a stream in bit/s. -/
def State.rateOf (s : State) (st : CapStream) : Nat :=
  nominalRate st.fmt st.dec (maskChannels st.chmask).length (s.get R.CAP_CFG.SLOW_RATE)

/-- Total PRE over the configured streams. -/
def State.preTotal (s : State) : Nat := allRings.foldl (fun (acc : Nat) (c : Fin 8) => acc + (s.stream c).pre) 0

/-- The latency tolerance that the unit reports, in µs (R278). -/
def State.ltr (s : State) : Nat :=
  let on := allRings.filter fun (c : Fin 8) => s.ringOn c
  let r := on.foldl (fun (acc : Nat) (c : Fin 8) => acc + s.rateOf (s.stream c)) 0
  let room := 196608 - (1024 * s.get R.CAP_CFG.WM_KIB + 4032 * s.preTotal)
  if on.isEmpty || r = 0 then 1000 else min 1000 (room * 8000000 / r)

/-- ACTIVE, BUF_KIB, BW and LTR follow the streams. -/
def State.capRefresh (s : State) : State :=
  let act := allRings.foldl (fun (acc : Nat) (c : Fin 8) => if s.ringOn c then acc + 2 ^ c.val else acc) 0
  let bw := allRings.foldl (fun (acc : Nat) (c : Fin 8) => if (s.stream c).conf then acc + s.rateOf (s.stream c) else acc) 0
  (((s.set R.CAP_STATUS.ACTIVE act).setSat R.CAP_STATUS.BUF_KIB (min 256 (s.capFill / 1024))).setSat R.CAP_BW.RATE
    (bw / 1000000)).set R.CAP_LTR.LT s.ltr

/-- Raises a CAPTURE event (R286); ring 0xFF where no single one is concerned. -/
def State.raiseCap (s : State) (ring kind frame gap : Nat) : State :=
  let c : Fin 8 := Fin.ofNat 8 ring
  s.raise 0x0A (leBytes 1 ring ++ leBytes 1 kind ++ leBytes 1 (s.get R.CAP_STATUS.LEVEL) ++
    leBytes 1 (if ring < 8 then s.ring c else 0) ++ leBytes 8 (if ring < 8 then s.capTail c else 0) ++ leBytes 8 frame ++
    leBytes 4 gap)

/-- The vector of a ring (R228, R262). -/
def State.capVec (s : State) (c : Fin 8) : Nat := getBits (s.word (A.HIF_CAP_VEC (c / 4))) (8 * (c % 4)) 5

/-! ### The status page (R231) -/

/-- Bytes 0x000 to 0x0CF of the status page. -/
def State.statusPage (s : State) : List Byte :=
  ((List.range 8).flatMap fun (q : Nat) => leBytes 4 (s.get (R.HIF_SQ_STATUS.HEAD q))) ++ List.replicate 96 0 ++
    (allRings.flatMap fun (c : Fin 8) => leBytes 8 (s.capTail c)) ++ leBytes 4 s.hif.stSeq ++ leBytes 4 0 ++ leBytes 8 s.tsNow

/-- Writes the status page; without DMA the write stays due. -/
def State.writeStatus (s : State) : State :=
  if s.canDma && s.on R.HIF_STATUS.RUNNING then
    let s := { s with hif := { s.hif with stSeq := (s.hif.stSeq + 1) % 2 ^ 32, stDue := false } }
    s.emit (.hostWrite (s.get R.HIF_ST_BASE_LO.ADDR * 4096 + s.get R.HIF_ST_BASE_HI.ADDR * 2 ^ 32) s.statusPage)
  else { s with hif := { s.hif with stDue := true } }

/-! ### Ending and stopping (R267, R284, R288) -/

/-- What a stream loses at its end. -/
def CapStream.clear (st : CapStream) : CapStream :=
  { st with kept := [], due := [], trig := none, ended := false, stop := none, heading := false, noRoom := false, fin := none }

/-- A stream ends with a state and an event kind. -/
def State.endRing (s : State) (c : Fin 8) (code kind : Nat) : State :=
  ((((s.set (R.CAP_RING_STATE.STATE c) code).setBit R.CAP_EVENT.END c true).modStream c CapStream.clear).capRefresh).raiseCap
    c kind 0 0

/-- The CAPTURE_STOP commands complete whose rings have all ended. -/
def State.finishStops (s : State) : State :=
  let done := s.cap.stops.filter fun (w : Nat × Nat) => !(maskRings w.2).any fun (c : Fin 8) => s.ringOn c
  let rest := s.cap.stops.filter fun (w : Nat × Nat) => (maskRings w.2).any fun (c : Fin 8) => s.ringOn c
  let s := { s with cap := { s.cap with stops := rest } }
  done.foldl (fun (acc : State) (w : Nat × Nat) => acc.complete w.1 { status := 0x00 }) s

/-! ### Writing blocks (R267, R273, R277, R287) -/

/-- How a written block with LAST ends its stream: state and event kind. -/
def CapStream.endOf (st : CapStream) : Nat × Nat :=
  match st.stop with
  | some k => (capStopped, k)
  | none => (capDone, 0x03)

/-- Writes the oldest due block of a ring as `b`. -/
def State.writeBlock (s : State) (c : Fin 8) (b : CapBlock) : State :=
  let st := s.stream c
  let n := s.capTail c
  let base := s.get (R.CAP_RING_BASE_LO.BASE_LO c) * 4096 + s.get (R.CAP_RING_BASE_HI.BASE_HI c) * 2 ^ 32
  let s := (s.emit (.hostWrite (base + n % max 1 (s.capSize c) * 4096) (blockBytes c st n b))).setTail c (n + 1)
  let msg : Bool := st.irq ≤ st.irqN + 1 || b.flags &&& (flagTrig ||| flagLast ||| flagGap) != 0
  s.modStream c fun st => { st with due := st.due.drop 1, irqN := st.irqN + 1, fire := st.fire || msg,
                                    fin := if b.flags &&& flagLast != 0 then some st.endOf else st.fin }

/-- Writes the due blocks of a ring. A stop-when-full ring fetches its head before the last free slot; `fresh`: the head
has just been fetched, and a ring that is still full ends with this block. -/
def State.drainRing (s : State) (c : Fin 8) (fresh : Bool) : Nat → State
  | 0 => s
  | n + 1 =>
    match (s.stream c).due with
    | [] => s
    | b :: _ =>
      if (s.stream c).mode = 1 && s.capFree c ≤ 1 then
        if !fresh then
          (s.modStream c fun st => { st with heading := true }).emit
            (.hostRead (s.get R.HIF_DB_BASE_LO.ADDR * 4096 + s.get R.HIF_DB_BASE_HI.ADDR * 2 ^ 32) 192)
        else if s.capFree c = 0 then s.modStream c fun st => { st with fin := some (capFull, 0x04) }
        else if b.flags &&& flagLast != 0 then s.writeBlock c b
        else (s.writeBlock c { b with flags := b.flags + flagLast }).modStream c fun st =>
          { st with fin := some (capFull, 0x04) }
      else (s.writeBlock c b).drainRing c false n

/-- Drains a ring. -/
def State.drain (s : State) (fresh : Bool) (c : Fin 8) : State := s.drainRing c fresh ((s.stream c).due.length + 1)

/-- A ring's message, once due (R287). -/
def State.fireRing (s : State) (c : Fin 8) : State :=
  if (s.stream c).fire then (s.modStream c fun st => { st with fire := false, irqN := 0 }).fire (s.capVec c) else s

/-- A ring whose last block was written ends. -/
def State.overRing (s : State) (c : Fin 8) : State :=
  match (s.stream c).fin with
  | none => s
  | some e => s.endRing c e.1 e.2

/-- After block writes: the status page, the streams that end, the messages, and the stops that complete (R248, R277). -/
def State.publish (s : State) : State :=
  (allRings.foldl (fun (acc : State) (c : Fin 8) => acc.fireRing c)
    (allRings.foldl (fun (acc : State) (c : Fin 8) => acc.overRing c) s.writeStatus.capRefresh)).finishStops

/-- A write-out of everything due. -/
def State.writeOut (s : State) : State :=
  (allRings.foldl (fun (acc : State) (c : Fin 8) => if (acc.stream c).heading then acc else acc.drain false c) s).publish

/-! ### Heads (R266, R289) -/

/-- A CAP_HEAD from the doorbell page: one that decreases or passes the tail stops the stream with ERROR. -/
def State.takeHead (s : State) (c : Fin 8) (v : Nat) : State :=
  let bad : Bool := v < s.capHead c || s.capTail c < v
  let t := s.setHead c v
  if !bad || s.ring c = capDetached || s.ring c = capError || (s.stream c).mode = 2 then t
  else (((t.endRing c capError 0x0A).modStream c fun st => { st with irqN := 0 }).fire (s.capVec c)).finishStops

/-! ### Channel registers (R292) -/

/-- Samples of one fast channel: LAST, MAX and MIN. -/
def State.fastSamples (s : State) (ch : Nat) (cs : List Int) : State :=
  match cs.getLast? with
  | none => s
  | some l =>
    let rd (v : Nat) : Int := if fastSigned ch then toSigned 16 v else v
    let hi := cs.foldl max l
    let lo := cs.foldl min l
    let seen := bitAt s.cap.seen ch
    let hi := if seen then max hi (rd (s.get (R.CAP_FCH_MINMAX.MAX ch))) else hi
    let lo := if seen then min lo (rd (s.get (R.CAP_FCH_MINMAX.MIN ch))) else lo
    let s := ((s.set (R.CAP_FCH_LAST.LAST ch) (l % 65536).toNat).set (R.CAP_FCH_MINMAX.MAX ch) (hi % 65536).toNat).set
      (R.CAP_FCH_MINMAX.MIN ch) (lo % 65536).toNat
    { s with cap := { s.cap with seen := setBitAt s.cap.seen ch } }

/-- The latest sample of a slow channel. -/
def State.slowSample (s : State) (ch : Fin 32) (v : Int) (ts : Nat) : State :=
  let s := (s.set (R.CAP_SCH_VALUE.VALUE ch) (v % 65536).toNat).set (R.CAP_SCH_VALUE.NEW ch) 1
  { s with cap := { s.cap with slowTs := s.cap.slowTs.set ch ts } }

/-- The channel registers take the samples of a run of frames. -/
def State.takeSamples (s : State) (st : CapStream) (run : FrameRun) : State :=
  let chans := maskChannels st.chmask
  ((List.range chans.length).zip chans).foldl (fun (acc : State) (p : Nat × Nat) =>
    let cs := run.frames.map fun (f : List Int) => f.getD p.1 0
    if st.fmt = 4 then
      match cs.getLast? with
      | none => acc
      | some v => acc.slowSample (Fin.ofNat 32 p.2) v (run.ts + (cs.length - 1) * 33554432 / (1000 * max 1 s.cap.slowRate))
    else acc.fastSamples p.2 cs) s

/-! ### Closing a block (R268, R273 to R276) -/

/-- The pressure level after a block boundary (R275). -/
def levelFor (level fill : Nat) : Nat :=
  if fill > 229376 then 2 else if fill > 196608 then max level 1 else level

/-- Sets the level; a change raises a CAPTURE event for the unit. -/
def State.setLevel (s : State) (l : Nat) : State :=
  if l = s.get R.CAP_STATUS.LEVEL then s
  else
    let kind := if s.get R.CAP_STATUS.LEVEL < l then 0x06 else 0x07
    (s.set R.CAP_STATUS.LEVEL l).raiseCap 0xFF kind 0 0

/-- TS of the ADC frame `i` frames of 25 ns after one at `ts`. -/
def frameTs (ts i : Nat) : Nat := ts + i * 8388608 / 10000000

/-- The frames of a run that a stream keeps, each with its offset in the run (R271, R275), and the stream's filters after
them. -/
def CapStream.keep (st : CapStream) (run : FrameRun) : List (Nat × List Int) × CapStream :=
  if st.fmt = 3 then
    let r := cicRun st.dec st.cic st.cicN run.frames
    (r.2.2, { st with cic := r.1, cicN := r.2.1 })
  else
    (((List.range run.frames.length).zip run.frames).filter fun (p : Nat × List Int) =>
      st.fmt = 4 || (run.first + p.1) % 2 ^ st.rate = 0, st)

/-- The block that a stream closes: `wr`, the block will be written, not retained; `lost` frames before it; `last`. -/
def CapStream.close (st : CapStream) (run : FrameRun) (wr : Bool) (lost level : Nat) (last : Bool) : CapBlock :=
  let fs := (st.keep run).1
  let bits := (payloadBits st.fmt (fs.map fun (p : Nat × List Int) => p.2)).take 32256
  let ofs := match fs with | [] => 0 | p :: _ => p.1
  let chg : Bool := match st.prev with | some r => r != st.rate | none => false
  { rate := if slowable st.fmt then st.rate else 0,
    flags := (if wr && st.trig.isSome then flagTrig else 0) + (if lost > 0 then flagGap else 0) +
      (if wr && st.fresh then flagFirst else 0) + (if last then flagLast else 0) +
      (if slowable st.fmt && chg then flagRate else 0),
    nframes := fs.length, bits := bits.length, frameNo := run.first + ofs,
    ts := if st.fmt = 4 then run.ts else frameTs run.ts ofs, trig := if wr then st.trig else none,
    gap := satNat 32 lost, level := level, payload := packBits 4032 bits }

/-- The stream after a close: a waiting stream retains the newest PRE blocks, a running one adds the block to those due. -/
def CapStream.after (st : CapStream) (run : FrameRun) (b : CapBlock) (wr last : Bool) : CapStream :=
  let t := (st.keep run).2
  if wr then { t with due := t.due ++ [b], prev := some st.rate, trig := none, fresh := false, left := t.left - 1,
                      ended := t.ended || last, noRoom := false }
  else { t with kept := (t.kept ++ [b]).drop (t.kept.length + 1 - t.pre), prev := some st.rate }

/-- Records frames lost before a block (R276). -/
def State.capGap (s : State) (c : Fin 8) (frame lost : Nat) : State :=
  if lost = 0 then s
  else (s.setBit R.CAP_EVENT.GAP c true).raiseCap c 0x08 frame (satNat 32 lost)

/-- After a block boundary of a stream: level, the rate of its next block, and whether that block finds room. -/
def State.boundary (s : State) (c : Fin 8) (forming : Nat) : State :=
  let s := { s with cap := { s.cap with forming := forming } }
  let s := s.setLevel (levelFor (s.get R.CAP_STATUS.LEVEL) s.capFill)
  let room : Bool := s.capFill + 4032 ≤ 262144
  (s.modStream c fun st => { st with rate := if slowable st.fmt then s.get R.CAP_STATUS.LEVEL else 0,
                                     noRoom := !room }).capRefresh

/-- A stream closes its current block. -/
def State.closeBlock (s : State) (c : Fin 8) (run : FrameRun) (lost forming : Nat) (stop : Bool) : State :=
  let st := s.stream c
  let wr : Bool := s.ring c = capRunning
  let lost := if wr && st.noRoom then lost else 0
  let last : Bool := stop || (wr && st.mode = 0 && st.left ≤ 1)
  let b := st.close run wr lost ((s.capFill + forming - s.cap.forming + 4032) / 1024) last
  let s := (s.takeSamples st run).modStream c fun st => st.after run b wr last
  (s.capGap c b.frameNo lost).boundary c forming

/-! ### Triggers (R279 to R281, R289) -/

/-- A stream's configured source and index match a trigger; index 0 of a BUDGET or FAULT source matches any. -/
def CapStream.matches (st : CapStream) (src idx : Nat) : Bool :=
  st.src = src && (st.idx = idx || ((src = 3 || src = 8) && st.idx = 0))

/-- The retained blocks as they become due: each with PRE, the first with FIRST. -/
def CapStream.release (st : CapStream) : List CapBlock :=
  match st.kept with
  | [] => []
  | b :: bs =>
    { b with flags := b.flags + flagPre + (if st.fresh then flagFirst else 0) } ::
      bs.map fun (b : CapBlock) => { b with flags := b.flags + flagPre }

/-- A waiting stream triggers at an ADC frame. -/
def State.trigStream (s : State) (c : Fin 8) (src idx frame : Nat) : State :=
  let s := s.modStream c fun st => { st with due := st.due ++ st.release, kept := [], trig := some (frame, src, idx),
                                             left := st.len, fresh := st.fresh && st.kept.isEmpty }
  (((s.set (R.CAP_RING_STATE.STATE c) capRunning).setBit R.CAP_EVENT.TRIG c true).capRefresh).raiseCap c 0x02 frame 0

/-- Every waiting stream with a matching source triggers. -/
def State.trigAll (s : State) (src idx frame : Nat) : State :=
  allRings.foldl (fun (acc : State) (c : Fin 8) =>
    if acc.ring c = capArmed && (acc.stream c).matches src idx then acc.trigStream c src idx frame else acc) s

/-- A threshold unit's crossing (R280): a sample `before` that armed it, and the sample `after` that fires it. -/
def State.crossing (s : State) (n : Fin 4) (before after : Int) : Bool :=
  let ch := s.get (R.CAP_TH_CFG.CH n)
  let lv := s.get (R.CAP_TH_LEVEL.LEVEL n)
  let level : Int := if fastSigned ch then toSigned 16 lv else lv
  let hyst : Int := s.get (R.CAP_TH_CFG.HYST n)
  let up : Bool := before < level - hyst && level ≤ after
  let down : Bool := level + hyst < before && after ≤ level
  let dir := s.get (R.CAP_TH_CFG.DIR n)
  if dir = 0 then up else if dir = 1 then down else up || down

/-! ### Commands (R282 to R285) -/

/-- CAPTURE_CONFIG's parameters on a stream. -/
def CapStream.configure (st : CapStream) (c : Cmd) : CapStream :=
  { st with conf := true, fmt := c.byte 1, dec := c.byte 2, mode := c.byte 3, chmask := c.num 4 4, src := c.byte 8,
            idx := c.byte 9, pre := c.byte 10, len := c.num 12 4, flush := (clampTo 1 1000 (c.num 16 2)).1,
            irq := (clampTo 1 4096 (c.num 18 2)).1 }

/-- TRIG_IDX lies in its range for the source (R279). -/
def trigIdxOk (src idx : Nat) : Bool :=
  idx ≤ (if src = 1 || src = 2 then 3 else if src = 3 then 9 else if src = 4 then 7 else if src = 5 then 31
    else if src = 6 then 15 else if src = 8 then 11 else 0)

/-- The parameter byte that fails check 2 of R282, the lowest first. -/
def configBad (c : Cmd) : Option Nat :=
  if !(if c.byte 1 = 3 then 1 ≤ c.byte 2 && c.byte 2 ≤ 12 else c.byte 2 = 0) then some 2
  else if c.num 4 4 = 0 then some 4
  else if !trigIdxOk (c.byte 8) (c.byte 9) then some 9
  else if !(if c.byte 3 = 0 then 1 ≤ c.num 12 4 && c.num 12 4 ≤ 1048576 else c.num 12 4 = 0) then some 12
  else none

/-- The ring that byte 0 names. -/
def Cmd.ring (c : Cmd) : Fin 8 := Fin.ofNat 8 (c.byte 0)

/-- BAD_FIELD with a reason code. -/
def badReason (k code : Nat) : CmdRes := .done { status := 0x11, diagOfs := 16 + k, diagCode := code }

/-- Nominal rates of the configured streams, with `st` in place of ring `r`'s, in bit/s. -/
def State.rateWith (s : State) (r : Fin 8) (st : CapStream) : Nat :=
  allRings.foldl (fun (acc : Nat) (q : Fin 8) =>
    let x := if q = r then st else s.stream q
    if x.conf then acc + s.rateOf x else acc) 0

/-- Stores a stream's configuration. -/
def State.configStream (s : State) (r : Fin 8) (c : Cmd) : State :=
  let s := s.modStream r fun st => st.configure c
  (((s.set (R.CAP_RING_STATE.FORMAT r) (c.byte 1)).set (R.CAP_RING_STATE.MODE r) (c.byte 3)).set
    (R.CAP_RING_STATE.CHMASK_LO r) (c.num 4 2)).capRefresh

/-- CAPTURE_CONFIG (R282). -/
def opCaptureConfig (c : Cmd) (s : State) : CmdRes × State :=
  let r := c.ring
  let st := (s.stream r).configure c
  if c.byte 1 != 4 && c.num 6 2 != 0 then (badField (if c.byte 6 != 0 then 6 else 7), s)
  else if s.ringOn r then (fail 0x30, s)
  else
    match configBad c with
    | some k => (badReason k 0x01, s)
    | none =>
      if s.preTotal - (s.stream r).pre + c.byte 10 > 16 then (badReason 10 0x02, s)
      else if s.rateWith r st > 10240000000 then (badReason 4 0x03, s)
      else (.done (clampReply (clamps [(16, c.num 16 2, 1, 1000), (18, c.num 18 2, 1, 4096)]) 0), s.configStream r c)

/-- CAPTURE_CONFIG (R282). -/
def execCaptureConfig (s : State) : Res := .next <| s.when true fun s => s.runCmd (isOp 0x40) opCaptureConfig

/-- A ring arms (R271, R283). -/
def State.armRing (s : State) (c : Fin 8) : State :=
  let s := s.modStream c fun st =>
    { st.clear with prev := none, left := st.len, fresh := true, fire := false,
                    rate := if slowable st.fmt then s.get R.CAP_STATUS.LEVEL else 0,
                    cic := List.replicate (maskChannels st.chmask).length {}, cicN := 0 }
  ((s.set (R.CAP_RING_STATE.STATE c) capArmed).capRefresh).raiseCap c 0x01 0 0

/-- A ring that has armed triggers at once with source 0x00, and with source 0x07 under FORCE. -/
def State.armTrigger (s : State) (force : Bool) (frame : Nat) (c : Fin 8) : State :=
  let src := (s.stream c).src
  if s.ring c = capArmed && (src = 0 || (src = 7 && force)) then s.trigStream c src 0 frame else s

/-- CAPTURE_ARM (R283) on the ADC frame `frame`. -/
def opCaptureArm (frame : Nat) (c : Cmd) (s : State) : CmdRes × State :=
  let rings := maskRings (c.byte 0)
  let force := bitAt (c.byte 1) 0
  if rings.any fun (r : Fin 8) => s.ring r = capDetached || s.ring r = capError || !(s.stream r).conf then (fail 0x22, s)
  else if rings.any fun (r : Fin 8) => !s.ringOn r && (s.stream r).mode = 0 &&
      s.capFree r < (s.stream r).pre + (s.stream r).len then (fail 0x22, s)
  else if !force && rings.any fun (r : Fin 8) => s.ringOn r then (fail 0x30, s)
  else
    let t := rings.foldl (fun (acc : State) (r : Fin 8) => if acc.ringOn r then acc else acc.armRing r) s
    (ok, rings.foldl (fun (acc : State) (r : Fin 8) => acc.armTrigger force frame r) t)

/-- CAPTURE_ARM (R283). -/
def execCaptureArm (frame : Nat) (s : State) : Res := .next <| s.when true fun s => s.runCmd (isOp 0x41) (opCaptureArm frame)

/-- A ring stops (R284): a running one closes its current block with LAST, a waiting one ends. -/
def State.stopRing (s : State) (kind : Nat) (cur : List FrameRun) (c : Fin 8) : State :=
  if s.ring c = capArmed then s.endRing c capStopped kind
  else if s.ring c = capRunning && !(s.stream c).ended then
    (s.closeBlock c (cur.getD c {}) 0 s.cap.forming true).modStream c fun st => { st with stop := some kind }
  else s

/-- Stops the rings of a mask. -/
def State.stopRings (s : State) (kind mask : Nat) (cur : List FrameRun) : State :=
  (maskRings mask).foldl (fun (acc : State) (c : Fin 8) => acc.stopRing kind cur c) s

/-- CAPTURE_STOP (R284); `cur` is the current block of each ring. -/
def opCaptureStop (cur : List FrameRun) (c : Cmd) (s : State) : CmdRes × State :=
  let t := s.stopRings 0x05 (c.byte 0) cur
  if (maskRings (c.byte 0)).any fun (r : Fin 8) => t.ringOn r then
    (.wait, { t with cap := { t.cap with stops := t.cap.stops ++ [(c.handle, c.byte 0)] } })
  else (ok, t)

/-- CAPTURE_STOP (R284). -/
def execCaptureStop (cur : List FrameRun) (s : State) : Res :=
  .next <| s.when true fun s => s.runCmd (isOp 0x42) (opCaptureStop cur)

/-- Attaches a ring: its base and attributes, SIZE, tail and head 0, state IDLE. -/
def State.attachRing (s : State) (r : Fin 8) (c : Cmd) : State :=
  let s := (s.set (R.CAP_RING_BASE_LO.BASE_LO r) (c.num 4 4 / 4096)).set (R.CAP_RING_BASE_HI.BASE_HI r) (c.num 8 4)
  let s := (s.set (R.CAP_RING_SIZE.SIZE r) (c.num 12 4)).set (R.CAP_RING_STATE.NS_RO r) (c.byte 1 / 2)
  (((s.setTail r 0).setHead r 0).set (R.CAP_RING_STATE.STATE r) capIdle).modStream r fun st => { st with irqN := 0 }

/-- Detaches a ring. -/
def State.detachRing (s : State) (r : Fin 8) : State :=
  let s := (s.set (R.CAP_RING_BASE_LO.BASE_LO r) 0).set (R.CAP_RING_BASE_HI.BASE_HI r) 0
  ((s.set (R.CAP_RING_SIZE.SIZE r) 0).set (R.CAP_RING_STATE.NS_RO r) 0).set (R.CAP_RING_STATE.STATE r) capDetached

/-- The total size with `size` in place of ring `r`'s, in blocks. -/
def State.sizeWith (s : State) (r : Fin 8) (size : Nat) : Nat :=
  allRings.foldl (fun (acc : Nat) (q : Fin 8) => acc + if q = r then size else s.capSize q) 0

/-- CAPTURE_RING_ATTACH without DETACH (R285). -/
def opRingAttach (c : Cmd) (s : State) : CmdRes × State :=
  let r := c.ring
  if s.ringOn r then (fail 0x30, s)
  else if !s.on R.HIF_CTRL.ENABLE then (fail 0x22, s)
  else if c.num 4 8 = 0 || c.num 4 8 % 4096 != 0 then (badField 4, s)
  else if c.num 12 4 = 0 || c.num 12 4 > 1048576 || s.sizeWith r (c.num 12 4) > 4194304 then (badField 12, s)
  else (ok, s.attachRing r c)

/-- CAPTURE_RING_ATTACH with DETACH (R285). -/
def opRingDetach (c : Cmd) (s : State) : CmdRes × State :=
  let r := c.ring
  if s.ringOn r then (fail 0x30, s)
  else if !s.on R.HIF_CTRL.ENABLE then (fail 0x22, s)
  else if c.num 4 8 != 0 then (badField 4, s)
  else if c.num 12 4 != 0 then (badField 12, s)
  else (ok, s.detachRing r)

/-- CAPTURE_RING_ATTACH (R285). -/
def execCaptureRingAttach (s : State) : Res :=
  .next <| s.when true fun s => s.runCmd (fun c => c.opcode = 0x43 && !bitAt (c.byte 1) 0) opRingAttach

/-- CAPTURE_RING_DETACH (R285). -/
def execCaptureRingDetach (s : State) : Res :=
  .next <| s.when true fun s => s.runCmd (fun c => c.opcode = 0x43 && bitAt (c.byte 1) 0) opRingDetach

/-! ### Rows of the engine -/

/-- THRESHOLD_FIRE (R280). -/
def execThresholdFire (n : Fin 4) (before after : Int) (frame : Nat) (s : State) : Res :=
  .next <| s.when (s.on (R.CAP_TH_CFG.EN n) && s.crossing n before after) fun s => s.trigAll 1 n frame

/-- CAPTURE_TRIGGER (R279, R281). -/
def execCaptureTrigger (c : Fin 8) (src idx frame : Nat) (s : State) : Res :=
  .next <| s.when (s.ring c = capArmed && (s.stream c).matches src idx) fun s => s.trigStream c src idx frame

/-- CAPTURE_BLOCK_CLOSE (R268, R273, R275, R276): the frames sampled since the stream's last close, the frames lost before
them, and the bytes of the blocks that are being formed. -/
def execCaptureBlockClose (c : Fin 8) (run : FrameRun) (lost forming : Nat) (s : State) : Res :=
  .next <| s.when (s.ringOn c && !(s.stream c).ended) fun s => s.closeBlock c run lost forming false

/-- Corrected and uncorrectable buffer errors in the blocks due (R276): `bad` has a bit per ring whose oldest due block has
one. -/
def State.capEcc (s : State) (corr bad : Nat) : State :=
  let s := s.setSat R.CAP_ECC_CNT.CORR (s.get R.CAP_ECC_CNT.CORR + corr)
  (maskRings bad).foldl (fun (acc : State) (c : Fin 8) =>
    match (acc.stream c).due with
    | [] => acc
    | b :: bs =>
      (((acc.modStream c fun st => { st with due := { b with flags := setBitAt b.flags 6 } :: bs }).bump
        R.CAP_ECC_CNT.UNCORR).setBit R.CAP_EVENT.ECC c true).raiseCap c 0x09 0 0) s

/-- WRITE_OUT_START (R277). -/
def execWriteOutStart (corr bad : Nat) (s : State) : Res :=
  .next <| s.when (s.canDma && allRings.any fun (c : Fin 8) => !(s.stream c).due.isEmpty) fun s => (s.capEcc corr bad).writeOut

/-- PRESSURE_RESTORE (R275). -/
def execPressureRestore (forming : Nat) (s : State) : Res :=
  .next <| s.when (s.get R.CAP_STATUS.LEVEL != 0 && s.capFill + forming - s.cap.forming < 65536) fun s =>
    ({ s with cap := { s.cap with forming := forming } }).setLevel (s.get R.CAP_STATUS.LEVEL - 1) |>.capRefresh

/-- SLOW_RATE_APPLY (R265). -/
def execSlowRateApply (s : State) : Res :=
  .next <| s.when s.cap.slowWait fun s =>
    { s with cap := { s.cap with slowRate := s.get R.CAP_CFG.SLOW_RATE, slowWait := false } }

/-- ONESHOT_DONE (R290): the mean in units of 1/4 code. -/
def execOneshotDone (mean : Int) (s : State) : Res :=
  .next <| s.when (s.on R.CAP_ONESHOT_RES.BUSY) fun s =>
    ((s.set R.CAP_ONESHOT_RES.BUSY 0).set R.CAP_ONESHOT_RES.STALE 0).set R.CAP_ONESHOT_RES.VALUE (mean % 65536).toNat

/-! ### Resets (R288) -/

/-- A host reset: every stream stops, the buffer empties, the rings detach. The ring registers return to reset with the
HIF block. -/
def State.capReset (s : State) : State :=
  let stops := s.cap.stops
  let s := { s with cap := { s.cap with streams := Vector.replicate 8 {}, forming := 0, stops := [] } }
  stops.foldl (fun (acc : State) (w : Nat × Nat) => acc.complete w.1 { status := 0x31, diagCode := 1 }) s

end Sys2Proof.Machine
end

