-- ==== Sys2Proof/Machine/LowPower.lean ====
section
/-! DEFINITION. KEEP-ALIVE (R30 to R32, R333): its preconditions, entry and wake, and the roles of the unit in a
cascade that they rest on (R320). -/

namespace Sys2Proof.Machine

/-! ### Roles (R320) -/

/-- The unit is strapped as follower U1 to U3. -/
def State.isFollower (s : State) : Bool := !s.on R.MOD_STRAP.ROLE && s.get R.MOD_STRAP.IDX != 0

/-- The unit is strapped as master U0. -/
def State.isMaster (s : State) : Bool := s.on R.MOD_STRAP.ROLE && s.get R.MOD_STRAP.IDX = 0

/-- The unit is a member of a cascade of more than one unit whose link runs (R339). -/
def State.multi (s : State) : Bool := s.get R.CSC_STATUS.STATE = 1 || s.get R.CSC_STATUS.STATE = 2

/-! ### KEEP-ALIVE -/

/-- The unit is in KEEP-ALIVE. -/
def State.inKa (s : State) : Bool := s.mode = 1

/-- A staging, activation or configuration commit is in progress (R30). -/
def State.fwBusy (s : State) : Bool :=
  s.fw.gap.isSome || s.cmds.any fun (c : Cmd) => c.started && (c.opcode = 0x70 || c.opcode = 0x71 || c.opcode = 0x73)

/-- A fast timer is enabled (R30). -/
def State.ftOn (s : State) : Bool := (List.range 16).any fun (n : Nat) => s.on (R.TMR_FT_CFG.EN n)

/-- The preconditions of R30 on the unit itself, its mode apart: what a follower's sleep refusal reports (R333). -/
def State.kaFree (s : State) : Bool := !s.anyAttached && s.get R.CAP_STATUS.ACTIVE = 0 && !s.ftOn && !s.fwBusy

/-- The preconditions of R30. -/
def State.kaOk (s : State) : Bool := s.mode = 2 && s.kaFree && s.md.longPress = 0

/-- The delay of a pending KEEP-ALIVE entry, or the three frames of the sleep flag, end with a failed precondition: the
entry is abandoned (R30, R333). -/
def State.recheckKa (s : State) : State := if s.kaOk then s else s.abandonKa

/-- The clocks of KEEP-ALIVE: AON alone (R18, R26). -/
def State.sleepClocks (s : State) : State :=
  (((s.set R.GLB_CLK_STATUS.RUN 1).set R.GLB_CLK_STATUS.FLL_LOCK 0).set R.GLB_CLK_STATUS.PLL_LOCK 0).set
    R.GLB_CLK_STATUS.PLL_HOLDOVER 0

/-- Jack suspends with SYS (R365, R367): the period in progress is discarded unless its cause has arisen. -/
def State.jackSleep (s : State) : State :=
  let st := s.get R.WDG_STATUS.STATE
  if st = 1 || st = 2 then s
  else
    let s := { s with jk := { s.jk with susp := if st = 3 then 3 else ofBool s.jk.due } }
    let s := if st = 0 && s.on R.WDG_STATUS.FAULTY then (s.set R.WDG_STATUS.PREV_FAULTY 1).set R.WDG_STATUS.FAULTY 0 else s
    s.set R.WDG_STATUS.STATE 2

/-- A period starts with PERIOD, OPEN and TASK_EN in force, and no check-in (R356, R360). -/
def State.freshPeriod (s : State) : State :=
  let s := { s with jk := { s.jk with period := s.get R.WDG_CFG.PERIOD, opens := s.get R.WDG_CFG.OPEN,
                                      tasks := s.get R.WDG_TASK_EN.TASK_EN } }
  (((s.set R.WDG_CHECKIN.CHECKIN 0).set R.WDG_STATUS.ANSWERED 0).set R.WDG_STATUS.FAULTY 0).set R.WDG_STATUS.TICK 0

/-- Jack resumes on a wake: a full period with the same question, or the wait goes on (R365). -/
def State.jackWake (s : State) : State :=
  if s.get R.WDG_STATUS.STATE != 2 || s.fw.gap.isSome then s
  else if s.jk.susp = 3 then s.set R.WDG_STATUS.STATE 3
  else s.freshPeriod.set R.WDG_STATUS.STATE 0

/-- Enters KEEP-ALIVE (R26, R30): SYS stops, the BATFET is a full switch unless it must stay off. The silence that
follows in a cascade does not count (R333). -/
def State.enterKa (s : State) (cause : Nat) : State :=
  let s := { s with md := { s.md with entry := .none, kaReturn := false },
                    csc := { s.csc with asleep := true, waking := 0, sleepN := none, refused := false } }
  let s := s.set R.MOD_MODE_STATUS.ENTRY_PENDING 0
  let s := if s.bat = batOff then s else s.set R.MOD_BATFET_STATUS.STATE batSwitch
  s.jackSleep.sleepClocks.setMode 1 cause

/-- An entry to KEEP-ALIVE is due (R30, R333): the unit enters, U0 of a cascade announces sleep first, and a failed
precondition abandons a pending entry. -/
def State.kaGo (s : State) (cause : Nat) : State :=
  if !s.kaOk then s.abandonKa
  else if s.get R.CSC_STATUS.STATE = 1 then
    { s with md := { s.md with entry := .ka, kaCause := cause }, csc := { s.csc with sleepN := some 0, refused := false } }.set
      R.MOD_MODE_STATUS.ENTRY_PENDING 1
  else s.enterKa cause

/-- The end of a platform power-down under AUTO_KA (R30, R333, R382). -/
def State.autoKa (s : State) : State :=
  if s.on R.MOD_LOWPWR_CFG.AUTO_KA && !s.isFollower && s.seq.latch.isEmpty && s.md.entry = .none && s.kaOk then
    s.kaGo 0x00
  else s

/-- The clocks after a wake: LPO, TSF, SYS and PD run, CSC in a cascade; the FLL has yet to lock (R18, R19). -/
def State.wakeClocks (s : State) : State :=
  (s.set R.GLB_CLK_STATUS.RUN (if s.multi then 0x30F else 0x10F)).set R.GLB_CLK_STATUS.PLL_LOCK 1

/-- Wakes from KEEP-ALIVE to BATTERY (R31, R32, R333): firmware resumes, and a member of a cascade that was not itself
woken by a burst drives one. -/
def State.wakeUp (s : State) (returns burst : Bool) : State :=
  if !s.inKa then { s with md := { s.md with kaReturn := s.md.kaReturn && returns } }
  else
    let s := s.wakeClocks.jackWake
    let s := { s with md := { s.md with kaReturn := returns }, csc := { s.csc with asleep := false, waking := 100 } }
    let s := if s.multi && !burst then s.emit .cscBurst else s
    s.setMode 2 0x08

end Sys2Proof.Machine
end

