-- ==== Sys2Proof/Machine/Rails.lean ====
section
/-! DEFINITION. The sequencer and the AUX bucks (15_aux_rails_and_sequencing.md): the rails' states, the requests that
run, meet and are latched, faults, and the rows that drive them. -/

namespace Sys2Proof.Machine

/-! ### Rails and masks (R377, R378) -/

/-- The rails. -/
def allRails : List (Fin 12) := [0, 1, 2, 3, 4, 5, 6, 7, 8, 9, 10, 11]

/-- Codes of the rail states (R378). -/
def railOff : Nat := 0
def railWait : Nat := 1
def railRamp : Nat := 2
def railGood : Nat := 3
def railHold : Nat := 4
def railFall : Nat := 5
def railFault : Nat := 6
def railStuck : Nat := 7
def railUnused : Nat := 8

/-- The rails that satisfy a condition, as a mask. -/
def railMask (f : Fin 12 → Bool) : Nat := allRails.foldl (fun acc n => if f n then acc + 2 ^ n.val else acc) 0

/-- A rail's state. -/
def State.rail (s : State) (n : Fin 12) : Nat := s.get (R.SEQ_RAIL_STATE.STATE n)

/-- A rail's dependencies. -/
def State.depsOf (s : State) (n : Fin 12) : Nat := s.get (R.SEQ_RAIL_CFG.DEPS n)

/-- A rail's group. -/
def State.railGroup (s : State) (n : Fin 12) : Nat := s.get (R.SEQ_RAIL_CFG.GROUP n)

/-- The rails of a group. -/
def State.groupRails (s : State) (g : Nat) : Nat := railMask fun n => s.railGroup n = g

/-- The rails in a state. -/
def State.railsIn (s : State) (st : Nat) : Nat := railMask fun n => s.rail n = st

/-- A mask with the rails that name one of its rails in DEPS. -/
def State.withDependents (s : State) (m : Nat) : Nat := railMask fun n => bitAt m n || s.depsOf n &&& m != 0

/-- A mask with every rail that depends on one of its rails, directly or indirectly (R380). -/
def State.railClosure (s : State) : Nat → Nat → Nat
  | 0, m => m
  | k + 1, m => s.railClosure k (s.withDependents m)

/-- The mask with all its dependents. -/
def State.dependents (s : State) (m : Nat) : Nat := s.railClosure 12 m

/-- The rails reachable through DEPS from a mask, with `deps` in place of rail `n`'s own. -/
def State.reach (s : State) (n : Fin 12) (deps : Nat) : Nat → Nat → Nat
  | 0, m => m
  | k + 1, m =>
    s.reach n deps k (allRails.foldl (fun (acc : Nat) (q : Fin 12) =>
      if bitAt m q then acc ||| (if q = n then deps else s.depsOf q) else acc) m)

/-- `deps` names rail `n` itself or closes a cycle (R377, R384). -/
def State.depsCycle (s : State) (n : Fin 12) (deps : Nat) : Bool := bitAt (s.reach n deps 12 deps) n

/-- Moves a rail to a state, with what follows from it: ENABLED, GOOD and, for an AUX buck, PG. A rail reads good from
its entry to GOOD until its enable falls. -/
def State.setRail (s : State) (n : Fin 12) (st : Nat) : State :=
  let good : Bool := st = railGood || (st = railHold && s.bit R.SEQ_STATUS.GOOD n)
  let s := s.set (R.SEQ_RAIL_STATE.STATE n) st
  let s := s.setBit R.SEQ_STATUS.ENABLED n (railRamp ≤ st && st ≤ railHold)
  let s := s.setBit R.SEQ_STATUS.GOOD n good
  if n.val < 4 then s.setBit R.SEQ_AUX_STATUS.PG n good else s

/-- `f` for every rail of a mask. -/
def State.eachRail (s : State) (m : Nat) (f : State → Fin 12 → State) : State :=
  allRails.foldl (fun (s : State) (n : Fin 12) => if bitAt m n then f s n else s) s

/-- Raises a SEQ event (R388). -/
def State.raiseSeq (s : State) (rail kind st group : Nat) : State :=
  s.raise 0x08 (leBytes 1 rail ++ leBytes 1 kind ++ leBytes 1 st ++ leBytes 1 group ++
    leBytes 4 (s.view A.SEQ_STATUS).toNat ++ leBytes 4 (s.view A.SEQ_FAULT).toNat)

/-- A rail's SEQ event. -/
def State.railEvent (s : State) (n : Fin 12) (kind : Nat) : State := s.raiseSeq n kind (s.rail n) (s.railGroup n)

/-- The SEQ event of a request: of its rail, or of its group (R388). -/
def State.runEvent (s : State) (r : SeqRun) (kind : Nat) : State :=
  s.raiseSeq r.rail kind (if r.rail < 12 then s.rail (Fin.ofNat 12 r.rail) else 0) r.group

/-- RESULT of the rail commands (R385): rails GOOD, rails STUCK. -/
def State.seqResult (s : State) : Nat := s.railsIn railGood + 65536 * s.railsIn railStuck

def State.modSeq (s : State) (f : Sequencer → Sequencer) : State := { s with seq := f s.seq }

/-- Sets PLATFORM, and PLATFORM_ON with it (R379, R389). -/
def State.setPlatform (s : State) (v : Nat) : State :=
  (s.set R.SEQ_STATUS.PLATFORM v).setb R.MOD_MODE_STATUS.PLATFORM_ON (v != 0)

/-! ### The end of a run -/

/-- Completes the commands of a request. -/
def State.endRun (s : State) (r : SeqRun) (status code : Nat) : State :=
  r.cmds.foldl (fun acc h => acc.complete h { status := status, diagCode := code, result := acc.seqResult }) s

/-- A power-up ends before all its rails are GOOD (R381, R382). A platform whose power-up no longer runs is up. -/
def State.breakUp (s : State) (r : SeqRun) (status code : Nat) : State :=
  let s := s.modSeq fun q => { q with runs := q.runs.filter fun (x : SeqRun) => x != r }
  let s := if r.plat && s.get R.SEQ_STATUS.PLATFORM = 1 then s.setPlatform 2 else s
  s.endRun r status code

/-- A power-up whose rails are all GOOD completes (R379, R385). -/
def State.finishUp (s : State) (r : SeqRun) : State :=
  if !r.up || r.rails &&& s.railsIn railGood != r.rails then s
  else
    let s := s.modSeq fun q => { q with runs := q.runs.filter fun (x : SeqRun) => x != r }
    let s := if r.plat then s.setPlatform 2 else s
    let s := if r.rail = 0xFF then s.runEvent r 0x07 else s
    s.endRun r 0x00 0

/-- The power-ups that are done complete. -/
def State.finishUps (s : State) : State := s.seq.runs.foldl State.finishUp s

/-- A power-down of which no rail holds or falls any more completes (R380, R385); the platform is then off, and
AUTO_KA may act (R30). -/
def State.finishDown (s : State) (r : SeqRun) : State :=
  if r.up || r.rails &&& (s.railsIn railHold + s.railsIn railFall) != 0 then s
  else
    let s := s.modSeq fun q => { q with runs := q.runs.filter fun (x : SeqRun) => x != r }
    let s := if r.plat then s.setPlatform 0 else s
    let s := if r.rail = 0xFF && r.group ≤ 2 then s.runEvent r 0x08 else s
    let s := s.endRun r 0x00 0
    if r.plat then s.autoKa else s

/-- The power-downs that are done complete. -/
def State.finishDowns (s : State) : State := s.seq.runs.foldl State.finishDown s

/-! ### Requests (R379, R380, R382) -/

/-- A running request of the same direction for the same rails. -/
def State.sameRun (s : State) (r : SeqRun) : Bool := s.seq.runs.any fun (x : SeqRun) => x.up = r.up && x.rails = r.rails

/-- A request joins the running one of the same direction and rails. -/
def State.joinRun (s : State) (r : SeqRun) : State :=
  s.modSeq fun q => { q with runs := q.runs.map fun (x : SeqRun) =>
    if x.up = r.up && x.rails = r.rails then { x with cmds := x.cmds ++ r.cmds } else x }

/-- A power-up starts: its rails in OFF, FAULT or STUCK enter WAIT. -/
def State.startUp (s : State) (r : SeqRun) : State :=
  if s.sameRun r then s.joinRun r
  else
    let s := s.eachRail r.rails fun s n =>
      if s.rail n = railOff || s.rail n = railFault || s.rail n = railStuck then s.setRail n railWait else s
    let s := if r.plat then s.setPlatform 1 else s
    (s.modSeq fun q => { q with runs := q.runs ++ [r] }).finishUps

/-- A power-down runs. -/
def State.downRuns (s : State) : Bool := s.seq.runs.any fun (x : SeqRun) => !x.up

/-- An on request: it starts, or is latched while a power-down runs (R382). -/
def State.requestOn (s : State) (r : SeqRun) : State :=
  if s.downRuns then
    ((s.modSeq fun q => { q with latch := q.latch ++ [r] }).set R.SEQ_STATUS.LATCHED_ON 1).runEvent r 0x09
  else s.startUp r

/-- An off request clears the latch, whose commands complete with ABORTED, code 0x00 (R382). -/
def State.clearLatch (s : State) : State :=
  let l := s.seq.latch
  let s := (s.modSeq fun q => { q with latch := [] }).set R.SEQ_STATUS.LATCHED_ON 0
  l.foldl (fun acc r => acc.endRun r 0x31 0) s

/-- The power-ups that an off request meets end: by R381 with TIMEOUT, else by R382 with ABORTED, code 0x01, and the event
of it. -/
def State.breakUps (s : State) (m : Nat) (byFault : Bool) : State :=
  (s.seq.runs.filter fun (r : SeqRun) => r.up && r.rails &&& m != 0).foldl
    (fun acc r => if byFault then acc.breakUp r 0x32 0 else (acc.breakUp r 0x31 1).runEvent r 0x0A) s

/-- An off request for the rails of `r` and all that depend on them (R380, R382). -/
def State.requestOff (s : State) (r : SeqRun) (byFault : Bool) : State :=
  let m := s.dependents r.rails
  let s := s.clearLatch
  if s.sameRun { r with rails := m } then s.joinRun { r with rails := m }
  else
    let s := s.breakUps m byFault
    let s := s.eachRail m fun s n =>
      if s.rail n = railWait then s.setRail n railOff
      else if s.rail n = railRamp || s.rail n = railGood then s.setRail n railHold else s
    let all := s.groupRails 1
    let plat : Bool := s.get R.SEQ_STATUS.PLATFORM != 0 && (r.plat || (all != 0 && all &&& m = all))
    let s := if plat then s.setPlatform 3 else s
    (s.modSeq fun q => { q with runs := q.runs ++ [{ r with rails := m, plat := plat }] }).finishDowns

/-- The power-up of a group. -/
def State.groupUp (s : State) (g : Nat) (plat : Bool) (cmds : List Nat) : SeqRun :=
  { up := true, rails := s.groupRails g, rail := 0xFF, group := g, plat := plat, cmds := cmds }

/-- The power-down of a group. -/
def State.groupDown (s : State) (g : Nat) (plat : Bool) (cmds : List Nat) : SeqRun :=
  { up := false, rails := s.groupRails g, rail := 0xFF, group := g, plat := plat, cmds := cmds }

/-- A request for one rail. -/
def State.railRun (s : State) (up : Bool) (n : Fin 12) (cmds : List Nat) : SeqRun :=
  { up := up, rails := 2 ^ n.val, rail := n, group := s.railGroup n, plat := false, cmds := cmds }

/-- The boot group of rails starts (R39, R41, R379). -/
def State.bootGroup (s : State) : State := s.requestOn (s.groupUp 0 false [])

/-- The platform group starts (R42, R379). -/
def State.platformOn (s : State) (cmds : List Nat) : State := s.requestOn (s.groupUp 1 true cmds)

/-- Every rail stops (R33, R44). -/
def State.stopRails (s : State) : State :=
  s.requestOff { up := false, rails := 0xFFF, rail := 0xFF, group := 0xFF, plat := true, cmds := [] } false

/-- A SHIP entry is abandoned (R33): rails already off stay off, and a rail whose enable has not fallen stays on. -/
def State.keepRails (s : State) : State :=
  let s := s.modSeq fun q => { q with runs := q.runs.filter fun (x : SeqRun) => x.up || x.group != 0xFF }
  let s := s.eachRail (s.railsIn railHold) fun s n => s.setRail n (if s.bit R.SEQ_STATUS.GOOD n then railGood else railRamp)
  if s.get R.SEQ_STATUS.PLATFORM = 3 && !s.downRuns then
    s.setPlatform (if s.groupRails 1 &&& s.get R.SEQ_STATUS.ENABLED != 0 then 2 else 0)
  else s

/-! ### Faults (R381) -/

/-- A rail enters FAULT: its enable falls, its bit sets, its event is raised, and the power-ups that include it end with
TIMEOUT (R381, R385). -/
def State.markFault (s : State) (n : Fin 12) (f : Fld) (kind : Nat) : State :=
  let s := ((s.setRail n railFault).setBit f n true).railEvent n kind
  (s.seq.runs.filter fun (r : SeqRun) => r.up && bitAt r.rails n).foldl (fun acc r => acc.breakUp r 0x32 0) s

/-- A faulted rail's ACTION (R381): its group with all that depends on it, the rails that depend on it, or nothing. -/
def State.faultAction (s : State) (n : Fin 12) : State :=
  let a := s.get (R.SEQ_RAIL_CFG.ACTION n)
  if a = 0 then s.requestOff (s.groupDown (s.railGroup n) false []) true
  else if a = 1 then
    let m := railMask fun q => bitAt (s.depsOf q) n
    if m = 0 then s else s.requestOff { (s.railRun false n []) with rails := m } true
  else s

/-- A rail faults, and its ACTION applies. -/
def State.faultRail (s : State) (n : Fin 12) (f : Fld) (kind : Nat) : State := (s.markFault n f kind).faultAction n

/-! ### Parameters (R48, R384) -/

/-- UNUSED follows GROUP 3 (R377, R378). -/
def State.syncUnused (s : State) (n : Fin 12) : State :=
  if s.railGroup n = 3 then
    (if s.rail n = railOff || s.rail n = railFault then s.setRail n railUnused else s)
  else if s.rail n = railUnused then s.setRail n railOff else s

/-- The parameters of R48 replace those of a rail that is OFF or UNUSED and waits for them (R384). -/
def State.applyR48 (s : State) (n : Fin 12) : State :=
  if !bitAt s.seq.defaults n || !(s.rail n = railOff || s.rail n = railUnused) then s
  else
    let s := s.modSeq fun q => { q with defaults := clearBitAt q.defaults n }
    let s := s.setWord (A.SEQ_RAIL_CFG n) (RegMap.resetWord (A.SEQ_RAIL_CFG n))
    let s := s.setWord (A.SEQ_RAIL_TIME n) (RegMap.resetWord (A.SEQ_RAIL_TIME n))
    let s := if n = 3 then s.set R.SEQ_AUX3_CFG.VOUT 1000 else s
    s.syncUnused n

/-- After the fallback every rail takes the parameters of R48 once it is OFF (R384). -/
def State.railDefaults (s : State) : State :=
  (s.modSeq fun q => { q with defaults := 0xFFF }).eachRail 0xFFF State.applyR48

/-! ### Rows 313 to 322 -/

/-- Rail `d` does not hold back the power-down of a rail it depends on (R380, R383): it reads off, or is FAULT, STUCK or
UNUSED; in the fast power-down, its enable has fallen (R44). -/
def State.letsGo (s : State) (d : Fin 12) : Bool :=
  let st := s.rail d
  if s.md.longPress = 1 then !(railRamp ≤ st && st ≤ railHold) else !(railRamp ≤ st && st ≤ railFall)

/-- RAIL_ENABLE (R379): the dependencies have read good for DELAY. -/
def execRailEnable (n : Fin 12) (s : State) : Res :=
  .next <| s.when (s.rail n = railWait && s.depsOf n &&& s.railsIn railGood = s.depsOf n) fun s => s.setRail n railRamp

/-- RAIL_GOOD (R379). -/
def execRailGood (n : Fin 12) (s : State) : Res :=
  .next <| s.when (s.rail n = railRamp) fun s => ((s.setRail n railGood).railEvent n 0x01).finishUps

/-- RAIL_PG_TIMEOUT (R381). -/
def execRailPgTimeout (n : Fin 12) (s : State) : Res :=
  .next <| s.when (s.rail n = railRamp) fun s => s.faultRail n R.SEQ_FAULT.TIMEOUT 0x03

/-- RAIL_LOSS_OF_GOOD (R381): in KEEP-ALIVE a falling PG input wakes the unit first (R31). -/
def execRailLossOfGood (n : Fin 12) (s : State) : Res :=
  .next <| s.when (s.rail n = railGood) fun s =>
    (s.ifDo (4 ≤ n.val) fun s => s.wakeUp false false).faultRail n R.SEQ_FAULT.LOST 0x04

/-- RAIL_DISABLE (R380, R44): the dependents read off and OFF_DELAY has passed. -/
def execRailDisable (n : Fin 12) (s : State) : Res :=
  .next <| s.when (s.rail n = railHold && allRails.all fun d => !bitAt (s.depsOf d) n || s.letsGo d) fun s =>
    s.setRail n railFall

/-- RAIL_OFF (R380, R383): a falling or stuck rail reads off. -/
def execRailOff (n : Fin 12) (s : State) : Res :=
  .next <| s.when (s.rail n = railFall || s.rail n = railStuck) fun s =>
    (((s.setRail n railOff).railEvent n 0x02).syncUnused n |>.applyR48 n).finishDowns

/-- RAIL_STUCK (R383): a dependency waits for the rail, which has not read off within its STUCK_TO. -/
def execRailStuck (n : Fin 12) (s : State) : Res :=
  .next <| s.when (s.rail n = railFall && s.depsOf n &&& s.railsIn railHold != 0) fun s =>
    (((s.setRail n railStuck).setBit R.SEQ_STUCK.STUCK n true).railEvent n 0x05).finishDowns

/-- LATCHED_POWER_UP (R382): T_MINOFF after the power-down the latched requests start. -/
def execLatchedPowerUp (s : State) : Res :=
  .next <| s.when (!s.downRuns && !s.seq.latch.isEmpty) fun s =>
    let l := s.seq.latch
    let s := (s.modSeq fun q => { q with latch := [] }).set R.SEQ_STATUS.LATCHED_ON 0
    l.foldl State.startUp s

/-- AUX_OVERLOAD (R376): the buck stops and OCP sets; a rail in RAMP or GOOD counts a loss of good (R381), and a rail
whose power-down runs reads off next. -/
def execAuxOverload (n : Fin 4) (s : State) : Res :=
  let r : Fin 12 := n.castLE (by decide)
  .next <| s.when (s.bit R.SEQ_STATUS.ENABLED r) fun s =>
    let s := (s.setBit R.SEQ_AUX_STATUS.OCP n true).railEvent r 0x06
    if s.rail r = railHold then s.setRail r railFall else s.faultRail r R.SEQ_FAULT.LOST 0x04

/-- AUX_UVLO (R376): below 2.7 V ±3 % every buck stops; the rails in RAMP or GOOD lose good. -/
def execAuxUvlo (vsys : Nat) (s : State) : Res :=
  .next <| s.when (vsys ≤ 2781) fun s =>
    let s := s.setSat R.MOD_VSYS_STATUS.VSYS vsys
    let m := (s.railsIn railRamp + s.railsIn railGood) % 16
    let s := s.eachRail (s.railsIn railHold % 16) fun s n => s.setRail n railFall
    let s := s.eachRail m fun s n => s.markFault n R.SEQ_FAULT.LOST 0x04
    s.eachRail m State.faultAction

/-! ### Commands (R385 to R387) -/

/-- A long press or a SHIP entry runs, and the rail commands are aborted (R385). -/
def State.railsBarred (s : State) : Bool :=
  s.md.longPress != 0 || s.md.entry = .shipDown || s.md.entry = .shipOff

/-- The rail that byte 0 names. -/
def Cmd.railNo (c : Cmd) : Fin 12 := Fin.ofNat 12 (c.byte 0)

/-- The clamped fields of RAIL_CONFIG (R386, R387). -/
def railClamps (c : Cmd) : List (Nat × Nat) :=
  clamps ([(7, c.byte 7, 0, 63), (8, c.num 8 2, 1, 1000), (10, c.num 10 2, 1, 1000)] ++
    (if c.byte 0 = 3 then [(12, c.num 12 2 / 5 * 5, 600, 1200)] else []))

/-- RAIL_CONFIG's writes. -/
def State.configRail (s : State) (n : Fin 12) (c : Cmd) : State :=
  let s := ((s.set (R.SEQ_RAIL_CFG.GROUP n) (c.byte 1)).set (R.SEQ_RAIL_CFG.DEPS n) (c.num 2 2)).set
    (R.SEQ_RAIL_CFG.ACTION n) (c.byte 4)
  let s := (s.set (R.SEQ_RAIL_CFG.DELAY n) (c.byte 5)).set (R.SEQ_RAIL_CFG.OFF_DELAY n) (c.byte 6)
  let s := ((s.set (R.SEQ_RAIL_TIME.PG_DEB n) (clampTo 0 63 (c.byte 7)).1).set
    (R.SEQ_RAIL_TIME.PG_TO n) (clampTo 1 1000 (c.num 8 2)).1).set (R.SEQ_RAIL_TIME.STUCK_TO n) (clampTo 1 1000 (c.num 10 2)).1
  let s := if n = 3 then s.set R.SEQ_AUX3_CFG.VOUT (clampTo 600 1200 (c.num 12 2 / 5 * 5)).1 else s
  s.syncUnused n

/-- RAIL_CONFIG (R386, R387). -/
def opRailConfig (c : Cmd) (s : State) : CmdRes × State :=
  let n := c.railNo
  if n != 3 && c.num 12 2 != 0 then (badField 12, s)
  else if s.seq.runs.any fun (r : SeqRun) => bitAt r.rails n then (fail 0x30, s)
  else if !(s.rail n = railOff || s.rail n = railFault || s.rail n = railUnused) then (fail 0x22, s)
  else if s.depsCycle n (c.num 2 2) then (.done { status := 0x11, diagOfs := 18, diagCode := 0x01 }, s)
  else (.done (clampReply (railClamps c) 0), s.configRail n c)

/-- RAIL_CONFIG (R386, R387). -/
def execRailConfig (s : State) : Res := .next <| s.when true fun s => s.runCmd (isOp 0x50) opRailConfig

/-- A dependency of the rail stands in OFF, FAULT, STUCK or UNUSED, and no running power-up starts it (R385). -/
def State.depMissing (s : State) (n : Fin 12) : Bool :=
  let quiet := s.railsIn railOff + s.railsIn railFault + s.railsIn railStuck + s.railsIn railUnused
  let rising := s.seq.runs.foldl (fun (acc : Nat) (r : SeqRun) => if r.up then acc ||| r.rails else acc) 0
  railMask (fun d => bitAt (s.depsOf n) d && bitAt quiet d && !bitAt rising d) != 0

/-- RAIL_ON (R385). -/
def opRailOn (c : Cmd) (s : State) : CmdRes × State :=
  let n := c.railNo
  if s.railsBarred then (.done { status := 0x31, result := s.seqResult }, s)
  else if s.rail n = railUnused || s.depMissing n then (.done { status := 0x22, result := s.seqResult }, s)
  else (.wait, s.requestOn (s.railRun true n [c.handle]))

/-- RAIL_ON (R385). -/
def execRailOn (s : State) : Res := .next <| s.when true fun s => s.runCmd (isOp 0x51) opRailOn

/-- RAIL_OFF (R385). -/
def opRailOff (c : Cmd) (s : State) : CmdRes × State :=
  if s.railsBarred then (.done { status := 0x31, result := s.seqResult }, s)
  else (.wait, s.requestOff (s.railRun false c.railNo [c.handle]) false)

/-- RAIL_OFF_CMD (R385). -/
def execRailOffCmd (s : State) : Res := .next <| s.when true fun s => s.runCmd (isOp 0x52) opRailOff

/-- SEQ_PLATFORM_ON (R385). -/
def opPlatformOn (c : Cmd) (s : State) : CmdRes × State :=
  if s.railsBarred then (.done { status := 0x31, result := s.seqResult }, s) else (.wait, s.platformOn [c.handle])

/-- SEQ_PLATFORM_ON (R385). -/
def execSeqPlatformOn (s : State) : Res := .next <| s.when true fun s => s.runCmd (isOp 0x53) opPlatformOn

/-- SEQ_PLATFORM_OFF (R385). -/
def opPlatformOff (c : Cmd) (s : State) : CmdRes × State :=
  if s.railsBarred then (.done { status := 0x31, result := s.seqResult }, s)
  else (.wait, s.requestOff (s.groupDown 1 true [c.handle]) false)

/-- SEQ_PLATFORM_OFF (R385). -/
def execSeqPlatformOff (s : State) : Res := .next <| s.when true fun s => s.runCmd (isOp 0x54) opPlatformOff

end Sys2Proof.Machine
end

