-- ==== Sys2Proof/Machine/Access.lean ====
section
/-! DEFINITION. Access to the register space (R5, R9, R13 to R17, R22, R24, R435 to R441, R461): refusals and their
record, locks, undefined codes, clamping and held fields, and the write that every path shares. -/

namespace Sys2Proof.Machine

/-! ### Refused accesses (R24, R359) -/

/-- The identifier of an initiator (R13). -/
def iniCode (i : Initiator) : Nat :=
  match i with
  | .supervisor => 0
  | .supervisorUser => 0
  | .application => 1
  | .host => 2
  | .ec => 3
  | .cascade => 4
  | .debug => 5

/-- The register address that an access reaches: BAR0 names whole words (R16). -/
def busAddr (i : Initiator) (addr : Nat) : Nat := if i = .host then addr % 65536 / 4 * 4 else addr % 65536

/-- A privileged register stands at the address (R14, R374, R433). -/
def privReg (a : Nat) : Bool := RegMap.privileged a && (RegMap.find a).isSome

/-- The cause that refuses an access, the first in the order of R24; `full` tells that all byte enables are set. -/
def State.refusal (s : State) (i : Initiator) (a : Nat) (isWrite full : Bool) : Option Nat :=
  if i = .debug && !s.on R.SEC_DBG_CTRL.DBG_EN then some 0x4
  else if !RegMap.mapped a then some 0x1
  else if a % 4 != 0 then some 0x5
  else if isWrite && i = .host && !full then some 0x3
  else if isWrite && i != .supervisor && privReg a then some 0x2
  else none

/-- A refused write of a WDG register sets REFUSED and raises its event (R359). -/
def State.wdgRefused (s : State) (i : Initiator) (a : Nat) (isWrite : Bool) : State :=
  if isWrite && i != .supervisor && (RegMap.find a).isSome && 0x3C00 ≤ a && a ≤ 0x3FFF then
    (s.set R.WDG_EVENT.REFUSED 1).raiseWdg 0x07 0xFF (s.get R.WDG_CAUSE.CAUSE_SET)
  else s

/-- Records a refused access. -/
def State.recordRefusal (s : State) (i : Initiator) (a : Nat) (isWrite : Bool) (cause : Nat) : State :=
  let s := if s.on R.GLB_ACC_ERR_INFO.VALID then s.bump R.GLB_ACC_ERR_INFO.COUNT
    else
      let s := (s.set R.GLB_ACC_ERR_ADDR.ADDR a).set R.GLB_ACC_ERR_INFO.COUNT 1
      let s := (s.set R.GLB_ACC_ERR_INFO.CAUSE cause).setb R.GLB_ACC_ERR_INFO.WRITE isWrite
      (s.set R.GLB_ACC_ERR_INFO.INITIATOR (iniCode i)).set R.GLB_ACC_ERR_INFO.VALID 1
  s.wdgRefused i a isWrite

/-! ### Merging, codes and clamping (R5, R9) -/

/-- The bits that a write changes as carried: RW and RWL fields. -/
def RegDesc.rwMask (d : RegDesc) : Word := d.accMask .rw ||| d.accMask .rwl

/-- A write's data merged into a word under a mask: RW and RWL bits take the data, W1C bits clear and W1S bits set where it
holds 1; RO, RC and WO bits stay. -/
def RegDesc.merge (d : RegDesc) (old data mask : Word) : Word :=
  let rw := d.rwMask &&& mask
  let w := (old &&& ~~~ rw) ||| (data &&& rw)
  (w &&& ~~~ (d.accMask .w1c &&& data &&& mask)) ||| (d.accMask .w1s &&& data &&& mask)

/-- A field that a write may set. -/
def FieldDesc.writable (f : FieldDesc) : Bool := f.acc = .rw || f.acc = .rwl

/-- The field's value in the word is one of its defined codes. -/
def FieldDesc.codeOk (f : FieldDesc) (w : Word) : Bool :=
  match f.lim with
  | .codes cs => !f.writable || cs.contains (getBits w f.lo f.width)
  | _ => true

/-- The field at the nearest limit of its range. -/
def FieldDesc.clampIn (f : FieldDesc) (w : Word) : Word :=
  if !f.writable then w
  else
    match f.lim with
    | .rng lo hi => putBits w f.lo f.width (min hi (max lo (getBits w f.lo f.width)))
    | .srng lo hi => putBits w f.lo f.width (ofSignedSat f.width (min hi (max lo (toSigned f.width (getBits w f.lo f.width)))))
    | _ => w

/-- Every field of the register at the nearest limit. -/
def RegDesc.clampWord (d : RegDesc) (w : Word) : Word := d.fields.foldl (fun w f => f.clampIn w) w

/-! ### Locks (R262, R263, R358, R389, R390, R438) -/

/-- The RWL fields of the address are locked now. -/
def State.rwlLocked (s : State) (a : Nat) : Bool :=
  if a = 0x2010 || a = 0x2014 || a = 0x2018 || a = 0x201C then s.on R.HIF_CTRL.ENABLE
  else if a = 0x2020 || a = 0x2024 || a = 0x2028 then s.on R.HIF_EVQ_CFG.EN
  else if 0x2100 ≤ a && a < 0x2200 then s.on (R.HIF_SQ_CFG.EN ((a - 0x2100) / 0x20))
  else if 0x2200 ≤ a && a < 0x2300 then s.on (R.HIF_CQ_CFG.EN ((a - 0x2200) / 0x20))
  else if a = A.WDG_SEED then s.on R.WDG_SEED.SEED_LOCK
  else if a = A.SEQ_AUX3_CFG then s.get (R.SEQ_RAIL_STATE.STATE 3) != 0
  else if 0x3840 ≤ a && a < 0x3900 then
    let st := s.get (R.SEQ_RAIL_STATE.STATE ((a - 0x3840) / 0x10))
    !(st = railOff || st = railFault || st = railUnused)
  else false

/-! ### Held fields and further limits (R461, and the rules of the fields) -/

/-- A field raised to at least `v`. -/
def State.atLeast (s : State) (f : Fld) (v : Nat) : State := if s.get f < v then s.set f v else s

/-- A field lowered to at most `v`. -/
def State.atMost (s : State) (f : Fld) (v : Nat) : State := if v < s.get f then s.set f v else s

/-- Moves the held fields that relate to the register at `a` by the least amount. -/
def State.hold (s : State) (a : Nat) : State :=
  match arrayIdx 0x0440 0x10 2 a with
  | some n => s.atLeast (R.MOD_IN_CFG.FLOOR_PCT n) (s.get (R.MOD_IN_CFG.DROP_PCT n) + 3)
  | none =>
  match arrayIdx (A.CNV_GRP_DYN 0) 0x20 2 a with
  | some n => s.atMost (R.CNV_GRP_DYN.SHED_LO n) (s.get (R.CNV_GRP_DYN.SHED_HI n) - 10)
  | none =>
  match arrayIdx (A.PH_DT 0) 0x40 6 a with
  | some n =>
    let s := s.atMost (R.PH_DT.DT_MIN n) (s.get (R.PH_DT.DT_MAX n))
    (s.atLeast (R.PH_DT.DT_INIT n) (s.get (R.PH_DT.DT_MIN n))).atMost (R.PH_DT.DT_INIT n) (s.get (R.PH_DT.DT_MAX n))
  | none =>
  if a = A.BGT_PACK_CFG then s.atLeast R.BGT_PACK_CFG.IDSG_PEAK (s.get R.BGT_PACK_CFG.IDSG_CONT)
  else if a = A.THM_CFG then s.atLeast R.THM_CFG.T_REG (s.get R.THM_CFG.T_FOLD + 5)
  else if a = A.WDG_CFG then s.atMost R.WDG_CFG.OPEN (s.get R.WDG_CFG.PERIOD - 1)
  else if a = A.MOD_VSYS_CFG then s.atLeast R.MOD_VSYS_CFG.VSYS_NOBAT (s.get R.MOD_VSYS_CFG.VSYS_MIN)
  else if a = A.CHG_COV_CFG then s.holdCov
  else s

/-- Limits of a field that depend on other state: the compatibility file's charge voltage (R317, R319), the offset of a
locked group (R329), a fast timer's count (R394), and AUX3's steps of 5 mV (R389). -/
def State.limitReg (s : State) (a : Nat) : State :=
  if a = A.TWB_COMPAT_VCHG then
    let n := max 1 s.cells
    if s.get R.TWB_COMPAT_VCHG.VCHG = 0 then s
    else (s.atLeast R.TWB_COMPAT_VCHG.VCHG (n * 3500)).atMost R.TWB_COMPAT_VCHG.VCHG (n * 4600)
  else if a = A.SEQ_AUX3_CFG then s.set R.SEQ_AUX3_CFG.VOUT (s.get R.SEQ_AUX3_CFG.VOUT / 5 * 5)
  else
    match arrayIdx (A.CSC_LOCK 0) 4 2 a with
    | some n => s.atMost (R.CSC_LOCK.OFS n) (2 * s.get R.CSC_SYNC_CFG.HALF_PERIOD - 1)
    | none =>
    match arrayIdx (A.TMR_FT_CNT 0) 0x20 16 a with
    | some n => s.atMost (R.TMR_FT_CNT.CNT n) (s.get (R.TMR_FT_TOP.TOP n))
    | none => s

/-! ### The write -/

/-- How a write ends: stored (clamped or not), refused with a cause, stopped by a lock or by an undefined code. -/
inductive WriteEnd where
  | stored (clamped : Bool)
  | refused (cause : Nat)
  | locked
  | badCode
  deriving DecidableEq, Repr

/-- Registers of the AON domain that carry writable fields (R440). -/
def aonReg (a : Nat) : Bool :=
  a = A.MOD_PWRBTN_CFG || a = A.MOD_LOWPWR_CFG || a = A.MOD_BATFET_CFG || a = A.MOD_BATFET_STATUS ||
    a = A.CHG_COV_CFG || a = A.CHG_COV_STATUS || (0x3440 ≤ a && a < 0x34C0)

/-- Stores a merged word: the fields at their limits, the held fields moved. -/
def State.putReg (s : State) (d : RegDesc) (a : Nat) (m : Word) : State :=
  ((s.setWord a (d.clampWord m)).limitReg a).hold a

/-- The word that the register holds once its posted writes have crossed (R22). -/
def State.settled (s : State) (a : Nat) : State :=
  match RegMap.find a with
  | none => s
  | some d => s.aonq.foldl (fun (acc : State) (w : AonWrite) =>
      if w.addr = a then acc.putReg d a (d.merge (acc.word a) w.data w.mask) else acc) s

/-- How the write would end on the word that the register holds: the lock before the codes of its fields (R9, R438). -/
def State.judge (s : State) (d : RegDesc) (a : Nat) (data mask : Word) : WriteEnd :=
  let m := d.merge (s.word a) data mask
  if s.rwlLocked a && (m ^^^ s.word a) &&& d.accMask .rwl != 0 then .locked
  else if d.fields.all fun (f : FieldDesc) => f.codeOk m then
    .stored (((s.putReg d a m).word a ^^^ m) &&& d.rwMask != 0)
  else .badCode

/-- MSI-X registers, which BAR0 alone reaches (R437). -/
def msixReg (a : Nat) : Bool := 0x2400 ≤ a && a < 0x2608

/-- A write that no cause refuses: stored with its effect, or posted to the AON domain. `eff` gets the register's word
before the write. -/
def State.writeReg (s : State) (i : Initiator) (a : Nat) (data mask : Word) (eff : Word → State → State) :
    WriteEnd × State :=
  match RegMap.find a with
  | none => (.stored false, s)
  | some d =>
    if msixReg a && i != .host then (.stored false, s)
    else
      let base := s.settled a
      match base.judge d a data mask with
      | .stored c =>
        if aonReg a then
          (.stored c, { s with aonq := s.aonq ++ [({ ini := i, addr := a, data := data, mask := mask } : AonWrite)] })
        else (.stored c, eff (s.word a) (s.putReg d a (d.merge (s.word a) data mask)))
      | e => (e, s)

/-- A write by an initiator (R16, R24): refused and recorded, or done. -/
def State.write (s : State) (i : Initiator) (addr : Nat) (data mask : Word) (full : Bool) (eff : Word → State → State) :
    WriteEnd × State :=
  let a := busAddr i addr
  let s := if i = .host then s.toL0 else s
  match s.refusal i a true full with
  | some c => (.refused c, s.recordRefusal i a true c)
  | none => s.writeReg i a data mask eff

/-- The initiator can reach the space: SYS runs, and for the host BAR0 accepts accesses over the link (R18, R39). -/
def State.reaches (s : State) (i : Initiator) : Bool :=
  bitAt (s.get R.GLB_CLK_STATUS.RUN) 3 && (i != .host || (s.md.bar0 && s.hif.linkUp && !s.hif.d3))

/-- A write row's meaning: a whole write at one address with its effect. -/
def State.rowWrite (s : State) (i : Initiator) (a : Nat) (data : Word) (full : Bool) (eff : Word → State → State) : State :=
  (s.write i a data 0xFFFFFFFF full eff).2

end Sys2Proof.Machine
end

