-- ==== Sys2Proof/Machine/Host.lean ====
section
/-! DEFINITION. The host interface (09_host_rings.md): doorbell fetches, entry fetches, rings, resets and losses, and the
general commands NOP, GET_STATUS_BLOCK and SET_EVENT_MASK. -/

namespace Sys2Proof.Machine

/-! ### The doorbell page (R229, R230) -/

/-- A trigger of R230: a doorbell fetch starts, or is due after the one that runs. -/
def State.requestFetch (s : State) : State :=
  if !s.on R.HIF_STATUS.RUNNING then s
  else if s.on R.HIF_STATUS.FETCHING || !s.canDma then s.set R.HIF_STATUS.KICK_PEND 1
  else (s.set R.HIF_STATUS.FETCHING 1).emit
    (.hostRead (s.get R.HIF_DB_BASE_LO.ADDR * 4096 + s.get R.HIF_DB_BASE_HI.ADDR * 2 ^ 32) 192)

/-- A fetch that is due starts. -/
def State.nextFetch (s : State) : State :=
  if s.on R.HIF_STATUS.KICK_PEND && s.canDma then (s.set R.HIF_STATUS.KICK_PEND 0).requestFetch else s

/-- A draining ring with nothing outstanding is disabled. -/
def State.drained (s : State) (q : Fin 8) : State :=
  if s.get (R.HIF_SQ_STATUS.STATE q) = 2 && s.get (R.HIF_SQ_STATUS.OUTSTANDING q) = 0 then
    s.set (R.HIF_SQ_STATUS.STATE q) 0
  else s

/-- A submission ring goes into error (R259); one whose EN is already clear drains on. -/
def State.sqFail (s : State) (q cause value : Nat) : State :=
  (if s.get (R.HIF_SQ_STATUS.STATE q) = 2 then s else s.set (R.HIF_SQ_STATUS.STATE q) 3).ringError R.HIF_ERR.SQ_ERR q cause 0
    q value

/-- SQ_TAIL of a fetch: at or above the ring size, the ring goes into error. -/
def State.takeTail (s : State) (q v : Nat) : State :=
  let s := s.set (R.HIF_SQ_TAIL_SEEN.TAIL_SEEN q) v
  if s.get (R.HIF_SQ_STATUS.STATE q) = 1 && s.sqSize q ≤ v then s.sqFail q 0x1 v else s

/-- The error of a head against the tail (R259): at or above the size 0x1, past the tail 0x7, else 0. -/
def headError (size tail old new : Nat) : Nat :=
  if size ≤ new then 0x1
  else if (tail + size - old % size) % size < (new + size - old % size) % size then 0x7
  else 0

/-- A completion ring goes into error (R259): its completions are discarded, and the submission rings bound to it go into
error. -/
def State.cqFail (s : State) (c : Fin 8) (cause value : Nat) : State :=
  let s := { s with hif := { s.hif with cqBad := setBitAt s.hif.cqBad c,
                                        cplHeld := s.hif.cplHeld.filter fun (h : HeldCpl) => h.cq != c } }
  let s := s.ringError R.HIF_ERR.CQ_ERR c cause 1 c value
  (List.range 8).foldl (fun (acc : State) (q : Nat) =>
    if acc.sqCq q = c && acc.get (R.HIF_SQ_STATUS.STATE q) = 1 then
      (acc.set (R.HIF_SQ_STATUS.STATE q) 3).setBit R.HIF_ERR.SQ_ERR q true
    else acc) s

/-- CQ_HEAD of a fetch. -/
def State.takeCqHead (s : State) (c : Fin 8) (v : Nat) : State :=
  let e := headError (2 ^ s.get (R.HIF_CQ_CFG.SIZE c)) (s.get (R.HIF_CQ_STATUS.TAIL c))
    (s.get (R.HIF_CQ_HEAD_SEEN.HEAD_SEEN c)) v
  let s := s.set (R.HIF_CQ_HEAD_SEEN.HEAD_SEEN c) v
  if e = 0 || !s.on (R.HIF_CQ_CFG.EN c) || bitAt s.hif.cqBad c then s else s.cqFail c e v

/-- The event ring goes into error (R259): its held records are discarded and counted. -/
def State.evqFail (s : State) (cause value : Nat) : State :=
  let n := s.hif.evHeld.length
  let s := (s.setSat R.HIF_EVQ_STATUS.LOST (s.get R.HIF_EVQ_STATUS.LOST + n)).setb R.HIF_ERR.EVQ_ERR true
  let s := { s with hif := { s.hif with evqBad := true, evHeld := [], evLost := s.hif.evLost || n != 0 } }
  s.ringError R.HIF_ERR.EVQ_ERR 0 cause 2 0 value

/-- EVQ_HEAD of a fetch. -/
def State.takeEvHead (s : State) (v : Nat) : State :=
  let e := headError (2 ^ s.get R.HIF_EVQ_CFG.SIZE) (s.get R.HIF_EVQ_STATUS.TAIL) s.hif.evHead v
  let t := { s with hif := { s.hif with evHead := v } }
  if e = 0 || !s.on R.HIF_EVQ_CFG.EN || s.hif.evqBad then t else t.evqFail e v

/-- Applies the 192 bytes of a doorbell fetch: tails release entries, heads free space, capture heads pass to the capture
engine. -/
def State.applyDoorbell (s : State) (page : List Byte) : State :=
  let s := (List.range 8).foldl (fun (acc : State) (q : Nat) => acc.takeTail q (leAt page (4 * q) 2)) s
  let s := allRings.foldl (fun (acc : State) (c : Fin 8) => acc.takeCqHead c (leAt page (0x20 + 4 * c) 2)) s
  let s := (s.takeEvHead (leAt page 0x40 2)).flushEvents 16
  allRings.foldl (fun (acc : State) (c : Fin 8) => acc.takeHead c (leAt page (0x80 + 8 * c) 8)) s

/-- A doorbell read fails (R259): the previous values are kept. -/
def State.dbFail (s : State) (cause : Nat) : State := s.ringError R.HIF_ERR.DB_ERR 0 cause 3 0 0

/-- DOORBELL_POLL (R230). -/
def execDoorbellPoll (s : State) : Res :=
  .next <| s.when (s.get R.HIF_CTRL.POLL_US != 0 && s.on R.HIF_STATUS.L0 && s.on R.HIF_STATUS.RUNNING &&
    !s.on R.HIF_STATUS.FETCHING) State.requestFetch

/-- DOORBELL_FETCH_DONE (R229, R230, R259): `err` is 0, or the cause of a failed request. -/
def execDoorbellFetchDone (err : Nat) (page : List Byte) (s : State) : Res :=
  .next <| s.when (s.on R.HIF_STATUS.FETCHING) fun s =>
    let s := s.set R.HIF_STATUS.FETCHING 0
    let s := if err = 0 then s.applyDoorbell page else s.dbFail err
    s.nextFetch.fetchTurns

/-- FULL_HEAD_FETCH (R267): the heads are fresh, and a ring that is still full ends. -/
def execFullHeadFetch (c : Fin 8) (err : Nat) (page : List Byte) (s : State) : Res :=
  .next <| s.when (s.stream c).heading fun s =>
    let s := s.modStream c fun st => { st with heading := false }
    if err != 0 then s.dbFail err
    else
      let s := s.applyDoorbell page
      (if s.ring c = capRunning then (s.drain true c).publish else s).fetchTurns

/-! ### Entry fetches (R246, R247) -/

/-- A fetched command joins those outstanding. After the start of a long press it completes with ABORTED (R260). -/
def State.takeEntry (s : State) (src : CmdSrc) (e : List Byte) : State :=
  let c := cmdOfEntry s.nextH src e
  let c := if s.md.longPress = 0 then c else { c with bad := some { status := 0x31 } }
  { s with cmds := s.cmds ++ [c], nextH := s.nextH + 1 }

/-- The entries of a fetch, in index order. -/
def State.takeEntries (s : State) (src : CmdSrc) (data : List Byte) (n : Nat) : State :=
  (List.range n).foldl (fun (acc : State) (k : Nat) => acc.takeEntry src (sliceBytes data (64 * k) 64)) s

/-- A failed entry read (R259): its entries are neither executed nor completed. -/
def State.fetchFail (s : State) (f : EntryFetch) (err : Nat) : State :=
  let q := f.ring
  let s := (s.set (R.HIF_SQ_STATUS.OUTSTANDING q) (s.get (R.HIF_SQ_STATUS.OUTSTANDING q) - f.count)).set R.HIF_STATUS.IN_FLIGHT
    (s.get R.HIF_STATUS.IN_FLIGHT - f.count)
  let s := s.set (R.HIF_CQ_STATUS.RESV_SLOTS (s.sqCq q)) (s.get (R.HIF_CQ_STATUS.RESV_SLOTS (s.sqCq q)) - f.count)
  s.sqFail q err f.first

/-- The entries of a read arrive: the head advances, the status page shows it before any completion (R248), and entries that
fail their checks complete as they would start. -/
def State.fetchGood (s : State) (f : EntryFetch) (data : List Byte) : State :=
  let q := f.ring
  let s := (s.set (R.HIF_SQ_STATUS.HEAD q) ((f.first + f.count) % s.sqSize q)).writeStatus
  let s := s.takeEntries (.ring q) data f.count
  (s.settle s.cmds.length).fetchTurns

/-- ENTRY_FETCH_DONE (R246, R259). -/
def execEntryFetchDone (q : Fin 8) (err : Nat) (data : List Byte) (s : State) : Res :=
  .next <| s.when (s.hif.fetches.any fun (f : EntryFetch) => f.ring = q) fun s =>
    match s.hif.fetches.find? fun (f : EntryFetch) => f.ring = q with
    | none => s
    | some f =>
      let s := { s with hif := { s.hif with fetches := s.hif.fetches.filter fun (g : EntryFetch) => g.ring != q } }
      if err = 0 then s.fetchGood f data else s.fetchFail f err

/-- IRQ_ITIME_EXPIRY (R228): ring 0 to 7 a completion ring, 8 the event ring. -/
def execIrqItimeExpiry (ring : Fin 9) (s : State) : Res :=
  .next <| s.when true fun s =>
    if ring = 8 then
      if s.get R.HIF_EVQ_CFG.ITIME != 0 && s.hif.evCount != 0 then
        ({ s with hif := { s.hif with evCount := 0 } }).fire (s.get R.HIF_EVQ_CFG.VEC)
      else s
    else
      let q : Fin 8 := Fin.ofNat 8 ring
      if s.get (R.HIF_CQ_CFG.ITIME q) != 0 && s.hif.cqCount.get q != 0 then
        ({ s with hif := { s.hif with cqCount := s.hif.cqCount.set q 0 } }).fire (s.get (R.HIF_CQ_CFG.VEC q))
      else s

/-! ### Enabling and disabling (R234, R262): the effects of the writes -/

/-- Effect of a write of HIF.CTRL: `was` is ENABLE before it. The ring engine runs once its base addresses are set. -/
def State.ctrlWritten (s : State) (was : Bool) : State :=
  if s.on R.HIF_CTRL.ENABLE = was then s
  else if was then ((s.set R.HIF_STATUS.RUNNING 0).set R.HIF_STATUS.FETCHING 0).set R.HIF_STATUS.KICK_PEND 0
  else
    let db := s.get R.HIF_DB_BASE_LO.ADDR + s.get R.HIF_DB_BASE_HI.ADDR
    let st := s.get R.HIF_ST_BASE_LO.ADDR + s.get R.HIF_ST_BASE_HI.ADDR
    s.setb R.HIF_STATUS.RUNNING (db != 0 && st != 0)

/-- A refused enable or disable (R234, R259). -/
def State.cfgRefused (s : State) (kind ring : Nat) : State := s.ringError R.HIF_ERR.CFG 0 0x6 kind ring 0

/-- Effect of a write of SQ_CFG: `was` is EN before it. -/
def State.sqWritten (s : State) (q : Fin 8) (was : Bool) : State :=
  if s.on (R.HIF_SQ_CFG.EN q) = was then s
  else if was then (s.set (R.HIF_SQ_STATUS.STATE q) 2).drained q
  else if s.get (R.HIF_SQ_STATUS.STATE q) = 0 && s.on R.HIF_CTRL.ENABLE && s.on (R.HIF_CQ_CFG.EN (s.sqCq q)) then
    (((s.set (R.HIF_SQ_STATUS.STATE q) 1).set (R.HIF_SQ_STATUS.HEAD q) 0).set (R.HIF_SQ_TAIL_SEEN.TAIL_SEEN q) 0).requestFetch
  else (s.set (R.HIF_SQ_CFG.EN q) 0).cfgRefused 0 q

/-- A submission ring that is enabled or draining is bound to a completion ring. -/
def State.cqBound (s : State) (c : Fin 8) : Bool :=
  allRings.any fun (q : Fin 8) => s.sqCq q = c && (s.on (R.HIF_SQ_CFG.EN q) || s.get (R.HIF_SQ_STATUS.STATE q) != 0)

/-- A completion ring starts: tail 0, phase 1. -/
def State.startCq (s : State) (c : Fin 8) : State :=
  let s := ((s.set (R.HIF_CQ_STATUS.TAIL c) 0).set (R.HIF_CQ_STATUS.PHASE c) 1).set (R.HIF_CQ_STATUS.RESV_SLOTS c) 0
  { s.set (R.HIF_CQ_HEAD_SEEN.HEAD_SEEN c) 0 with
    hif := { s.hif with cqBad := clearBitAt s.hif.cqBad c, cqCount := s.hif.cqCount.set c 0 } }

/-- Effect of a write of CQ_CFG: `was` is EN before it. -/
def State.cqWritten (s : State) (c : Fin 8) (was : Bool) : State :=
  if s.on (R.HIF_CQ_CFG.EN c) = was then s
  else if was then if s.cqBound c then (s.set (R.HIF_CQ_CFG.EN c) 1).cfgRefused 1 c else s
  else (s.startCq c).requestFetch

/-- Effect of a write of EVQ_CFG: `was` is EN before it. -/
def State.evqWritten (s : State) (was : Bool) : State :=
  if s.on R.HIF_EVQ_CFG.EN = was then s
  else
    let s := { s with hif := { s.hif with evHeld := [] } }
    if was then s
    else
      let s := { s with hif := { s.hif with evHead := 0, evqBad := false, evCount := 0, evLost := false } }
      ((s.set R.HIF_EVQ_STATUS.TAIL 0).set R.HIF_EVQ_STATUS.PHASE 1).requestFetch

/-- SQ_DRAIN_DONE (R234). -/
def execSqDrainDone (q : Fin 8) (s : State) : Res := .next <| s.when true fun s => s.drained q

/-! ### Resets and losses (R260, R404, R408) -/

/-- Releases every lock that an initiator holds (R408). -/
def State.freeLocks (s : State) (id : Nat) : State :=
  (List.range 16).foldl (fun (acc : State) (n : Nat) =>
    if acc.on (R.MBX_LOCK.HELD n) && acc.get (R.MBX_LOCK.OWNER n) = id then acc.setWord (A.MBX_LOCK n) 0 else acc) s

/-- Empties both host queues. -/
def State.emptyHostBox (s : State) : State :=
  { ((s.set R.MBX_H2U_STATUS.USED 0).set R.MBX_U2H_STATUS.USED 0).set R.MBX_U2H_STATUS.WAIT 0 with
    mbx := { s.mbx with h2u := [], u2h := [], reply := none } }

/-- The host mailbox at a host reset: queues empty, acknowledge and flags clear (R404). -/
def State.resetHostBox (s : State) : State :=
  let s := (s.emptyHostBox.setWord A.MBX_H2U_ACK 0).set R.MBX_H2U_STATUS.H2U_OVF 0
  s.set R.MBX_U2H_STATUS.ACK_ERR 0

/-- What a host reset leaves of the host interface beside its registers. -/
def HostIf.reset (h : HostIf) : HostIf := { linkUp := h.linkUp, perst := h.perst }

/-- The commands at a host reset (R260): those of the rings that have not started are discarded, started ones run to their
end without completion. -/
def dropRingCmds (cs : List Cmd) : List Cmd :=
  (cs.filter fun (c : Cmd) => c.started || c.src = .ec || c.src = .image).map fun (c : Cmd) =>
    match c.src with
    | .ring _ => { c with noCpl := true }
    | _ => c

/-- A host reset (R6, R260, R288, R404, R408). -/
def State.hostReset (s : State) : State :=
  let s := { s with cmds := dropRingCmds s.cmds, regs := regReset .host s.regs, hif := s.hif.reset }
  (s.capReset.resetHostBox.freeLocks 2).capRefresh

/-- The link goes down. -/
def State.linkDown (s : State) (perst : Bool) : State :=
  (({ s with hif := { s.hif with linkUp := false, l1 := false, perst := s.hif.perst || perst } }).set R.HIF_STATUS.L0 0)

/-- FUNCTION_LEVEL_RESET (R260): 0 a function-level reset, 1 PERST#, 2 Data Link Down. -/
def execFunctionLevelReset (kind : Fin 3) (s : State) : Res :=
  .next <| s.when true fun s =>
    if kind = 0 then s.hostReset.toL0 else (s.linkDown (kind = 1)).hostReset

/-- BUS_MASTER_DISABLE (R260): Bus Master Enable clears, or the function enters D3hot. -/
def execBusMasterDisable (d3 : Bool) (s : State) : Res :=
  .next <| s.when s.hif.linkUp fun s =>
    if d3 then { s with hif := { s.hif with d3 := true } } else s.set R.HIF_STATUS.BME 0

/-- Messages that pended while DMA was off, or their vector masked, go out (R227). -/
def State.flushMsix (s : State) : State :=
  (List.range 32).foldl (fun (acc : State) (v : Nat) =>
    if acc.bit (R.HIF_MSIX_PBA.PEND (v / 32)) (v % 32) && !acc.on (R.HIF_MSIX_CTRL.MASK v) && acc.canDma then
      (acc.setBit (R.HIF_MSIX_PBA.PEND (v / 32)) (v % 32) false).emit (.msix v)
    else acc) s

/-- DMA resumes: the status page, held completions and records, and what was to be fetched (R260). -/
def State.dmaResume (s : State) : State :=
  if !s.canDma then s
  else
    let s := if s.hif.stDue then s.writeStatus else s
    (s.flushCpls.flushEvents 16).flushMsix.nextFetch.fetchTurns

/-- BUS_MASTER_ENABLE (R260): Bus Master Enable is set, or the function returns to D0. -/
def execBusMasterEnable (d0 : Bool) (s : State) : Res :=
  .next <| s.when s.hif.linkUp fun s =>
    (if d0 then { s with hif := { s.hif with d3 := false } } else s.set R.HIF_STATUS.BME 1).dmaResume

/-- LINK_L1_ENTRY (R226): no TLP to send, none received, no read outstanding for 8 µs. -/
def execLinkL1Entry (s : State) : Res :=
  .next <| s.when (s.hif.linkUp && s.on R.HIF_STATUS.L0 && !s.on R.HIF_STATUS.FETCHING && s.hif.fetches.isEmpty) fun s =>
    { s.set R.HIF_STATUS.L0 0 with hif := { s.hif with l1 := true } }

/-- PERST_DEASSERT (R455) outside KEEP-ALIVE: link training starts; `trained` tells whether the link comes up. -/
def execPerstDeassert (trained : Bool) (s : State) : Res :=
  .next <| s.when (s.hif.perst && s.powered) fun s =>
    let s := { s with hif := { s.hif with perst := false, linkUp := trained, l1 := false } }
    s.setb R.HIF_STATUS.L0 trained

/-! ### General commands (R251, R254, R255) -/

/-- NOP (R251). -/
def opNop (_ : Cmd) (s : State) : CmdRes × State := (.done { status := 0x00, result := s.tsNow }, s)

/-- NOP (R251). -/
def execNop (s : State) : Res := .next <| s.when true fun s => s.runCmd (isOp 0x00) opNop

/-- The registers of words 2 to 31 of the status block (R254). -/
def statusWords : List Nat :=
  [A.MOD_MODE_STATUS, A.MOD_STRAP, A.MOD_MATRIX_STATUS, A.MOD_VSYS_STATUS, A.MOD_BAT_MEAS, A.MOD_SYS_MEAS,
   A.MOD_BATFET_STATUS, A.CNV_STATUS, A.CNV_GRP_STATUS 0, A.CNV_GRP_STATUS 1, A.CHG_STATUS, A.CHG_CURRENT, A.BGT_STATUS,
   A.BGT_STR_CHG] ++ (List.range 4).map (fun (n : Nat) => A.PD_CC_STATUS n) ++
    (List.range 4).map (fun (n : Nat) => A.PD_PE_STATUS n) ++ (List.range 4).map (fun (n : Nat) => A.PD_PE_CONTRACT n) ++
    [A.MOD_IN_MEAS 0, A.MOD_IN_MEAS 1, A.HIF_STATUS, A.GLB_CLK_STATUS]

/-- The status block (R254). -/
def State.statusBlock (s : State) : List Byte :=
  leBytes 8 s.tsNow ++ statusWords.flatMap fun (a : Nat) => leBytes 4 (s.view a).toNat

/-- GET_STATUS_BLOCK (R254). -/
def opStatusBlock (_ : Cmd) (s : State) : CmdRes × State := (.done { status := 0x00, buf := s.statusBlock }, s)

/-- GET_STATUS_BLOCK (R254). -/
def execGetStatusBlock (s : State) : Res := .next <| s.when true fun s => s.runCmd (isOp 0x03) opStatusBlock

/-- SET_EVENT_MASK (R255): HIF.EVQ_MASK from the host rings, the ALERT# mask from the EC queue. -/
def opEventMask (c : Cmd) (s : State) : CmdRes × State :=
  let m := c.num 0 2 / 2 % 8192
  (ok, if c.src = .ec then s.set R.TWB_ALERT_MASK.TYPES m else s.set R.HIF_EVQ_MASK.MASK m)

/-- SET_EVENT_MASK (R255). -/
def execSetEventMask (s : State) : Res := .next <| s.when true fun s => s.runCmd (isOp 0x04) opEventMask

end Sys2Proof.Machine
end

