-- ==== Sys2Proof/Machine/Continuity.lean ====
section
/-! DEFINITION. Losses and returns of firmware (14_watchdog_and_continuity.md, R6, R47, R260, R288, R318, R404, R405, R408,
R419): the warm reset, the return, the fallback to the stand-alone behaviour, and the end of a control gap. -/

namespace Sys2Proof.Machine

/-! ### The retained counters and their mirror (R427) -/

/-- The three retained counters: RESET_CNT, FALLBACK_CNT and ABANDON_CNT. -/
def State.retained (s : State) : List Byte :=
  leBytes 2 (s.get R.WDG_COUNTS.RESET_CNT) ++ leBytes 1 (s.get R.WDG_COUNTS.FALLBACK_CNT) ++
    leBytes 2 (s.get R.LOG_RETAIN.ABANDON_CNT)

/-- Queues an entry for the fault log that is no event (R424 types 0x80 to 0x82). -/
def State.queueLog (s : State) (typ : Nat) (data : List Byte) : State :=
  if s.fw.logQ.length < 32 then
    { s with fw := { s.fw with logQ := s.fw.logQ ++ [{ typ := typ, seq := 0, ts := s.tsNow, payload := data }] } }
  else s.bump R.LOG_STATUS.DROPPED

/-- A retained counter changed: its mirror entry is queued, or due at the firmware's return. -/
def State.mirrorDue (s : State) : State :=
  if s.fwRuns then s.queueLog 0x80 s.retained else { s with fw := { s.fw with mirror := true } }

/-! ### Probation (R419) -/

/-- The boot record names a bank, with TRIAL. -/
def State.setRecord (s : State) (bank : Nat) (trial : Bool) : State :=
  let r := s.fw.record
  let s := { s with fw := { s.fw with record := { r with bank := bank, trial := trial, seq := r.seq + 1 } } }
  ((s.setb R.SEC_FW_STATUS.TRIAL trial).set R.SEC_FW_STATUS.ACTIVE bank).set R.SEC_FW_STATUS.RUN_SVN (s.bank bank).svn

/-- The unit returns to the old bank: STAGED clears, and both events are raised. -/
def State.oldBank (s : State) (bank : Nat) : State :=
  let s := (s.setRecord bank false).set R.SEC_FW_STATUS.STAGED 0
  let s := { s with fw := { s.fw with staged := none } }
  (s.raiseFw 0x04 bank (s.bank bank).svn).raiseFault 0x0B 0x2 0xFF 0

/-! ### Warm reset (R362, R404, R405, R408) -/

/-- The host mailbox at a warm reset: queues empty; a message taken and not acknowledged gets ABORTED. -/
def State.warmHostBox (s : State) : State :=
  let taken := s.mbx.reply
  let s := s.emptyHostBox
  match taken with
  | none => s
  | some r =>
    (((s.set R.MBX_H2U_ACK.TAG r.tag).set R.MBX_H2U_ACK.STATUS 0x31).set R.MBX_H2U_ACK.VALID 1).fire
      (s.get R.HIF_VEC_CFG.MBX_VEC)

/-- The EC mailbox at a warm reset: both words empty, a pending acknowledge becomes ABORTED. -/
def State.warmEcBox (s : State) : State :=
  let s := (s.set R.MBX_EC2U.W 0).set R.MBX_U2EC.W 0
  let s := ((s.set R.MBX_EC_STATUS.E2U_FULL 0).set R.MBX_EC_STATUS.U2E_FULL 0).set R.MBX_EC_STATUS.U2E_WAIT 0
  (if s.get R.MBX_EC_STATUS.UNIT_ACK = 0xFF then s.set R.MBX_EC_STATUS.UNIT_ACK 0x31 else s).clearPending 0x8000

/-- A warm reset with its cause: 1 Jack, 2 lockstep mismatch, 3 core ECC. The firmware cores restart; the power path keeps
its settings. The period after it follows a faulty one (R363). -/
def State.warmReset (s : State) (cause : Nat) : State :=
  let s := if s.get R.HIF_STATUS.FW = 1 then s.set R.HIF_STATUS.FW 0 else s
  let s := s.set R.WDG_COUNTS.LAST_CAUSE cause
  let s := if cause = 1 then ((s.bump R.WDG_COUNTS.RESET_CNT).set R.WDG_EVENT.RESET 1).mirrorDue else s
  let s := s.raiseWdg 0x02 0xFF cause
  let s := { s with regs := regReset .warm s.regs, jk := {}, tmr := { s.tmr with halted := false } }
  let s := (s.set R.WDG_STATUS.PREV_FAULTY 1).armFallback
  let s := ((s.freeLocks 0).freeLocks 1).warmHostBox.warmEcBox
  if s.fw.record.trial then s.oldBank (1 - s.fw.record.bank) else s

/-! ### Return (R260, R363, R368, R419, R425) -/

/-- Commands that had started complete with ABORTED, code 0x01. -/
def State.abortStarted (s : State) : State :=
  (s.cmds.filter fun (c : Cmd) => c.started).foldl (fun (acc : State) (c : Cmd) =>
    acc.finish c.handle { status := 0x31, diagCode := 1 }) s

/-- Records kept while no firmware ran, and a mirror that is due, go to the fault log's queue. -/
def State.logKept (s : State) : State :=
  let kept := s.fw.kept
  let s := { s with fw := { s.fw with kept := [] } }
  let s := kept.foldl (fun (acc : State) (e : Event) =>
    if acc.fw.logQ.length < 32 then { acc with fw := { acc.fw with logQ := acc.fw.logQ ++ [e] } }
    else acc.bump R.LOG_STATUS.DROPPED) s
  if s.fw.mirror then { s.queueLog 0x80 s.retained with fw := { (s.queueLog 0x80 s.retained).fw with mirror := false } } else s

/-- Held commands start, and fetching resumes. -/
def State.resumeCmds (s : State) : State := (s.settle s.cmds.length).fetchTurns

/-- The end of a control gap (R419, R420): the new bank is active on trial, or the old bank runs again. -/
def State.endGap (s : State) (g : Gap) : State :=
  let s := ({ s with fw := { s.fw with gap := none } }).set R.SEC_FW_STATUS.GAP 0
  if g.back then
    (s.oldBank g.bank).completeOpt g.handle (if g.diag = 0 then { status := 0x00 } else { status := 0x50, diagCode := g.diag })
  else
    let s := (s.setRecord g.bank true).set R.SEC_FW_STATUS.STAGED 0
    let s := { s with fw := { s.fw with staged := none } }
    (s.raiseFw 0x03 g.bank (s.bank g.bank).svn).completeOpt g.handle { status := 0x00 }

/-- Firmware has returned (R363): the fallback timer is disarmed, FW reads 0b01, timed periods begin at the next tick. -/
def State.fwReturn (s : State) : State :=
  let s := ((s.set R.WDG_FALLBACK.ARMED 0).set R.WDG_FALLBACK.LEFT 0).set R.HIF_STATUS.FW 1
  let s := ((s.set R.WDG_STATUS.STATE 0).set R.WDG_STATUS.FAULTY 0).set R.WDG_STATUS.PREV_FAULTY 0
  let s := { s with thm := { s.thm with dieN := Vector.replicate 12 0, ntcN := Vector.replicate 8 0 } }
  let s := ({ s with jk := { s.jk with due := true } }).raiseWdg 0x03 0xFF (s.get R.WDG_CAUSE.CAUSE_SET)
  match s.fw.gap with
  | some g => (s.endGap g).logKept.resumeCmds
  | none => s.abortStarted.logKept.resumeCmds

/-! ### Strapped values (R45, R46, R101, R107) -/

/-- The strapped charge voltage per cell in mV, 4.200 V for an invalid code. -/
def State.strapVchg (s : State) : Nat :=
  let c := s.get R.MOD_STRAP.VCHG
  if c = 1 then 4350 else if c = 2 then 4400 else 4200

/-- The current of an ICHG strap code in mA. -/
def ichgStrap (code : Nat) : Nat :=
  [500, 1000, 2000, 4000, 8000, 12000, 20000, 32000].getD code 500

/-- VSYS_MIN from the straps in mV. -/
def State.strapVsysMin (s : State) : Nat := s.strapCells * (3000 + 100 * s.get R.MOD_STRAP.VMIN)

/-- VSYS_NOBAT from the straps in mV: VSYS_MIN with CELL or VCHG invalid. -/
def State.strapNobat (s : State) : Nat :=
  if s.get R.MOD_STRAP.CELL > 4 || s.get R.MOD_STRAP.VCHG > 2 then s.strapVsysMin else s.strapCells * s.strapVchg

/-- The 128 bytes of the stand-alone profile (R107). -/
def State.aloneProfile (s : State) : List Byte :=
  let v := s.strapVchg
  let i := ichgStrap (s.get R.MOD_STRAP.ICHG)
  leBytes 8 0 ++ leBytes 1 s.strapCells ++ leBytes 1 0 ++ leBytes 2 0 ++ leBytes 2 v ++ leBytes 2 v ++ leBytes 2 (v - 100) ++
    leBytes 2 3000 ++ leBytes 2 200 ++ leBytes 2 (max 100 (i / 20)) ++ leBytes 2 100 ++ leBytes 2 10 ++ leBytes 2 60 ++
    leBytes 2 600 ++ leBytes 2 0 ++ leBytes 2 160 ++ leBytes 2 720 ++ leBytes 2 960 ++ leBytes 1 1 ++ leBytes 1 30 ++
    leBytes 2 20 ++ leBytes 2 0 ++ leBytes 2 0 ++ leBytes 2 4600 ++ leBytes 2 (i / 2) ++ leBytes 2 i ++ leBytes 2 (i / 2) ++
    List.replicate 72 0

/-! ### Stand-alone tables (R47, R190) -/

/-- The sink table of R190: fixed supplies of 5 V, 9 V and 15 V at 3.0 A and of 20 V at 5.0 A, Higher Capability in the
first (bit 28, log entry 8). -/
def alonePdos : List Nat := [0x1001912C, 0x0002D12C, 0x0004B12C, 0x000641F4]

/-- A port's stand-alone tables: flags 0, PREF 0, VMAX 20 V, FRS_CUR 0, no source table, sink-only. -/
def State.aloneTables (s : State) (p : Fin 4) : State :=
  let s := [R.PD_PE_CFG.EPR_EN p, R.PD_PE_CFG.PPS_EN p, R.PD_PE_CFG.FRS_EN p, R.PD_PE_CFG.PRS_ACCEPT p,
    R.PD_PE_CFG.VCS_ACCEPT p, R.PD_PE_CFG.HOST_VDM p, R.PD_PE_CFG.HOST_DRS p, R.PD_PE_CFG.PREF p, R.PD_PE_CFG.FRS_CUR p,
    R.PD_TC_CFG.ROLE p].foldl (fun (acc : State) (f : Fld) => acc.set f 0) s
  let s := s.set (R.PD_PE_SNK_CFG.VMAX p) 20000
  let s := (s.putTable (R.PD_SRC_PDO.W p) 0 7 []).putTable (R.PD_SNK_PDO.W p) 0 11 alonePdos
  s.eprCleared p

/-- All six phases in GROUP A (R47): a map change that no command waits for. -/
def State.aloneMap (s : State) : State :=
  let c : Cmd := { handle := 0, src := .image, cid := 0, opcode := 0x61, fence := false, resultLen := 0, resultAddr := 0,
                   params := [1, 1, 1, 1, 1, 1], started := true, noCpl := true, bad := none }
  if s.get R.CNV_PHASE_MAP.MAP = mapOfCmd c || s.stage.mapChange.isSome then s
  else
    let s := if s.inSafe then s
      else { s with stage := { s.stage with mapChange := some { handle := none, target := mapOfCmd c } } }
    let s := s.eachPhase allPhases fun s ph => s.mapPhase c ph
    ((s.writePmax 0).writePmax 1).releaseGroup 1

/-- The charger's stand-alone settings (R47, R128): the profile from the straps with the cycle kept, the last I_PLATE a
ceiling until it ends. -/
def State.aloneCharge (s : State) : State :=
  let ceil := if s.pmEn && s.on R.CHG_STATUS.CYCLE then s.chg.est.iPlate else s.chg.ceil
  let s := { s with chg := { s.chg with ceil := ceil, pending := none, confirmed := false } }
  let s := ((s.writeProfile s.aloneProfile).set R.CHG_PACK_STATUS.PROFILE_OK 0).set R.CHG_LIMIT.ICHG_HOST 16000
  s.setEst 0

/-- VSYS_MIN and VSYS_NOBAT from the straps. -/
def State.aloneVsys (s : State) : State :=
  (s.set R.MOD_VSYS_CFG.VSYS_MIN s.strapVsysMin).set R.MOD_VSYS_CFG.VSYS_NOBAT s.strapNobat

/-- The default limits of the thermal chapter (R350). -/
def State.aloneThermal (s : State) : State :=
  (List.range 8).foldl (fun (acc : State) (n : Nat) =>
    acc.set (R.THM_NTC_CFG.HI n) (getBits (RegMap.resetWord (A.THM_NTC_CFG n)) 16 8))
    ((s.setWord A.THM_CFG (RegMap.resetWord A.THM_CFG)).setWord A.THM_XCHK (RegMap.resetWord A.THM_XCHK))

/-- Button and low-power settings of R47. -/
def State.aloneModes (s : State) : State :=
  let s := s.setWord A.MOD_PWRBTN_CFG (RegMap.resetWord A.MOD_PWRBTN_CFG)
  (s.set R.MOD_LOWPWR_CFG.AUTO_KA 0).set R.MOD_LOWPWR_CFG.VCUT 1400

/-- A sourcing port stops, and presents Rd (R47, R152). -/
def State.alonePort (s : State) (p : Fin 4) : State :=
  if s.sourcing p || (s.path.ports.get p).srcBus.isSome then (s.stopSource p 800).setTerm p .rd
  else if s.on (R.PD_CC_STATUS.ATTACHED p) then s
  else s.setTerm p (s.restTerm p)

/-- Layer 1 takes the stand-alone behaviour of R47. -/
def State.goAlone (s : State) : State :=
  let s := { s with md := { s.md with standAlone := true } }.set R.MOD_MODE_STATUS.CFG_DEFAULT 1
  let s := s.eachPort allPorts fun s p => (s.aloneTables p).alonePort p
  let s := (s.aloneCharge.aloneVsys.aloneThermal.aloneModes.set R.MOD_MATRIX_CFG.COMBINE 0)
  let s := (s.set R.MOD_MATRIX_STATUS.A_AUTO 1).set R.MOD_MATRIX_STATUS.B_AUTO 1
  let s := s.abortSelect
  let s := (s.modBus 0 fun x => { x with hostPort := none }).modBus 1 fun x => { x with hostPort := none }
  s.aloneMap.autoSelect.railDefaults

/-! ### Fallback (R260, R288, R318, R364) -/

/-- Every outstanding ring command completes with ABORTED, code 0x01 when it had started; the EC queue empties, and its
started commands run to their end without completion. -/
def State.abortAll (s : State) : State :=
  let s := s.cmds.foldl (fun (acc : State) (c : Cmd) =>
    if c.src = .ec then acc else acc.finish c.handle { status := 0x31, diagCode := ofBool c.started }) s
  let left := (s.cmds.filter fun (c : Cmd) => c.started).map fun (c : Cmd) => { c with noCpl := true }
  { s with cmds := left, twb := { s.twb with cpls := [] } }

/-- The fallback timer expires (R364); `cur` is the current block of each running capture stream (R288). -/
def State.fallBack (s : State) (cur : List FrameRun) : State :=
  let s := ((s.set R.WDG_FALLBACK.ARMED 0).set R.WDG_FALLBACK.LEFT 0).set R.HIF_STATUS.FW 2
  let s := ((s.bump R.WDG_COUNTS.FALLBACK_CNT).set R.WDG_EVENT.FALLBACK 1).mirrorDue
  let s := s.raiseWdg 0x04 0xFF (s.get R.WDG_CAUSE.CAUSE_SET)
  (s.abortAll.stopRings 0x0B 0xFF cur).goAlone

end Sys2Proof.Machine
end

