-- ==== Sys2Proof/Machine/Jack.lean ====
section
/-! DEFINITION. Jack (14_watchdog_and_continuity.md R356 to R373): questions and answers, check-ins, faults and their
escalation, the disable sequence, the fallback timer, core faults, and SELF_TEST. -/

namespace Sys2Proof.Machine

/-! ### Question and answer (R357, R358) -/

/-- The next question. -/
def lfsrStep (q : Nat) : Nat :=
  (q * 2 + (q / 2 ^ 15 + q / 2 ^ 13 + q / 2 ^ 12 + q / 2 ^ 10) % 2) % 65536

/-- The correct answer to a question. -/
def jackAnswerTo (q seed : Nat) : Nat := (((q * 32 + q / 2048) % 65536 ^^^ seed) + 0x3C5A) % 65536

/-! ### Faults (R361, R362) -/

/-- Causes of R361, as masks of CAUSE_SET. -/
def causeWrong : Nat := 1
def causeMissing : Nat := 2
def causeEarly : Nat := 4
def causeMissTask : Nat := 8
def causeDouble : Nat := 16
def causeLate : Nat := 32
def causeUnknown : Nat := 64

/-- The lowest task of a mask, 0xFF for none. -/
def firstTask (m : Nat) : Nat := ((List.range 8).find? fun (k : Nat) => bitAt m k).getD 0xFF

/-- Records causes. -/
def State.addCauses (s : State) (c : Nat) : State := s.set R.WDG_CAUSE.CAUSE_SET (s.get R.WDG_CAUSE.CAUSE_SET ||| c)

/-- The running or waiting period becomes faulty: the first fault raises its event, a second period in a row escalates. -/
def State.jackFault (s : State) (c task : Nat) : State :=
  let s := s.addCauses c
  if s.on R.WDG_STATUS.FAULTY then s
  else
    let s := s.set R.WDG_STATUS.FAULTY 1
    if s.on R.WDG_STATUS.PREV_FAULTY then s.warmReset 1 else s.raiseWdg 0x01 task (s.get R.WDG_CAUSE.CAUSE_SET)

/-- Jack waits for a return: after a reset, or in a control gap (R363, R365). -/
def State.jackWaits (s : State) : Bool := s.get R.WDG_STATUS.STATE = 3 || s.fw.gap.isSome

/-- Jack times a period. -/
def State.jackRuns (s : State) : Bool := s.get R.WDG_STATUS.STATE = 0 && !s.jk.due

/-- The tasks that must check in: those of the running period, or TASK_EN while waiting. -/
def State.jackTasks (s : State) : Nat := if s.jackWaits then s.get R.WDG_TASK_EN.TASK_EN else s.jk.tasks

/-- Enabled tasks that have not checked in. -/
def State.jackMiss (s : State) : Nat := s.jackTasks &&& (255 - s.get R.WDG_CHECKIN.CHECKIN)

/-- The task that an event names for its causes. -/
def faultTask (c miss : Nat) : Nat := if c &&& causeMissTask != 0 then firstTask miss else 0xFF

/-! ### Answers (R358, R361, R363) -/

/-- The first answer of a wait. A faulty one that does not escalate leaves Jack waiting, after a faulty period; in a control
gap it is recorded, and the unit waits for the deadline (R419). -/
def State.firstAnswer (s : State) (good : Bool) : State :=
  let miss := s.jackMiss
  let s := s.set R.WDG_CAUSE.TASK_MISS miss
  let c := (if good then 0 else causeWrong) ||| (if miss = 0 then 0 else causeMissTask)
  if c = 0 then (s.set R.WDG_STATUS.ANSWERED 1).fwReturn
  else if s.fw.gap.isSome then s.addCauses c
  else
    let reset : Bool := s.on R.WDG_STATUS.PREV_FAULTY
    let s := s.jackFault c (faultTask c miss)
    if reset then s
    else ((s.set R.WDG_STATUS.PREV_FAULTY 1).set R.WDG_STATUS.FAULTY 0).set R.WDG_CHECKIN.CHECKIN 0

/-- An answer within a timed period. -/
def State.periodAnswer (s : State) (good : Bool) (tick : Nat) : State :=
  let miss := s.jackMiss
  let early : Bool := s.on R.WDG_STATUS.ANSWERED || tick < s.jk.opens
  let s := (s.set R.WDG_STATUS.ANSWERED 1).set R.WDG_CAUSE.TASK_MISS miss
  let c := (if good then 0 else causeWrong) ||| (if early then causeEarly else 0) ||| (if miss = 0 then 0 else causeMissTask)
  if c = 0 then s else s.jackFault c (faultTask c miss)

/-- An answer is judged; a correct one locks SEED. -/
def State.jackAnswer (s : State) (a tick : Nat) : State :=
  let good : Bool := a = jackAnswerTo (s.get R.WDG_QUESTION.Q) (s.get R.WDG_SEED.SEED)
  if s.jackWaits || s.jackRuns then
    let s := if good then s.set R.WDG_SEED.SEED_LOCK 1 else s
    if s.jackWaits then s.firstAnswer good else (s.set R.WDG_STATUS.TICK tick).periodAnswer good tick
  else s

/-! ### The disable sequence (R366) -/

/-- A refused key sequence. -/
def State.keyError (s : State) : State :=
  let s := ({ s with jk := { s.jk with key := 0 } }).set R.WDG_EVENT.KEY_ERR 1
  s.raiseWdg 0x08 0xFF (s.get R.WDG_CAUSE.CAUSE_SET)

/-- A WDG write that is no step of the sequence ends one that runs. -/
def State.keyBreak (s : State) : State := if s.jk.key = 0 then s else s.keyError

/-- A key: `late` tells that it comes more than 16 SYS cycles after the first. -/
def State.jackKey (s : State) (k : Nat) (late : Bool) : State :=
  if k = 0x5A17 && s.jk.key = 0 then { s with jk := { s.jk with key := 1 } }
  else if k = 0xC3E8 && s.jk.key = 1 && !late then { s with jk := { s.jk with key := 2 } }
  else s.keyError

/-- Jack is disabled. -/
def State.jackOff (s : State) : State :=
  let s := (s.set R.WDG_STATUS.STATE 1).raiseWdg 0x05 0xFF (s.get R.WDG_CAUSE.CAUSE_SET)
  { s with jk := { s.jk with due := false } }

/-- Jack is enabled again, with a fresh period and the current question; with firmware still to return it waits. -/
def State.jackOn (s : State) : State :=
  let s := if s.get R.HIF_STATUS.FW = 1 then s.freshPeriod.set R.WDG_STATUS.STATE 0 else s.freshPeriod.set R.WDG_STATUS.STATE 3
  s.raiseWdg 0x06 0xFF (s.get R.WDG_CAUSE.CAUSE_SET)

/-- The effect of a write of WDG.CTRL on the word `was`. -/
def State.wdgCtrl (s : State) (was data : Word) (late : Bool) : State :=
  let wasOff : Bool := getBits was 31 1 = 1
  if getBits data 31 1 = 1 then
    if s.jk.key = 2 && !late && getBits was 30 1 = 0 then
      let s := { s with jk := { s.jk with key := 0 } }
      if wasOff then s else s.jackOff
    else (s.setb R.WDG_CTRL.DIS wasOff).keyError
  else
    let s := s.keyBreak
    if wasOff then s.jackOn else s

/-! ### Check-ins (R360, R361) -/

/-- Check-ins of the tasks in a mask. -/
def State.jackCheckin (s : State) (was m : Nat) : State :=
  let en := s.jackTasks
  let after : Bool := s.on R.WDG_STATUS.ANSWERED && !s.jackWaits
  let unknown := m &&& (255 - en)
  let double := m &&& en &&& was
  let late := if after then m &&& en &&& (255 - was) else 0
  let good := m &&& en &&& (255 - was)
  let s := s.set R.WDG_CHECKIN.CHECKIN (if after then was else was ||| good)
  let bad := unknown ||| double ||| late
  let c := (if double = 0 then 0 else causeDouble) ||| (if late = 0 then 0 else causeLate) |||
    (if unknown = 0 then 0 else causeUnknown)
  if c = 0 then s
  else
    let s := s.set R.WDG_CAUSE.TASK_DOUBLE (s.get R.WDG_CAUSE.TASK_DOUBLE ||| bad)
    if s.fw.gap.isSome then s.addCauses c else s.jackFault c (firstTask bad)

/-- The effect of a write of WDG.CHECKIN on the word `was`. -/
def State.checkinWritten (s : State) (was data : Word) : State :=
  let s := s.keyBreak
  let before := getBits was 0 8
  if s.jackWaits || s.jackRuns then s.jackCheckin before (getBits data 0 8) else s.set R.WDG_CHECKIN.CHECKIN before

/-! ### The periods (R356, R357, R361, R363) -/

/-- A period starts with the next question. -/
def State.nextPeriod (s : State) : State :=
  let s := s.freshPeriod.set R.WDG_QUESTION.Q (lfsrStep (s.get R.WDG_QUESTION.Q))
  { s with jk := { s.jk with due := false } }

/-- The closing tick judges the period; the next one starts unless Jack escalates. -/
def State.closePeriod (s : State) : State :=
  let miss := s.jackMiss
  let s := s.set R.WDG_CAUSE.TASK_MISS miss
  let c := (if s.on R.WDG_STATUS.ANSWERED then 0 else causeMissing) ||| (if miss = 0 then 0 else causeMissTask)
  let reset : Bool := c != 0 && !s.on R.WDG_STATUS.FAULTY && s.on R.WDG_STATUS.PREV_FAULTY
  let s := if c = 0 then s else s.jackFault c (faultTask c miss)
  if reset then s else (s.setb R.WDG_STATUS.PREV_FAULTY (s.on R.WDG_STATUS.FAULTY)).nextPeriod

/-- JACK_PERIOD_START (R357): the closing tick, or the first tick after a return. -/
def execJackPeriodStart (s : State) : Res :=
  .next <| s.when (s.get R.WDG_STATUS.STATE = 0) fun s => if s.jk.due then s.nextPeriod else s.closePeriod

/-! ### The rows of the writes -/

/-- JACK_ANSWER (R361): `tick` is the tick of the running period in which the write arrives. -/
def execJackAnswer (ini : Initiator) (data : Word) (full : Bool) (tick : Nat) (s : State) : Res :=
  .next <| s.when (s.reaches ini) fun s =>
    s.rowWrite ini A.WDG_ANSWER data full fun _ s => s.keyBreak.jackAnswer (getBits data 0 16) tick

/-- JACK_CHECKIN (R360). -/
def execJackCheckin (ini : Initiator) (data : Word) (full : Bool) (s : State) : Res :=
  .next <| s.when (s.reaches ini) fun s =>
    s.rowWrite ini A.WDG_CHECKIN data full fun was s => s.checkinWritten was data

/-- JACK_KEY (R366): `late` tells that the step is more than 16 SYS cycles after the key before it. -/
def execJackKey (ini : Initiator) (data : Word) (full late : Bool) (s : State) : Res :=
  .next <| s.when (s.reaches ini) fun s =>
    s.rowWrite ini A.WDG_KEY data full fun _ s => s.jackKey (getBits data 0 16) late

/-- JACK_DISABLE (R366): a write of WDG.CTRL with DIS at 1. -/
def execJackDisable (ini : Initiator) (data : Word) (full late : Bool) (s : State) : Res :=
  .next <| s.when (s.reaches ini && getBits data 31 1 = 1) fun s =>
    s.rowWrite ini A.WDG_CTRL data full fun was s => s.wdgCtrl was data late

/-- JACK_ENABLE (R366): a write of WDG.CTRL with DIS at 0. -/
def execJackEnable (ini : Initiator) (data : Word) (full : Bool) (s : State) : Res :=
  .next <| s.when (s.reaches ini && getBits data 31 1 = 0) fun s =>
    s.rowWrite ini A.WDG_CTRL data full fun was s => s.wdgCtrl was data false

/-- JACK_LOCK (R366): a write of WDG.CTRL with LOCK at 1 and DIS at 0. -/
def execJackLock (ini : Initiator) (data : Word) (full : Bool) (s : State) : Res :=
  .next <| s.when (s.reaches ini && getBits data 30 1 = 1 && getBits data 31 1 = 0) fun s =>
    s.rowWrite ini A.WDG_CTRL data full fun was s => s.wdgCtrl was data false

/-! ### Core faults and the fallback (R362, R364, R419) -/

/-- An activation fails: both cores restart on the old bank (R419). -/
def State.failGap (s : State) (g : Gap) (diag : Nat) : State :=
  let s := (s.resetJack.set R.WDG_STATUS.STATE 2).armFallback
  if g.back then s
  else { s with fw := { s.fw with gap := some { g with back := true, bank := 1 - g.bank, diag := diag } } }

/-- CORE_FAULT_RESET (R362): a lockstep mismatch, or with `ecc` an uncorrectable error in core memory; `app` names the
application core. In a control gap the activation fails (R419). -/
def execCoreFaultReset (ecc app : Bool) (s : State) : Res :=
  .next <| s.when (bitAt (s.get R.GLB_CLK_STATUS.RUN) 3 && s.get R.HIF_STATUS.FW != 3) fun s =>
    match s.fw.gap with
    | some g => s.failGap g (if app then 1 else 2)
    | none => s.warmReset (if ecc then 3 else 2)

/-- FALLBACK_EXPIRY (R364). In the ROM's recovery loop the stand-alone behaviour stands already (R40). -/
def execFallbackExpiry (cur : List FrameRun) (s : State) : Res :=
  .next <| s.when (s.on R.WDG_FALLBACK.ARMED && s.fw.gap.isNone) fun s =>
    if s.get R.HIF_STATUS.FW = 3 then (s.set R.WDG_FALLBACK.ARMED 0).set R.WDG_FALLBACK.LEFT 0 else s.fallBack cur

/-! ### SELF_TEST (R371, R372, R413) -/

/-- The 32-byte result; what belongs to a test that does not run reads 0. -/
def selfTestBytes (mask : Nat) (r : SelfTestOutcome) : List Byte :=
  let v (k x : Nat) : Nat := if bitAt mask k then x else 0
  leBytes 1 mask ++ leBytes 1 (r.failed &&& mask) ++ leBytes 2 (v 0 (satNat 16 r.corr)) ++ leBytes 2 (v 0 (satNat 16 r.uncorr)) ++
    leBytes 1 (v 1 r.channel) ++ leBytes 1 0 ++ leBytes 4 (v 1 r.share) ++ leBytes 4 (v 3 (ofSignedSat 32 r.lpo)) ++
    leBytes 1 (v 2 r.vectors) ++ List.replicate 15 0

/-- Words that an ECC read of the MRAM corrects or finds uncorrectable (R413). -/
def State.mramRead (s : State) (corr uncorr : Nat) : State :=
  let s := s.setSat R.SEC_MRAM_ECC.CORR (s.get R.SEC_MRAM_ECC.CORR + corr)
  let s := s.setSat R.SEC_MRAM_ECC.UNCORR (s.get R.SEC_MRAM_ECC.UNCORR + uncorr)
  if uncorr = 0 then s else s.raiseFault 0x0B 0x6 0xFF 0

/-- SELF_TEST (R371): the tests affect no running function. -/
def opSelfTest (r : SelfTestOutcome) (c : Cmd) (s : State) : CmdRes × State :=
  let mask := c.byte 0
  if mask = 0 then (badField 0, s)
  else if bitAt mask 0 && s.fwBusy then (fail 0x30, s)
  else
    let s := if bitAt mask 0 then s.mramRead r.corr r.uncorr else s
    (.done { status := 0x00, buf := selfTestBytes mask r }, s)

/-- SELF_TEST (R371). -/
def execSelfTest (r : SelfTestOutcome) (s : State) : Res :=
  .next <| s.when true fun s => s.runCmd (isOp 0x83) (opSelfTest r)

end Sys2Proof.Machine
end

