-- ==== Sys2Proof/Machine/Firmware.lean ====
section
/-! DEFINITION. Firmware images, activation, the configuration store and the fault log (17_firmware_security_log.md R413
to R428, R432). -/

namespace Sys2Proof.Machine

/-! ### Banks and what the SEC registers show (R415, R417, R433) -/

/-- A bank of the firmware replaced. -/
def State.setBank (s : State) (n : Nat) (b : Bank) : State :=
  let s := { s with fw := if n = 0 then { s.fw with bank0 := b } else { s.fw with bank1 := b } }
  let v := if b.valid then b.version else 0
  if n = 0 then s.set R.SEC_FW_VER0.VER v else s.set R.SEC_FW_VER1.VER v

/-- The inactive bank. -/
def State.otherBank (s : State) : Nat := 1 - s.fw.record.bank

/-- The check code of an image (R415): its first failing check of 1 to 4, or 5 for an SVN below the rollback counter or above
64; 0 for an image that passes. -/
def State.checkCode (s : State) (img : ImageCheck) : Nat :=
  if img.check != 0 then img.check else if s.fw.fuses ≤ img.svn && img.svn ≤ 64 then 0 else 5

/-- The bank that a check describes. -/
def State.bankOf (s : State) (img : ImageCheck) : Bank :=
  if s.checkCode img = 0 then { valid := true, svn := img.svn, version := img.version } else {}

/-- The SEC registers that show OTP and the boot record. -/
def State.showFw (s : State) : State :=
  let s := (s.set R.SEC_RB.CNT s.fw.fuses).setb R.SEC_FW_STATUS.DBG_FUSE s.fw.dbgFuse
  let s := (s.setb R.SEC_FW_STATUS.TRIAL s.fw.record.trial).set R.SEC_FW_STATUS.ACTIVE s.fw.record.bank
  s.set R.SEC_FW_STATUS.CFG_SLOT s.fw.record.slot

/-- The advance of the rollback counter to the SVN of the running image (R417). -/
def State.advance (s : State) (fuseOk : Bool) : State :=
  let svn := (s.bank s.fw.record.bank).svn
  if svn ≤ s.fw.fuses then { s with fw := { s.fw with fuseRetry := false } }
  else if fuseOk then ({ s with fw := { s.fw with fuses := svn, fuseRetry := false } }).set R.SEC_RB.CNT svn
  else ({ s with fw := { s.fw with fuseRetry := true } }).raiseFault 0x0B 0x7 0xFF 0

/-! ### The fault log (R424 to R428) -/

/-- The 64 bytes of a committed entry (R424). -/
def LogEntry.bytes (e : LogEntry) : List Byte :=
  let body := leBytes 1 e.typ ++ leBytes 1 e.kind ++ leBytes 4 e.lseq ++ leBytes 8 e.ts ++ leBytes 4 e.boot ++ sliceBytes e.data 0 40
  leBytes 2 0xC0DE ++ body ++ leBytes 4 (crc32 body)

/-- The next slot and LSEQ are used up. -/
def State.useSlot (s : State) : State :=
  (s.set R.LOG_STATUS.NEXT (s.get R.LOG_STATUS.NEXT + 1)).set R.LOG_NEXT_SEQ.LSEQ (s.get R.LOG_NEXT_SEQ.LSEQ + 1)

/-- Writes an entry in the three steps of R425, up to its commit marker. -/
def State.writeLog (s : State) (e : Event) : State :=
  let slot := s.get R.LOG_STATUS.NEXT
  let x : LogEntry :=
    { slot := slot, typ := e.typ, kind := if e.typ ≥ 0x80 then 0 else byteAt e.payload 1, lseq := s.get R.LOG_NEXT_SEQ.LSEQ,
      ts := e.ts, boot := s.get R.LOG_RETAIN.BOOT, data := sliceBytes e.payload 0 40 }
  ({ s with fw := { s.fw with log := (s.fw.log.filter fun (y : LogEntry) => y.slot != slot) ++ [x] } }).useSlot

/-- LOG_ENTRY_WRITE (R425). -/
def execLogEntryWrite (s : State) : Res :=
  .next <| s.when s.fwRuns fun s =>
    match s.fw.logQ with
    | [] => s
    | e :: q => ({ s with fw := { s.fw with logQ := q } }).writeLog e

/-- An entry is abandoned: its slot stays invalid, and its LSEQ is consumed. -/
def State.abandonLog (s : State) (q : List Event) : State :=
  let slot := s.get R.LOG_STATUS.NEXT
  let s := { s with fw := { s.fw with logQ := q, log := s.fw.log.filter fun (y : LogEntry) => y.slot != slot } }
  (s.useSlot.bump R.LOG_RETAIN.ABANDON_CNT).mirrorDue

/-- LOG_WRITE_ABANDON (R425). -/
def execLogWriteAbandon (vsys : Nat) (s : State) : Res :=
  .next <| s.when (s.fwRuns && vsys < 2900) fun s =>
    match s.fw.logQ with
    | [] => s
    | _ :: q => s.abandonLog q

/-- Invalid slots among the valid entries (R426), `e` being the newest and `o` the oldest. -/
def invalidSlots (o e : LogEntry) (n : Nat) : Nat := (e.slot + 4096 - o.slot) % 4096 + 1 - n

/-- The scan at boot (R426), and the boot entry. -/
def State.bootScan (s : State) : State :=
  let s := match s.fw.log.head?, s.fw.log.getLast? with
    | some o, some e =>
      let n := invalidSlots o e s.fw.log.length
      let s := ((s.set R.LOG_STATUS.NEXT (e.slot + 1)).set R.LOG_NEXT_SEQ.LSEQ (e.lseq + 1)).set R.LOG_RETAIN.BOOT (e.boot + 1)
      let s := s.setSat R.LOG_STATUS.INVALID n
      if n = 0 then s else s.raiseFault 0x0B 0x5 0xFF 0
    | _, _ => s.set R.LOG_RETAIN.BOOT 1
  s.queueLog 0x82 (leBytes 4 (s.view A.MOD_MODE_STATUS).toNat)

/-- LOG_READ (R428): the valid entries from START, in ascending order, up to COUNT. -/
def opLogRead (c : Cmd) (s : State) : CmdRes × State :=
  let start := c.num 0 4
  let count := c.num 4 2
  let es := s.fw.log.filter fun (e : LogEntry) => start = 0xFFFFFFFF || start ≤ e.lseq
  let buf := (es.take (clampTo 1 4096 count).1).flatMap LogEntry.bytes
  (.done { clampReply (clamps [(4, count, 1, 4096)]) 0 with buf := buf }, s)

/-- LOG_READ (R428). -/
def execLogRead (s : State) : Res := .next <| s.when true fun s => s.runCmd (isOp 0x80) opLogRead

/-- LOG_CLEAR (R428): every entry invalid, and an entry of type 0x81 before the queued ones (R432). -/
def opLogClear (c : Cmd) (s : State) : CmdRes × State :=
  if c.num 0 2 != 0x4C43 then (badField 0, s)
  else
    let s := { s with fw := { s.fw with log := [] } }
    let s := s.writeLog { typ := 0x81, seq := 0, ts := s.tsNow, payload := [] }
    (ok, s.raiseFw 0x07 s.fw.record.bank (s.bank s.fw.record.bank).svn)

/-- LOG_CLEAR (R428). -/
def execLogClear (s : State) : Res := .next <| s.when true fun s => s.runCmd (isOp 0x81) opLogClear

/-! ### Staging (R418) -/

/-- The inactive bank is invalid, and nothing is staged. -/
def State.dropStaging (s : State) : State :=
  let s := { s with fw := { s.fw with staged := none } }
  (s.setBank s.otherBank {}).set R.SEC_FW_STATUS.STAGED 0

/-- An activation runs or waits. -/
def State.activating (s : State) : Bool := s.fw.gap.isSome || s.fw.actWait.isSome

/-- The image is verified after its last chunk. -/
def State.verifyStaged (s : State) (img : ImageCheck) (cs : List (Nat × Nat)) : CmdRes × State :=
  let code := s.checkCode img
  if code != 0 then (.done { status := 0x50, diagCode := code }, s.dropStaging)
  else
    let s := (s.setBank s.otherBank (s.bankOf img)).set R.SEC_FW_STATUS.STAGED 1
    (.done (clampReply cs img.version), s.raiseFw 0x01 s.otherBank img.svn)

/-- FW_STAGE (R418): whether the host read and the MRAM write succeed, and what the image's checks find on LAST. -/
def opFwStage (readOk storeOk : Bool) (img : ImageCheck) (c : Cmd) (s : State) : CmdRes × State :=
  let first : Bool := bitAt (c.byte 0) 0
  let ofs := c.num 4 4
  let len := (clampTo 4 65536 (c.num 8 4)).1
  let cs := clamps [(8, c.num 8 4, 4, 65536)]
  if len % 4 != 0 then (badField 8, s)
  else if c.num 12 8 % 4 != 0 then (badField 12, s)
  else if s.activating || s.fw.record.trial then (fail 0x22, s)
  else
    let s := if first then { s.dropStaging with fw := { s.dropStaging.fw with staged := some 0 } } else s
    if s.fw.staged != some ofs then (badField 4, s.dropStaging)
    else if ofs + len > 786432 then (.done { status := 0x12, diagOfs := 24 }, s.dropStaging)
    else
      let s := s.emit (.hostRead (c.num 12 8) len)
      if !readOk then (fail 0x50, s.dropStaging)
      else if !storeOk then (fail 0x51, s.dropStaging)
      else
        let s := { s with fw := { s.fw with staged := some (ofs + len) } }
        if bitAt (c.byte 0) 1 then s.verifyStaged img cs else (.done (clampReply cs 0), s)

/-- FW_STAGE (R418). -/
def execFwStage (readOk storeOk : Bool) (img : ImageCheck) (s : State) : Res :=
  .next <| s.when true fun s => s.runCmd (isOp 0x70) (opFwStage readOk storeOk img)

/-! ### Activation (R419, R420) -/

/-- FW_ACTIVATE (R419): it waits for the other outstanding commands. -/
def opFwActivate (c : Cmd) (s : State) : CmdRes × State :=
  if !s.on R.SEC_FW_STATUS.STAGED then (fail 0x22, s)
  else if s.activating then (fail 0x30, s)
  else (.wait, { s with fw := { s.fw with actWait := some c.handle } })

/-- FW_ACTIVATE (R419). -/
def execFwActivate (s : State) : Res := .next <| s.when true fun s => (s.runCmd (isOp 0x71) opFwActivate).tryGap

/-- FW_ABORT (R420): drops a staging, for which an FW_ACTIVATE may wait, or returns to the old bank from a probation. -/
def opFwAbort (c : Cmd) (s : State) : CmdRes × State :=
  if s.fw.record.trial then
    if s.activating then (fail 0x30, s) else (.wait, { s with fw := { s.fw with actWait := some c.handle } })
  else if s.fw.staged.isSome || s.on R.SEC_FW_STATUS.STAGED then
    let h := s.fw.actWait
    (ok, ({ s.dropStaging with fw := { s.dropStaging.fw with actWait := none } }).completeOpt h { status := 0x22 })
  else (fail 0x22, s)

/-- FW_ABORT (R420). -/
def execFwAbort (s : State) : Res := .next <| s.when true fun s => (s.runCmd (isOp 0x72) opFwAbort).tryGap

/-- FW_ACTIVATE_WAIT_TIMEOUT (R419). -/
def execFwActivateWaitTimeout (s : State) : Res :=
  .next <| s.when s.fw.gap.isNone fun s =>
    match s.fw.actWait with
    | none => s
    | some h => ({ s with fw := { s.fw with actWait := none } }).complete h { status := 0x30 }

/-- ACTIVATION_TIMEOUT (R419): the application core is not ready by 15 ms, or the supervisor pair has given no correct
answer by 50 ms. -/
def execActivationTimeout (supervisor : Bool) (s : State) : Res :=
  .next <| s.when true fun s =>
    match s.fw.gap with
    | none => s
    | some g => if g.back then s else s.failGap g (if supervisor then 2 else 1)

/-- PROBATION_END (R417, R419): `fuseOk` tells whether the fuses blow. -/
def execProbationEnd (fuseOk : Bool) (s : State) : Res :=
  .next <| s.when (s.fw.record.trial && s.fw.gap.isNone) fun s =>
    let b := s.fw.record.bank
    ((s.setRecord b false).advance fuseOk).raiseFw 0x05 b (s.bank b).svn

/-! ### Configuration images (R422, R423) -/

/-- The records of an image: exactly `n` of them fill the bytes. -/
def parseRecords : Nat → List Byte → Option (List CfgRecord)
  | 0, bs => if bs.isEmpty then some [] else none
  | n + 1, bs =>
    let dlen := leAt bs 2 2
    if bs.length < 4 + dlen then none
    else (parseRecords n (bs.drop (4 + dlen))).map fun (rs : List CfgRecord) =>
      ({ typ := leAt bs 0 2, data := sliceBytes bs 4 dlen } : CfgRecord) :: rs

/-- A valid image's records: MAGIC and CRC are correct, and the records end exactly at LENGTH. -/
def parseImage (bs : List Byte) : Option (List CfgRecord) :=
  let len := leAt bs 4 4
  let img := bs.take len
  if leAt bs 0 4 != 0x5A434647 || len < 32 || 98304 < len || bs.length < len then none
  else if crc32 (img.take 28 ++ List.replicate 4 0 ++ img.drop 32) != leAt bs 28 4 then none
  else parseRecords (leAt bs 12 4) (img.drop 32)

/-- A configuration slot. -/
def State.cfgSlot (s : State) (n : Nat) : CfgSlot := if n = 0 then s.fw.slot0 else s.fw.slot1

/-- Writes a configuration slot. -/
def State.setCfgSlot (s : State) (n : Nat) (x : CfgSlot) : State :=
  { s with fw := if n = 0 then { s.fw with slot0 := x } else { s.fw with slot1 := x } }

/-- The other slot becomes active in the boot record, and the commit is reported. -/
def State.swapSlot (s : State) : State :=
  let r := s.fw.record
  let s := { s with fw := { s.fw with record := { r with slot := 1 - r.slot, seq := r.seq + 1 } } }
  (s.set R.SEC_FW_STATUS.CFG_SLOT (1 - r.slot)).raiseFw 0x06 r.bank (s.bank r.bank).svn

/-- CONFIG_COMMIT with SOURCE 0x01 (R423): whether the host read and the MRAM write succeed, and the bytes read. -/
def opCommitImage (readOk storeOk : Bool) (image : List Byte) (c : Cmd) (s : State) : CmdRes × State :=
  if c.src = .ec then (badField 0, s)
  else if s.activating then (fail 0x30, s)
  else
    let s := s.emit (.hostRead (c.num 4 8) (c.num 12 4))
    if !readOk then (fail 0x50, s)
    else
      match parseImage (image.take (c.num 12 4)) with
      | none => (fail 0x50, s)
      | some rs =>
        if storeOk then (ok, (s.setCfgSlot (1 - s.fw.record.slot) { valid := true, records := rs }).swapSlot)
        else (fail 0x51, s.setCfgSlot (1 - s.fw.record.slot) {})

/-- CONFIG_COMMIT with SOURCE 0x01 (R423). -/
def execConfigCommitImage (readOk storeOk : Bool) (image : List Byte) (s : State) : Res :=
  .next <| s.when true fun s => s.runCmd (fun c => c.opcode = 0x73 && c.byte 0 = 1) (opCommitImage readOk storeOk image)

/-- CONFIG_COMMIT with SOURCE 0x00 (R423). -/
def opCommitSwap (storeOk : Bool) (c : Cmd) (s : State) : CmdRes × State :=
  if c.num 4 8 != 0 then (badField 4, s)
  else if c.num 12 4 != 0 then (badField 12, s)
  else if s.activating then (fail 0x30, s)
  else if !(s.cfgSlot (1 - s.fw.record.slot)).valid then (fail 0x22, s)
  else if storeOk then (ok, s.swapSlot)
  else (fail 0x51, s)

/-- CONFIG_COMMIT with SOURCE 0x00 (R423). -/
def execConfigCommitSwap (storeOk : Bool) (s : State) : Res :=
  .next <| s.when true fun s => s.runCmd (fun c => c.opcode = 0x73 && c.byte 0 != 1) (opCommitSwap storeOk)

/-! ### Boot (R39, R40, R416, R419) -/

/-- A probation that an AON power-on reset ended: the boot record names the old bank again (R419). -/
def State.endTrial (s : State) : State := if s.fw.record.trial then s.oldBank (1 - s.fw.record.bank) else s

/-- The cores start on the active bank. -/
def State.startBank (s : State) (fuseOk : Bool) : State :=
  let b := s.fw.record.bank
  let s := (s.set R.SEC_FW_STATUS.ACTIVE b).set R.SEC_FW_STATUS.RUN_SVN (s.bank b).svn
  let s := if s.fw.fuseRetry then s.advance fuseOk else s
  ({ s with md := { s.md with boot := .running } }).bootScan

/-- Both banks fail: the boot ROM's recovery loop, with the stand-alone behaviour from hardware (R40). -/
def State.enterRecovery (s : State) : State :=
  let s := { s with fw := { s.fw with recovery := true }, md := { s.md with boot := .configured } }
  (s.set R.HIF_STATUS.FW 3).goAlone

/-- BOOT_ROM_VERIFY (R416): what the ROM finds in each bank, and whether a fuse of a retried advance blows (R417). -/
def execBootRomVerify (img0 img1 : ImageCheck) (fuseOk : Bool) (s : State) : Res :=
  .next <| s.when (s.md.boot = .clocked) fun s =>
    let s := ((s.setBank 0 (s.bankOf img0)).setBank 1 (s.bankOf img1)).endTrial
    if (s.bank s.fw.record.bank).valid then s.startBank fuseOk
    else if (s.bank s.otherBank).valid then
      ((s.setRecord s.otherBank false).raiseFault 0x0B 0x1 0xFF 0).startBank fuseOk
    else s.enterRecovery

end Sys2Proof.Machine
end

