-- ==== Sys2Proof/Machine/Timers.lean ====
section
/-! DEFINITION. AON compare channels, fast timers and GPIO (16_timers_mailboxes_locks.md R391 to R400,
19_balls_and_electrical.md R458, R459). The count of a running fast timer comes with the command that needs it. -/

namespace Sys2Proof.Machine

/-! ### AON compare channels (R392) -/

/-- The compare value that the registers of a channel hold. -/
def State.cmpRegs (s : State) (n : Nat) : Nat := s.get (R.TMR_CMP_LO.CMP_LO n) + 2 ^ 32 * s.get (R.TMR_CMP_HI.CMP_HI n)

/-- The channel's value is reached or passed. -/
def State.cmpReached (s : State) (n : Fin 8) : Bool := s.tmr.cmp.get n ≤ s.ts / 1024

/-- A channel's value after a reload: as many additions of PERIOD as pass the present tick, and how many beyond the first. -/
def cmpReload (c period now : Nat) : Nat × Nat :=
  let extra := if c + period ≤ now then (now - (c + period)) / period + 1 else 0
  ((c + period * (1 + extra)) % 2 ^ 54, extra)

/-- The channel's value and the registers that show it; a CMP_LO that is held stays. -/
def State.setCmp (s : State) (n : Fin 8) (c : Nat) : State :=
  let old := s.tmr.cmp.get n
  let s := if s.get (R.TMR_CMP_LO.CMP_LO n) = old % 2 ^ 32 then s.set (R.TMR_CMP_LO.CMP_LO n) (c % 2 ^ 32) else s
  let s := s.set (R.TMR_CMP_HI.CMP_HI n) (c / 2 ^ 32)
  { s with tmr := { s.tmr with cmp := s.tmr.cmp.set n c } }

/-- A channel fires; `frame` is the ADC frame that a capture marks. -/
def State.cmpFire (s : State) (n : Fin 8) (frame : Nat) : State :=
  let s := s.set (R.TMR_CMP_CFG.FIRED n) 1
  let p := s.get (R.TMR_CMP_CFG.PERIOD n)
  let s := if p = 0 then s.set (R.TMR_CMP_CFG.EN n) 0
    else
      let r := cmpReload (s.tmr.cmp.get n) p (s.ts / 1024)
      (s.setCmp n r.1).setSat (R.TMR_CMP_HI.MISS n) (s.get (R.TMR_CMP_HI.MISS n) + r.2)
  let s := if s.on (R.TMR_CMP_CFG.WAKE n) && s.inKa then s.wakeUp true false else s
  s.trigAll 4 n frame

/-- An enabled channel whose value is reached fires. -/
def State.cmpCheck (s : State) (n : Fin 8) (frame : Nat) : State :=
  if s.on (R.TMR_CMP_CFG.EN n) && s.cmpReached n then s.cmpFire n frame else s

/-- AON_CMP_FIRE (R392). -/
def execAonCmpFire (n : Fin 8) (frame : Nat) (s : State) : Res := .next <| s.when true fun s => s.cmpCheck n frame

/-! ### The count (R393, R394) -/

/-- The timer is frozen by a halt of the application core (R399). -/
def State.ftFrozen (s : State) (n : Nat) : Bool := s.tmr.halted && s.on (R.TMR_FT_CFG.DBG_FREEZE n)

/-- The timer steps. -/
def State.ftRuns (s : State) (n : Nat) : Bool := s.on (R.TMR_FT_CFG.EN n) && !s.ftFrozen n

/-- Takes the count and the direction at which a running timer stands. -/
def State.ftSync (s : State) (n count : Nat) (up : Bool) : State :=
  if s.ftRuns n then (s.set (R.TMR_FT_CNT.CNT n) count).setb (R.TMR_FT_STATUS.DIR n) (!up) else s

/-- The direction in which a timer starts (R394). -/
def State.ftStart (s : State) (n : Nat) : State :=
  let m := s.get (R.TMR_FT_CFG.MODE n)
  s.setb (R.TMR_FT_STATUS.DIR n) (m = 1 || (m = 2 && s.get (R.TMR_FT_CNT.CNT n) = s.get (R.TMR_FT_TOP.TOP n)))

/-- A capture of the count (R397). -/
def State.ftCapture (s : State) (n : Nat) : State :=
  let s := if s.on (R.TMR_FT_STATUS.NEW n) then s.set (R.TMR_FT_STATUS.OVR n) 1 else s
  (s.set (R.TMR_FT_CAPT.CAPT n) (s.get (R.TMR_FT_CNT.CNT n))).set (R.TMR_FT_STATUS.NEW n) 1

/-- The effect of a write of FT_CFG on the word `was`: a start, a stop that holds the count, a new mode of a running timer,
and CAP_NOW. `count` and `up` are where a running timer stands. -/
def State.ftCfg (s : State) (n : Nat) (was data : Word) (count : Nat) (up : Bool) : State :=
  let wasOn : Bool := getBits was 31 1 = 1
  let m := s.get (R.TMR_FT_CFG.MODE n)
  let held : Bool := s.tmr.halted && getBits was 28 1 = 1
  let s := if wasOn && !held then (s.set (R.TMR_FT_CNT.CNT n) count).setb (R.TMR_FT_STATUS.DIR n) (!up) else s
  let s := if !wasOn && s.on (R.TMR_FT_CFG.EN n) then s.ftStart n
    else if getBits was 29 2 != m && m != 2 then s.setb (R.TMR_FT_STATUS.DIR n) (m = 1)
    else s
  if getBits data 14 1 = 1 then s.ftCapture n else s

/-! ### Compares (R395, R396) -/

/-- The fields of compare `k`. -/
def cmpVal (n : Nat) (k : Fin 2) : Fld := if k = 0 then R.TMR_FT_CMP0.CMP0 n else R.TMR_FT_CMP1.CMP1 n
def cmpDir (n : Nat) (k : Fin 2) : Fld := if k = 0 then R.TMR_FT_CFG.CMP0_DIR n else R.TMR_FT_CFG.CMP1_DIR n
def cmpAct (n : Nat) (k : Fin 2) : Fld := if k = 0 then R.TMR_FT_CFG.CMP0_ACT n else R.TMR_FT_CFG.CMP1_ACT n
def cmpFlag (n : Nat) (k : Fin 2) : Fld := if k = 0 then R.TMR_FT_STATUS.CMP0 n else R.TMR_FT_STATUS.CMP1 n

/-- A direction is allowed for a compare: always outside up-down mode. -/
def State.dirAllowed (s : State) (n : Nat) (k : Fin 2) (up : Bool) : Bool :=
  let d := s.get (cmpDir n k)
  s.get (R.TMR_FT_CFG.MODE n) != 2 || d = 0 || (if up then d = 1 else d = 2)

/-- A compare matches. -/
def State.ftMatch (s : State) (n : Nat) (k : Fin 2) (frame : Nat) : State :=
  let s := s.set (cmpFlag n k) 1
  let a := s.get (cmpAct n k)
  let s := if a = 0 then s else s.setb (R.TMR_FT_CFG.OUT n) (if a = 3 then !s.on (R.TMR_FT_CFG.OUT n) else a = 1)
  let s := if k = 1 && s.on (R.TMR_FT_CFG.CMP1_STOP n) then s.set (R.TMR_FT_CFG.EN n) 0 else s
  s.trigAll 5 (2 * n + k) frame

/-- A compare value written to an enabled timer fires at once (R396). -/
def State.firesNow (s : State) (n : Nat) (k : Fin 2) : Bool :=
  let v := s.get (cmpVal n k)
  let c := s.get (R.TMR_FT_CNT.CNT n)
  let up : Bool := !s.on (R.TMR_FT_STATUS.DIR n)
  s.on (R.TMR_FT_CFG.EN n) && s.dirAllowed n k up && v ≤ s.get (R.TMR_FT_TOP.TOP n) && (if up then v ≤ c else c ≤ v)

/-- The effect of a write of CMPk. -/
def State.cmpWritten (s : State) (n : Nat) (k : Fin 2) (count : Nat) (up : Bool) (frame : Nat) : State :=
  let s := s.ftSync n count up
  if s.firesNow n k then s.ftMatch n k frame else s

/-! ### The rows of the fast timers -/

/-- FT_ENABLE (R394): a write that sets EN. -/
def execFtEnable (ini : Initiator) (n : Fin 16) (data : Word) (full : Bool) (s : State) : Res :=
  .next <| s.when (s.reaches ini && getBits data 31 1 = 1 && !s.on (R.TMR_FT_CFG.EN n)) fun s =>
    s.rowWrite ini (A.TMR_FT_CFG n) data full fun was s => s.ftCfg n was data 0 true

/-- FT_DISABLE (R394): a write that clears EN. -/
def execFtDisable (ini : Initiator) (n : Fin 16) (data : Word) (full : Bool) (count : Nat) (up : Bool) (s : State) : Res :=
  .next <| s.when (s.reaches ini && getBits data 31 1 = 0 && s.on (R.TMR_FT_CFG.EN n)) fun s =>
    s.rowWrite ini (A.TMR_FT_CFG n) data full fun was s => s.ftCfg n was data count up

/-- FT_CAPTURE_NOW (R397): a write of 1 to CAP_NOW that leaves EN as it is. -/
def execFtCaptureNow (ini : Initiator) (n : Fin 16) (data : Word) (full : Bool) (count : Nat) (up : Bool) (s : State) : Res :=
  .next <| s.when (s.reaches ini && getBits data 14 1 = 1 && getBits data 31 1 = s.get (R.TMR_FT_CFG.EN n)) fun s =>
    s.rowWrite ini (A.TMR_FT_CFG n) data full fun was s => s.ftCfg n was data count up

/-- The effect of a write of CNT: in up-down mode the ends set the direction (R394). -/
def State.cntWritten (s : State) (n : Nat) (up : Bool) : State :=
  let v := s.get (R.TMR_FT_CNT.CNT n)
  let s := s.ftSync n v up
  if s.get (R.TMR_FT_CFG.MODE n) != 2 then s
  else if v = 0 then s.set (R.TMR_FT_STATUS.DIR n) 0
  else if v = s.get (R.TMR_FT_TOP.TOP n) then s.set (R.TMR_FT_STATUS.DIR n) 1
  else s

/-- FT_CNT_WRITE (R394). -/
def execFtCntWrite (ini : Initiator) (n : Fin 16) (data : Word) (full : Bool) (up : Bool) (s : State) : Res :=
  .next <| s.when (s.reaches ini) fun s => s.rowWrite ini (A.TMR_FT_CNT n) data full fun _ s => s.cntWritten n up

/-- FT_TOP_WRITE (R394): a running timer goes on from its count, which may stand above the new TOP. -/
def execFtTopWrite (ini : Initiator) (n : Fin 16) (data : Word) (full : Bool) (count : Nat) (up : Bool) (s : State) : Res :=
  .next <| s.when (s.reaches ini) fun s => s.rowWrite ini (A.TMR_FT_TOP n) data full fun _ s => s.ftSync n count up

/-- FT_CMP_WRITE (R396). -/
def execFtCmpWrite (ini : Initiator) (n : Fin 16) (k : Fin 2) (data : Word) (full : Bool) (count : Nat) (up : Bool)
    (frame : Nat) (s : State) : Res :=
  .next <| s.when (s.reaches ini) fun s =>
    s.rowWrite ini (cmpVal n k).addr data full fun _ s => s.cmpWritten n k count up frame

/-- FT_COMPARE_MATCH (R395): a step in direction `up` reaches CMPk. -/
def execFtCompareMatch (n : Fin 16) (k : Fin 2) (up : Bool) (frame : Nat) (s : State) : Res :=
  let m := s.get (R.TMR_FT_CFG.MODE n)
  let v := s.get (cmpVal n k)
  let top := s.get (R.TMR_FT_TOP.TOP n)
  .next <| s.when (s.ftRuns n && v ≤ top && s.dirAllowed n k up && (m = 2 || up = (m = 0))) fun s =>
    let down : Bool := m = 1 || (m = 2 && (v = top || (!up && v != 0)))
    ((s.set (R.TMR_FT_CNT.CNT n) v).setb (R.TMR_FT_STATUS.DIR n) down).ftMatch n k frame

/-- FT_WRAP (R393, R394): the step that ends a period. In up-down mode a count above a new TOP steps to it. -/
def execFtWrap (n : Fin 16) (s : State) : Res :=
  let m := s.get (R.TMR_FT_CFG.MODE n)
  let top := s.get (R.TMR_FT_TOP.TOP n)
  .next <| s.when (s.ftRuns n) fun s =>
    let high : Bool := m = 1 || (m = 2 && top < s.get (R.TMR_FT_CNT.CNT n))
    ((s.set (R.TMR_FT_CNT.CNT n) (if high then top else 0)).setb (R.TMR_FT_STATUS.DIR n) high).set (R.TMR_FT_STATUS.WRAP n) 1

/-- FT_CAPTURE_EDGE (R397): an edge of the GPIO that CAP_GPIO names. -/
def execFtCaptureEdge (n : Fin 16) (rise : Bool) (count : Nat) (up : Bool) (s : State) : Res :=
  let e := s.get (R.TMR_FT_CFG.CAP_EDGE n)
  .next <| s.when (e = 3 || (if rise then e = 1 else e = 2)) fun s => (s.ftSync n count up).ftCapture n

/-! ### The debugger (R399) -/

/-- DEBUG_HALT (R399): the counts and directions at which the timers stand. -/
def execDebugHalt (counts : List (Nat × Bool)) (s : State) : Res :=
  .next <| s.when (s.on R.SEC_DBG_CTRL.DBG_EN && !s.tmr.halted) fun s =>
    let s := (List.range 16).foldl (fun (acc : State) (n : Nat) =>
      let c := counts.getD n (0, true)
      if acc.on (R.TMR_FT_CFG.DBG_FREEZE n) then acc.ftSync n c.1 c.2 else acc) s
    { s with tmr := { s.tmr with halted := true } }

/-- DEBUG_RESUME (R399). -/
def execDebugResume (s : State) : Res :=
  .next <| s.when s.tmr.halted fun s => { s with tmr := { s.tmr with halted := false } }

/-! ### GPIO (R458, R459) -/

/-- The level that a ball drives, where it drives one. -/
def State.gpioDrives (s : State) (n : Nat) : Option Bool :=
  let f := s.get (R.PIN_GPIO_CFG.FUNC n)
  if f = 0 then (if s.on (R.PIN_GPIO_CFG.OE n) then some (s.bit R.PIN_GPIO_OUT.OUT n) else none)
  else if f = 2 then some (s.on (R.TMR_FT_CFG.OUT (s.get (R.PIN_GPIO_CFG.FT_SEL n))))
  else if f = 3 then some (s.on R.MOD_MATRIX_STATUS.A_CONN || s.on R.MOD_MATRIX_STATUS.B_CONN)
  else none

/-- GPIO_EDGE (R458): level, event bit, capture trigger and wake. Captures of the fast timers are FT_CAPTURE_EDGE. -/
def execGpioEdge (n : Fin 8) (rise : Bool) (frame : Nat) (s : State) : Res :=
  .next <| s.when true fun s =>
    let f := s.get (R.PIN_GPIO_CFG.FUNC n)
    let s := s.setBit R.PIN_GPIO_IN.IN n rise
    let s := if rise then s.setBit R.PIN_GPIO_EVENT.RISE n true else s.setBit R.PIN_GPIO_EVENT.FALL n true
    let s := if f = 4 && s.inKa && rise != s.on (R.PIN_GPIO_CFG.WAKE_EDGE n) then s.wakeUp true false else s
    if f = 1 then s.trigAll 6 (if rise then n.val else n.val + 8) frame else s

/-- GPIO_CFG_WRITE (R459): the write applies in its cycle. -/
def execGpioCfgWrite (ini : Initiator) (n : Fin 8) (data : Word) (full : Bool) (s : State) : Res :=
  .next <| s.when (s.reaches ini) fun s => s.rowWrite ini (A.PIN_GPIO_CFG n) data full fun _ s => s

end Sys2Proof.Machine
end

