-- ==== Sys2Proof/Machine/Mailbox.lean ====
section
/-! DEFINITION. The mailboxes and locks (16_timers_mailboxes_locks.md R401 to R408) and the services of the host mailbox
(17_firmware_security_log.md R429, R430). -/

namespace Sys2Proof.Machine

/-! ### The host queues (R401) -/

/-- Writes the host-to-unit queue, and USED. -/
def State.setH2u (s : State) (ws : List Word) : State :=
  { s.set R.MBX_H2U_STATUS.USED ws.length with mbx := { s.mbx with h2u := ws } }

/-- Writes the unit-to-host queue, and USED. -/
def State.setU2h (s : State) (ws : List Word) : State :=
  { s.set R.MBX_U2H_STATUS.USED ws.length with mbx := { s.mbx with u2h := ws } }

/-- A host's word for the unit: queued, or dropped with the queue full. -/
def State.pushH2u (s : State) (w : Word) : State :=
  if s.mbx.h2u.length < 16 then s.setH2u (s.mbx.h2u ++ [w]) else s.set R.MBX_H2U_STATUS.H2U_OVF 1

/-- H2U_PUSH (R401): only initiator 2 writes H2U_DATA. -/
def execH2uPush (ini : Initiator) (data : Word) (full : Bool) (s : State) : Res :=
  .next <| s.when (s.reaches ini) fun s =>
    s.rowWrite ini A.MBX_H2U_DATA data full fun _ s => if ini = .host then s.pushH2u data else s

/-! ### Messages and replies (R402, R403) -/

/-- A message as its header gives it: service, length, tag, payload. -/
structure MbxMsg where
  svc : Nat
  len : Nat
  tag : Nat
  pay : List Word
  deriving DecidableEq, Repr

/-- The oldest message: complete, or with a length that exceeds 15. -/
def State.message (s : State) : Option MbxMsg :=
  match s.mbx.h2u with
  | [] => none
  | h :: ws =>
    let len := getBits h 16 8
    if len ≤ 15 && ws.length < len then none
    else some { svc := getBits h 24 8, len := len, tag := getBits h 0 16, pay := ws.take len }

/-- The services offered now: in the ROM's recovery loop only three (R429). -/
def State.offered (s : State) (svc : Nat) : Bool :=
  if s.fw.recovery then svc = 0x10 || svc = 0x30 || svc = 0x31
  else [0x01, 0x10, 0x11, 0x12, 0x13, 0x30, 0x31].contains svc

/-- A message may be taken: something serves, no acknowledge stands, and none is in service. -/
def State.mayTake (s : State) : Bool :=
  (s.fwRuns || s.fw.recovery) && !s.on R.MBX_H2U_ACK.VALID && s.mbx.reply.isNone

/-- Writes the acknowledge; the vector fires. -/
def State.ackH2u (s : State) (tag status : Nat) : State :=
  (((s.set R.MBX_H2U_ACK.TAG tag).set R.MBX_H2U_ACK.STATUS status).set R.MBX_H2U_ACK.VALID 1).fire
    (s.get R.HIF_VEC_CFG.MBX_VEC)

/-- A reply may be written: it fits, and the one before it is acknowledged. -/
def State.replyFits (s : State) (ws : List Word) : Bool :=
  ws.isEmpty || (!s.on R.MBX_U2H_STATUS.WAIT && s.mbx.u2h.length + ws.length ≤ 16)

/-- Ends a message: its reply and then its acknowledge, or the wait for room. -/
def State.answer (s : State) (r : MbxReply) : State :=
  if !s.replyFits r.words then { s with mbx := { s.mbx with reply := some r } }
  else
    let s := { s with mbx := { s.mbx with reply := none } }
    let s := if r.words.isEmpty then s
      else
        let s := (s.setU2h (s.mbx.u2h ++ r.words)).set R.MBX_U2H_STATUS.WAIT 1
        { s with mbx := { s.mbx with ackTag := r.tag } }
    s.ackH2u r.tag r.status

/-- A reply's header word with its payload. -/
def replyWords (svc tag : Nat) (pay : List Word) : List Word :=
  BitVec.ofNat 32 (svc * 2 ^ 24 + pay.length * 2 ^ 16 + tag) :: pay

/-- Serves the oldest message where it is one of service `svc`: `op` gives the status, the reply's payload where there is a
reply, and the state. A payload of another length than the service's gives BAD_LENGTH. -/
def State.serve (s : State) (svc : Nat) (lens : List Nat) (op : MbxMsg → State → Nat × Option (List Word) × State) : State :=
  match s.message with
  | none => s
  | some m =>
    if !s.mayTake || !s.offered svc || m.svc != svc || 15 < m.len then s
    else
      let s := s.setH2u (s.mbx.h2u.drop (1 + m.len))
      if !lens.contains m.len then s.answer { tag := m.tag, status := 0x12, words := [] }
      else
        let r := op m s
        let ws := match r.2.1 with
          | none => []
          | some pay => replyWords svc m.tag pay
        r.2.2.answer { tag := m.tag, status := r.1, words := ws }

/-- MBX_MESSAGE_SERVE (R402, R403): a waiting reply, a header of a bad length, or a service that is not offered. -/
def execMbxMessageServe (s : State) : Res :=
  .next <| s.when (s.fwRuns || s.fw.recovery) fun s =>
    match s.mbx.reply with
    | some r => s.answer r
    | none =>
      match s.message with
      | none => s
      | some m =>
        if !s.mayTake then s
        else if 15 < m.len then (s.setH2u []).answer { tag := m.tag, status := 0x12, words := [] }
        else if s.offered m.svc then s
        else (s.setH2u (s.mbx.h2u.drop (1 + m.len))).answer { tag := m.tag, status := 0x10, words := [] }

/-- U2H_ACK_WRITE (R403): only initiator 2 writes it; a tag that no reply awaits sets ACK_ERR. -/
def State.ackU2h (s : State) (ini : Initiator) (was data : Word) : State :=
  if ini != .host then s.setWord A.MBX_U2H_ACK was
  else if s.on R.MBX_U2H_STATUS.WAIT && getBits data 8 16 = s.mbx.ackTag then s.set R.MBX_U2H_STATUS.WAIT 0
  else (s.setWord A.MBX_U2H_ACK was).set R.MBX_U2H_STATUS.ACK_ERR 1

/-- U2H_ACK_WRITE (R403). -/
def execU2hAckWrite (ini : Initiator) (data : Word) (full : Bool) (s : State) : Res :=
  .next <| s.when (s.reaches ini) fun s =>
    s.rowWrite ini A.MBX_U2H_ACK data full fun was s => s.ackU2h ini was data

/-! ### Services (R402, R429, R430) -/

/-- ECHO (R402). -/
def execEcho (s : State) : Res :=
  .next <| s.when true fun s => s.serve 0x01 (List.range 16) fun m s => (0x00, some m.pay, s)

/-- FW_INFO (R429). -/
def execFwInfo (s : State) : Res :=
  .next <| s.when true fun s => s.serve 0x10 [0] fun _ s =>
    (0x00, some [s.view A.SEC_FW_STATUS, s.view A.SEC_FW_VER0, s.view A.SEC_FW_VER1, s.view A.SEC_RB, s.view A.LOG_STATUS], s)

/-- Words of bytes. -/
def bytesWords (bs : List Byte) (k n : Nat) : List Word := (List.range n).map fun (i : Nat) => BitVec.ofNat 32 (leAt bs (k + 4 * i) 4)

/-- LOG_ENTRY (R429): half of a valid entry. -/
def opLogEntry (m : MbxMsg) (s : State) : Nat × Option (List Word) × State :=
  let lseq := (m.pay.getD 0 0).toNat
  let half := (m.pay.getD 1 0).toNat
  match s.fw.log.find? fun (e : LogEntry) => e.lseq = lseq with
  | none => (0x12, none, s)
  | some e => if half ≤ 1 then (0x00, some (bytesWords e.bytes (32 * half) 8), s) else (0x11, none, s)

/-- LOG_ENTRY (R429). -/
def execLogEntry (s : State) : Res := .next <| s.when true fun s => s.serve 0x11 [2] opLogEntry

/-- A fresh NONCE (R430). -/
def State.newNonce (s : State) : State :=
  let (v, s) := s.draw
  s.set R.SEC_NONCE.NONCE v.toNat

/-- Debug access ends; its locks are released (R408, R430). -/
def State.debugOff (s : State) : State :=
  if s.on R.SEC_DBG_CTRL.DBG_EN then
    ((s.set R.SEC_DBG_CTRL.DBG_EN 0).freeLocks 5).raiseFw 0x09 s.fw.record.bank (s.bank s.fw.record.bank).svn
  else s

/-- DBG_UNLOCK (R430): `verifies` is the check of the 96-byte signature once chunk 1 has arrived. -/
def opDbgUnlock (verifies : Bool) (m : MbxMsg) (s : State) : Nat × Option (List Word) × State :=
  let k := (m.pay.getD 0 0).toNat
  if 1 < k then (0x11, none, s)
  else if k = 0 then (0x00, none, { s with fw := { s.fw with unlock0 := true } })
  else
    let good : Bool := s.fw.unlock0 && verifies && !s.fw.dbgFuse
    let s := ({ s with fw := { s.fw with unlock0 := false } }).newNonce
    if good then
      (0x00, none, (s.set R.SEC_DBG_CTRL.DBG_EN 1).raiseFw 0x08 s.fw.record.bank (s.bank s.fw.record.bank).svn)
    else (0x50, none, s)

/-- DBG_UNLOCK (R430). -/
def execDbgUnlock (verifies : Bool) (s : State) : Res :=
  .next <| s.when true fun s => s.serve 0x12 [13] (opDbgUnlock verifies)

/-- DBG_LOCK (R429). -/
def execDbgLock (s : State) : Res :=
  .next <| s.when true fun s => s.serve 0x13 [0] fun _ s => (0x00, none, s.debugOff)

/-- RECOVER_WRITE (R429): bank 0 takes the words and no longer holds an image that was verified. -/
def opRecoverWrite (m : MbxMsg) (s : State) : Nat × Option (List Word) × State :=
  if !s.fw.recovery then (0x22, none, s)
  else if (m.pay.getD 0 0).toNat % 56 != 0 || 786432 ≤ (m.pay.getD 0 0).toNat then (0x11, none, s)
  else (0x00, none, s.setBank 0 {})

/-- RECOVER_WRITE (R429). -/
def execRecoverWrite (s : State) : Res := .next <| s.when true fun s => s.serve 0x30 [15] opRecoverWrite

/-- The cores boot bank 0 from the recovery loop: Jack waits for them as after a warm reset. -/
def State.leaveRecovery (s : State) : State :=
  let s := { (s.setRecord 0 false) with fw := { (s.setRecord 0 false).fw with recovery := false } }
  (s.set R.HIF_STATUS.FW 0).resetJack.armFallback.bootScan

/-- RECOVER_BOOT (R429). -/
def opRecoverBoot (img : ImageCheck) (_ : MbxMsg) (s : State) : Nat × Option (List Word) × State :=
  if !s.fw.recovery then (0x22, none, s)
  else
    let s := s.setBank 0 (s.bankOf img)
    if (s.bank 0).valid then (0x00, none, s.leaveRecovery) else (0x50, none, s)

/-- RECOVER_BOOT (R429): what the checks of R415 find in bank 0. -/
def execRecoverBoot (img : ImageCheck) (s : State) : Res :=
  .next <| s.when true fun s => s.serve 0x31 [0] (opRecoverBoot img)

/-! ### The EC mailbox (R405) -/

/-- The application core takes the EC's word. -/
def State.takeEc2u (s : State) : State := s.set R.MBX_EC_STATUS.E2U_FULL 0

/-- The EC's word for the unit: stored, or refused while one stands. The flag tells whether it was. -/
def State.ecSends (s : State) (w : Word) : State × Bool :=
  if s.on R.MBX_EC_STATUS.E2U_FULL then (s, false)
  else (((s.setWord A.MBX_EC2U w).set R.MBX_EC_STATUS.E2U_FULL 1).set R.MBX_EC_STATUS.UNIT_ACK 0xFF, true)

/-- The EC reads the unit's word. -/
def State.ecTakes (s : State) : State :=
  if s.on R.MBX_EC_STATUS.U2E_FULL then (s.set R.MBX_EC_STATUS.U2E_FULL 0).clearPending 0x8000 else s

/-- What the EC reads of the unit's word: 0 with the word empty. -/
def State.ecWord (s : State) : Word := if s.on R.MBX_EC_STATUS.U2E_FULL then s.word A.MBX_U2EC else 0

/-- The EC acknowledges; 0xFF is ignored. -/
def State.ecAcks (s : State) (v : Nat) : State :=
  if v = 0xFF then s else (s.set R.MBX_EC_STATUS.EC_ACK v).set R.MBX_EC_STATUS.U2E_WAIT 0

/-- The application core's word for the EC, while the last one is read and acknowledged. -/
def State.unitSends (s : State) (w : Word) : State :=
  if s.on R.MBX_EC_STATUS.U2E_FULL || s.on R.MBX_EC_STATUS.U2E_WAIT then s
  else
    let s := ((s.setWord A.MBX_U2EC w).set R.MBX_EC_STATUS.U2E_FULL 1).set R.MBX_EC_STATUS.U2E_WAIT 1
    if s.on R.TWB_ALERT_MASK.MBX then s.setPending 15 else s

/-- The effect of a write of U2EC, EC2U or EC_STATUS on the word `was`, by the initiator that R405 names; `data` has the word
as merged. -/
def State.ecBoxWrite (s : State) (ini : Initiator) (a : Nat) (was data : Word) : State :=
  let s := s.setWord a was
  if a = A.MBX_U2EC then (if ini = .application then s.unitSends data else s)
  else if a = A.MBX_EC2U then (if ini = .ec then (s.ecSends data).1 else s)
  else if ini = .application then s.set R.MBX_EC_STATUS.UNIT_ACK (getBits data 8 8)
  else if ini = .ec then s.ecAcks (getBits data 0 8)
  else s

/-- UNIT_ACK_WRITE (R405). -/
def execUnitAckWrite (ini : Initiator) (data : Word) (full : Bool) (s : State) : Res :=
  .next <| s.when (s.reaches ini) fun s =>
    s.rowWrite ini A.MBX_EC_STATUS data full fun was s => s.ecBoxWrite ini A.MBX_EC_STATUS was data

/-- U2EC_SEND (R405). -/
def execU2ecSend (ini : Initiator) (data : Word) (full : Bool) (s : State) : Res :=
  .next <| s.when (s.reaches ini) fun s =>
    s.rowWrite ini A.MBX_U2EC data full fun was s => s.ecBoxWrite ini A.MBX_U2EC was data

/-! ### Locks (R406) -/

/-- A read of a lock: what it returns, and an acquisition. -/
def State.lockRead (s : State) (ini : Initiator) (n : Nat) : Word × State :=
  if s.on (R.MBX_LOCK.HELD n) then (s.word (A.MBX_LOCK n), s)
  else (0, s.setWord (A.MBX_LOCK n) (BitVec.ofNat 32 (2 ^ 31 + iniCode ini)))

/-- A write of a lock whose word was `was`: the owner's identifier alone releases it; any other is refused. -/
def State.lockWrite (s : State) (ini : Initiator) (n : Nat) (was data : Word) : State :=
  let s := s.setWord (A.MBX_LOCK n) was
  if getBits was 31 1 = 1 && getBits was 0 3 = iniCode ini && data = BitVec.ofNat 32 (iniCode ini) then
    s.setWord (A.MBX_LOCK n) 0
  else (s.setBit R.MBX_LOCK_ERR.LOCK_ERR n true).set R.MBX_LOCK_ERR.ERR_INIT (iniCode ini)

/-- LOCK_WRITE (R406). -/
def execLockWrite (ini : Initiator) (n : Fin 16) (data : Word) (full : Bool) (s : State) : Res :=
  .next <| s.when (s.reaches ini) fun s =>
    s.rowWrite ini (A.MBX_LOCK n) data full fun was s => s.lockWrite ini n was data

/-! ### Reads (R5, R16, R253, R391, R437) -/

/-- The bits that a read clears. -/
def rcBits (a : Nat) : Word :=
  match RegMap.find a with
  | none => 0
  | some d => d.accMask .rc

/-- A read of the capture channels' registers (R292). -/
def State.capRead (s : State) (a : Nat) : State :=
  match arrayIdx 0x7200 0x10 32 a with
  | some n =>
    (s.set (R.CAP_SCH_VALUE.NEW n) 0).set (R.CAP_SCH_TS.TS_LO n) (s.cap.slowTs.get (Fin.ofNat 32 n) % 2 ^ 32)
  | none =>
  match arrayIdx 0x7008 0x20 16 a with
  | some n => { s with cap := { s.cap with seen := clearBitAt s.cap.seen n } }
  | none => s

/-- The count of a running fast timer as a read shows it: the model has no SYS clock, and the value is free. -/
def State.liveCount (s : State) (a : Nat) : Option (Word × State) :=
  match arrayIdx 0x3508 0x20 16 a with
  | some n => if s.ftRuns n then some s.draw else none
  | none => none

/-- The value of a register and the effects of its read, whichever initiator reads. -/
def State.readReg (s : State) (ini : Initiator) (a : Nat) : Word × State :=
  if msixReg a && ini != .host then (0, s)
  else if a = A.TMR_TS_LO then
    let t := s.tsNow
    (BitVec.ofNat 32 t,
      { s with tmr := { s.tmr with latch := s.tmr.latch.set (iniCode ini % 6) (some (t / 2 ^ 32)) (Nat.mod_lt _ (by decide)) } })
  else if a = A.TMR_TS_HI then
    (BitVec.ofNat 32 ((s.tmr.latch.get (Fin.ofNat 6 (iniCode ini))).getD (s.tsNow / 2 ^ 32)), s)
  else if a = A.MBX_U2H_DATA then
    (s.mbx.u2h.headD 0, if ini = .host then s.setU2h s.mbx.u2h.tail else s)
  else if a = A.MBX_EC2U then (s.word a, if ini = .application then s.takeEc2u else s)
  else if a = A.MBX_U2EC && ini = .ec then (s.ecWord, s.ecTakes)
  else
    match arrayIdx 0x4880 4 16 a with
    | some n => s.lockRead ini n
    | none =>
    match arrayIdx 0x3514 0x20 16 a with
    | some n => (s.word a, s.set (R.TMR_FT_STATUS.NEW n) 0)
    | none =>
    match s.liveCount a with
    | some r => r
    | none =>
      let w := s.view a
      let s := if rcBits a = 0 then s else s.setWord a (s.word a &&& ~~~ rcBits a)
      (w, s.capRead a)

/-- A read by an initiator: 0 for a refused one, which is recorded (R16, R17, R24). -/
def State.read (s : State) (ini : Initiator) (addr : Nat) : Word × State :=
  let a := busAddr ini addr
  let s := if ini = .host then s.toL0 else s
  match s.refusal ini a false true with
  | some c => (0, s.recordRefusal ini a false c)
  | none => s.readReg ini a

/-- A read row's meaning: the value is answered to the reader. -/
def State.rowRead (s : State) (ini : Initiator) (a : Nat) : State :=
  let r := s.read ini a
  r.2.emit (.regRead ini a r.1)

/-- TS_LO_READ (R391). -/
def execTsLoRead (ini : Initiator) (s : State) : Res :=
  .next <| s.when (s.reaches ini) fun s => s.rowRead ini A.TMR_TS_LO

/-- FT_CAPT_READ (R397). -/
def execFtCaptRead (ini : Initiator) (n : Fin 16) (s : State) : Res :=
  .next <| s.when (s.reaches ini) fun s => s.rowRead ini (A.TMR_FT_CAPT n)

/-- H2U_ACK_READ (R402). -/
def execH2uAckRead (ini : Initiator) (s : State) : Res :=
  .next <| s.when (s.reaches ini) fun s => s.rowRead ini A.MBX_H2U_ACK

/-- U2H_POP (R401). -/
def execU2hPop (ini : Initiator) (s : State) : Res :=
  .next <| s.when (s.reaches ini) fun s => s.rowRead ini A.MBX_U2H_DATA

/-- LOCK_READ (R406). -/
def execLockRead (ini : Initiator) (n : Fin 16) (s : State) : Res :=
  .next <| s.when (s.reaches ini) fun s => s.rowRead ini (A.MBX_LOCK n)

/-- EC2U_TAKE (R405): the application core reads EC2U. -/
def execEc2uTake (s : State) : Res :=
  .next <| s.when (s.reaches .application) fun s => s.rowRead .application A.MBX_EC2U

end Sys2Proof.Machine
end

