-- ==== Sys2Proof/Machine/TwoWire.lean ====
section
/-! DEFINITION. The two-wire bus (11_two_wire_bus.md): ARP, native transactions, the EC queue, the compatibility file, ALERT#,
Alert Response and Host Notify, and the bus timeouts. A reply holds the data bytes without count and PEC. -/

namespace Sys2Proof.Machine

/-! ### UDID (R297) -/

/-- A number as `n` bytes, most significant first. -/
def beBytes (n v : Nat) : List Byte := (leBytes n v).reverse

/-- The UDID registers take the unit's UDID. -/
def State.setUdid (s : State) : State :=
  let v := 0x810A1D5A48960005 * 2 ^ 64 + Config.uniqueNumber.toNat
  (List.range 4).foldl (fun (acc : State) (k : Nat) => acc.set (R.TWB_UDID.UDID k) (v / 2 ^ (32 * k) % 2 ^ 32)) s

/-- The unit's UDID, most significant byte first. -/
def State.udid (s : State) : List Byte :=
  [3, 2, 1, 0].flatMap fun (k : Nat) => beBytes 4 (s.get (R.TWB_UDID.UDID k))

/-! ### Addresses (R296, R298 to R302) -/

/-- The SYS clock runs, so that the engine serves its addresses. -/
def State.sysRuns (s : State) : Bool := bitAt (s.get R.GLB_CLK_STATUS.RUN) 3

/-- The native address is valid and is `a`. -/
def State.native (s : State) (a : Nat) : Bool := s.on R.TWB_ADDR.AV && s.get R.TWB_ADDR.ADDR = a

/-- The address byte of the ARP contest (R299). -/
def State.addrByte (s : State) : Nat := if s.on R.TWB_ADDR.AV then 2 * s.get R.TWB_ADDR.ADDR + 1 else 0xFF

/-- Takes an address, resolved and valid, from a source. -/
def State.takeAddr (s : State) (a src : Nat) : State :=
  (((s.set R.TWB_ADDR.ADDR a).set R.TWB_ADDR.AV 1).set R.TWB_ADDR.AR 1).set R.TWB_ADDR.SRC src

/-- Addresses that Assign Address must not give (R300): 0x6B counts while a COMPAT strap is set. -/
def reservedAddr (a : Nat) (compat : Bool) : Bool :=
  a ≤ 0x08 || [0x0C, 0x28, 0x37, 0x61].contains a || 0x78 ≤ a || (compat && a = 0x6B)

/-- A PEC that is wrong or missing is counted (R319). -/
def State.pecError (s : State) : State := (s.set R.TWB_EVENT.PEC_ERR 1).bump R.TWB_STATS.PEC_CNT

/-- An ARP command that carries a PEC: it sets EC_ARP, and is ignored with its PEC missing or wrong (R298). -/
def State.arp (s : State) (pec : Pec) (f : State → State) : State :=
  let s := s.set R.TWB_ADDR.EC_ARP 1
  if pec = .good then f s else s.pecError

/-- ARP_PREPARE (R298). -/
def execArpPrepare (pec : Pec) (s : State) : Res :=
  .next <| s.when s.sysRuns fun s => s.arp pec fun s => s.set R.TWB_ADDR.AR 0

/-- ARP_RESET_DEVICE (R298): general, or directed to an address. -/
def execArpResetDevice (directed : Option (Fin 128)) (pec : Pec) (s : State) : Res :=
  .next <| s.when s.sysRuns fun s => s.arp pec fun s =>
    match directed with
    | none => s.set R.TWB_ADDR.AR 0
    | some a => if s.native a then s.set R.TWB_ADDR.AR 0 else s

/-- ARP_GET_UDID (R299): with AR clear the unit takes part in the contest; the winner's bytes reach the controller. -/
def execArpGetUdid (won : Bool) (s : State) : Res :=
  .next <| s.when s.sysRuns fun s =>
    let s := s.set R.TWB_ADDR.EC_ARP 1
    if won && !s.on R.TWB_ADDR.AR then s.emit (.reply (s.udid ++ leBytes 1 s.addrByte)) else s

/-- ARP_GET_UDID_DIRECTED (R298). -/
def execArpGetUdidDirected (addr : Fin 128) (s : State) : Res :=
  .next <| s.when s.sysRuns fun s =>
    let s := s.set R.TWB_ADDR.EC_ARP 1
    if s.native addr then s.emit (.reply (s.udid ++ leBytes 1 s.addrByte)) else s

/-- ARP_ASSIGN_ADDRESS (R300); `otherCompat` tells that another unit's COMPAT strap is set (R4). -/
def execArpAssignAddress (udid : List Byte) (addr : Fin 128) (pec : Pec) (otherCompat : Bool) (s : State) : Res :=
  .next <| s.when s.sysRuns fun s => s.arp pec fun s =>
    if udid != s.udid then s
    else if reservedAddr addr (s.on R.MOD_STRAP.COMPAT || otherCompat) then
      ((s.set R.TWB_ADDR.AR 1).set R.TWB_EVENT.ADDR_REJECT 1).raiseFault 0x09 0x5 0xFF 0
    else s.takeAddr addr 2

/-- The address that R4 gives unit `u`. -/
def State.addrOf (s : State) (u : Nat) : Nat := if u != 0 && s.on R.MOD_STRAP.COMPAT then 0x6B + u else 0x6A + u

/-- The unit behaves as the master in R301: it is no follower, or its cascade agent is off. -/
def State.assigns (s : State) : Bool := !s.isFollower || !s.on R.CSC_CFG.LINK_EN

/-- The master may send Assign Address. -/
def State.mayAssign (s : State) : Bool := s.twb.assigning && !s.on R.TWB_ADDR.EC_ARP && s.on R.TWB_CFG.ARP_AUTO && s.sysRuns

/-- Assign Address to follower `u` as controller, once its whole UDID was reported. -/
def State.sendAssign (s : State) (u : Fin 4) : State :=
  let p := s.csc.peers.get u
  if !s.mayAssign || u = 0 || p.parts != 255 then s
  else
    { s with twb := { s.twb with clockOut := false } }.emit
      (.twb 0x61 ([0x04, 17] ++ p.udid ++ leBytes 1 (2 * s.addrOf u)))

/-- MASTER_ASSIGN_START (R301). -/
def execMasterAssignStart (s : State) : Res :=
  .next <| s.when (s.md.boot = .ready && s.assigns && !s.on R.TWB_ADDR.EC_ARP && s.on R.TWB_CFG.ARP_AUTO && s.sysRuns) fun s =>
    let s := s.takeAddr 0x6A 1
    let s := { s with twb := { s.twb with assigning := true, tries := Vector.replicate 4 0 } }
    ((s.sendAssign 1).sendAssign 2).sendAssign 3

/-- ASSIGN_RETRY (R301): a failed Assign Address is repeated, up to three times. -/
def execAssignRetry (u : Fin 4) (s : State) : Res :=
  .next <| s.when (s.mayAssign && s.twb.tries.get u < 3) fun s =>
    { s with twb := { s.twb with tries := s.twb.tries.set u (s.twb.tries.get u + 1) } }.sendAssign u

/-- SELF_ASSIGN (R301). -/
def execSelfAssign (s : State) : Res :=
  .next <| s.when (s.isFollower && s.md.boot = .ready && !s.on R.TWB_ADDR.AV && s.get R.CSC_STATUS.STATE != 2 &&
      !s.on R.TWB_ADDR.EC_ARP) fun s =>
    s.takeAddr (s.addrOf (s.get R.MOD_STRAP.IDX)) 3

/-! ### Wake and refusal (R303, R304) -/

/-- Addresses that the KEEP-ALIVE detector recognises. -/
def State.recognises (s : State) (a : Nat) : Bool :=
  s.native a || a = 0x61 || (a = 0x6B && s.on R.TWB_ADDR.COMPAT) || (a = 0x0C && s.on R.TWB_STATUS.ALERT)

/-- TWB_KA_ADDRESS_MATCH (R304). -/
def execTwbKaAddressMatch (addr : Fin 128) (s : State) : Res :=
  .next <| s.when (s.inKa && s.recognises addr) fun s =>
    let refused : Bool := s.native addr || (addr = 0x6B && s.on R.TWB_ADDR.COMPAT)
    (s.ifDo refused fun s => s.bump R.TWB_STATS.NACK_BUSY).wakeUp true false

/-- The unit cannot serve a transaction now (R303). -/
def State.busyNack (s : State) : Bool := !s.fwRuns || s.twb.applying

/-- A read transaction at the native address: refused and counted, or answered by `f`. -/
def State.nativeRead (s : State) (f : State → State) : State :=
  s.when (s.on R.TWB_ADDR.AV && s.sysRuns) fun s => if s.busyNack then s.bump R.TWB_STATS.NACK_BUSY else f s

/-- TWB_WRITE_APPLIED (R303). -/
def execTwbWriteApplied (s : State) : Res :=
  .next <| s.when true fun s => { s with twb := { s.twb with applying := false } }

/-! ### Writes (R303, R307, R309) -/

/-- LAST_RESULT of a write transaction. -/
def State.setLast (s : State) (code status : Nat) : State := (s.set R.TWB_LAST.CODE code).set R.TWB_LAST.RESULT status

/-- What refuses a write of a code with `len` data bytes, `block` for a block write: the status for LAST_RESULT, a count or
byte refused, a PEC wrong or missing. -/
def State.writeFlaw (s : State) (block : Bool) (len : Nat) (w : TwiWrite) : Option (Nat × Bool × Bool) :=
  if block && w.count != len then some (0x12, true, false)
  else if w.data.length < len then some (0x12, false, false)
  else if w.pec = .bad then some (0x50, false, true)
  else if len < w.data.length then some (0x12, true, false)
  else if w.pec = .absent && s.on R.TWB_CFG.PEC_REQ then some (0x50, false, true)
  else if w.lost then some (0x31, false, false)
  else none

/-- A native write transaction: `op` applies its data and gives the status; `slow` for a code that is still being applied
after the STOP. -/
def State.nativeWrite (s : State) (code : Nat) (block slow : Bool) (len : Nat) (w : TwiWrite)
    (op : List Byte → State → Nat × State) : State :=
  s.when (s.on R.TWB_ADDR.AV && s.sysRuns) fun s =>
    if s.busyNack && !w.lost then s.bump R.TWB_STATS.NACK_BUSY
    else
      match s.writeFlaw block len w with
      | some (st, lenErr, pecErr) =>
        let s := s.ifDo lenErr fun s => s.set R.TWB_EVENT.LEN_ERR 1
        (s.ifDo pecErr State.pecError).setLast code st
      | none =>
        let r := op w.data s
        let s := r.2.setLast code r.1
        { s with twb := { s.twb with applying := slow } }

/-! ### Status and events (R308) -/

/-- The word of STATUS. -/
def State.statusWord (s : State) : Nat :=
  s.mode + s.get R.HIF_STATUS.FW * 16 + s.get R.TWB_STATUS.ALERT * 64 + (4 - s.ecUsed) * 256 + s.twb.cpls.length * 2048 +
    s.get R.MOD_STRAP.IDX * 16384

/-- TWB_STATUS (R308). -/
def execTwbStatus (s : State) : Res := .next <| s.nativeRead fun s => s.emit (.reply (leBytes 2 s.statusWord))

/-- EVENT_SUMMARY (R308). -/
def execEventSummary (s : State) : Res :=
  .next <| s.nativeRead fun s => s.emit (.reply (leBytes 2 (s.get R.TWB_STATUS.PENDING)))

/-- EVENT_ACK (R308): bits [15:14] are ignored. -/
def execEventAck (w : TwiWrite) (s : State) : Res :=
  .next <| s.nativeWrite 0x02 false true 2 w fun d s => (0x00, s.clearPending (ofLe d % 16384))

/-- LAST_RESULT (R308). -/
def execLastResult (s : State) : Res :=
  .next <| s.nativeRead fun s =>
    s.emit (.reply (leBytes 1 (s.get R.TWB_LAST.RESULT) ++ leBytes 1 (s.get R.TWB_LAST.CODE)))

/-- The newest record of an event type. -/
def State.lastEvent (s : State) (typ : Nat) : List Byte :=
  if typ < 1 || 13 < typ then List.replicate 64 0xFF
  else
    match s.twb.last.find? fun (e : Event) => e.typ = typ with
    | none => List.replicate 64 0
    | some e => eventBytes e false false

/-- A process call whose block count is not the one its code fixes is refused at that byte. -/
def State.processCall (s : State) (count len : Nat) (f : State → State) : State :=
  s.nativeRead fun s => if count = len then f s else s.set R.TWB_EVENT.LEN_ERR 1

/-- LAST_EVENT (R308). -/
def execLastEvent (count typ : Nat) (s : State) : Res :=
  .next <| s.processCall count 1 fun s => s.emit (.reply (s.lastEvent typ))

/-- REG_READ (R309). -/
def execRegRead (count addr : Nat) (s : State) : Res :=
  .next <| s.processCall count 2 fun s =>
    let st := match s.refusal .ec (busAddr .ec addr) false true with
      | none => 0x00
      | some _ => 0x11
    let r := s.read .ec addr
    r.2.emit (.reply (leBytes 1 st ++ leBytes 4 r.1.toNat))

/-! ### The EC queue (R250, R310) -/

/-- CMD_SUBMIT: an entry takes a free slot. -/
def State.submitEc (s : State) (e : List Byte) : Nat × State :=
  if 4 ≤ s.ecUsed then (0x30, s.set R.TWB_EVENT.Q_OVF 1)
  else
    let s := s.takeEntry .ec e
    let s := { s with twb := { s.twb with accepted := (s.twb.accepted + 1) % 65536 } }
    (0x00, s.settle s.cmds.length)

/-- CMD_SUBMIT (R309, R310). -/
def execCmdSubmit (w : TwiWrite) (s : State) : Res := .next <| s.nativeWrite 0x10 true true 64 w fun d s => s.submitEc d

/-- CPL_READ (R310): 16 bytes of 0xFF with no completion pending. -/
def execCplRead (s : State) : Res :=
  .next <| s.nativeRead fun s =>
    s.emit (.reply (match s.twb.cpls with
      | [] => List.replicate 16 0xFF
      | c :: _ => c.cpl))

/-- CPL_POP: the oldest completion goes, with its slot and its area; pending bit 14 clears with the last. -/
def State.popEc (s : State) : State :=
  match s.twb.cpls with
  | [] => s
  | _ :: rest =>
    let s := { s with twb := { s.twb with cpls := rest } }
    if rest.isEmpty then s.clearPending 0x4000 else s

/-- CPL_POP (R310). -/
def execCplPop (w : TwiWrite) (s : State) : Res := .next <| s.nativeWrite 0x12 false false 0 w fun _ s => (0x00, s.popEc)

/-- Bytes the spec does not give: free values. -/
def State.freeBytes (s : State) : Nat → List Byte × State
  | 0 => ([], s)
  | n + 1 =>
    let b := Config.freeByte s.free
    let r := { s with free := s.free + 1 }.freeBytes n
    (b :: r.1, r.2)

/-- 128 bytes of the oldest completion's result area from byte `k`; what no result was written to is free. -/
def State.resultPart (s : State) (k : Nat) : List Byte × State :=
  let area := match s.twb.cpls with
    | [] => []
    | c :: _ => (c.area.drop k).take 128
  let r := s.freeBytes (128 - area.length)
  (area ++ r.1, r.2)

/-- RESULT_LO (R308, R310). -/
def execResultLo (s : State) : Res :=
  .next <| s.nativeRead fun s =>
    let r := s.resultPart 0
    r.2.emit (.reply r.1)

/-- RESULT_HI (R308, R310). -/
def execResultHi (s : State) : Res :=
  .next <| s.nativeRead fun s =>
    let r := s.resultPart 128
    r.2.emit (.reply r.1)

/-! ### The EC mailbox (R308, R405) -/

/-- MBX_READ (R405). -/
def execMbxRead (s : State) : Res :=
  .next <| s.nativeRead fun s => s.ecTakes.emit (.reply (leBytes 4 s.ecWord.toNat))

/-- MBX_WRITE (R405). -/
def execMbxWrite (w : TwiWrite) (s : State) : Res :=
  .next <| s.nativeWrite 0x19 true true 4 w fun d s =>
    let r := s.ecSends (BitVec.ofNat 32 (ofLe d))
    (if r.2 then 0x00 else 0x30, r.1)

/-- MBX_ACK_WRITE (R405). -/
def execMbxAckWrite (w : TwiWrite) (s : State) : Res :=
  .next <| s.nativeWrite 0x1A false true 1 w fun d s => (0x00, s.ecAcks (ofLe d))

/-- MBX_ACK_READ (R405). -/
def execMbxAckRead (s : State) : Res :=
  .next <| s.nativeRead fun s => s.emit (.reply (leBytes 1 (s.get R.MBX_EC_STATUS.UNIT_ACK)))

/-! ### The compatibility file (R316, R317) -/

/-- The charge state of STATUS. -/
def State.compatCharge (s : State) : Nat :=
  match s.get R.CHG_STATUS.PHASE with
  | 2 => 0
  | 3 => 1
  | 4 => 1
  | 5 => 2
  | 6 => 3
  | 7 => 4
  | 8 => 5
  | 1 => 7
  | _ => 6

/-- STATUS. -/
def State.compatStatus (s : State) : Nat :=
  s.compatCharge + 8 * ofBool (s.mode = 3 || s.mode = 4) + 16 * ofBool s.packPresent +
    32 * ofBool (s.anySink && s.geti R.MOD_BAT_MEAS.IBAT < 0) +
    64 * ofBool (bitAt (s.get (R.CNV_GRP_STATUS.LIMITER 0)) 0 || bitAt (s.get (R.CNV_GRP_STATUS.LIMITER 1)) 0) +
    128 * ofBool s.inSafe

/-- FAULT. -/
def State.compatFault (s : State) : Nat :=
  let f := s.get R.CHG_STATUS.FAULT
  ofBool (f = 1 || f = 2) + 2 * ofBool (s.on R.CHG_COV_STATUS.LATCH || s.get R.CHG_COV_STATUS.ACTIVE != 0) + 4 * ofBool (f = 4) +
    8 * ofBool (f = 5) + 16 * ofBool (s.bit R.CHG_STATUS.SUSP 1) + 32 * ofBool (s.bit R.CHG_STATUS.SUSP 3) +
    64 * ofBool (s.on R.MOD_STRAP.STRAP_ERR)

/-- VIN: the bus of the connected sink port with the highest contracted power, 0 with none. -/
def State.compatVin (s : State) : Nat :=
  let pwr (b : Fin 2) : Nat := s.get (R.PD_PE_CONTRACT_PWR.PWR (s.busPort b))
  if s.sinkConn 0 && !(s.sinkConn 1 && pwr 0 < pwr 1) then s.get (R.MOD_IN_MEAS.VIN 0)
  else if s.sinkConn 1 then s.get (R.MOD_IN_MEAS.VIN 1)
  else 0

/-- A snapshot of the 64 bytes. -/
def State.compatFile (s : State) : List Byte :=
  let sig (v : Int) : List Byte := leBytes 2 (ofSignedSat 16 v)
  leBytes 4 (0x9640 + 0x10000 * s.get R.CHG_STATUS.STOPPED) ++ leBytes 2 (s.get R.TWB_COMPAT_VCHG.VCHG) ++
    leBytes 2 (2 * s.get R.CHG_LIMIT.ICHG_HOST) ++ leBytes 2 (2 * s.get (R.MOD_IN_CFG.IIN_MAX 0)) ++ List.replicate 6 0 ++
    leBytes 1 s.compatStatus ++ leBytes 1 s.compatFault ++ leBytes 2 (s.get R.MOD_BAT_MEAS.VBAT) ++
    sig (2 * s.geti R.MOD_BAT_MEAS.IBAT) ++ leBytes 2 s.compatVin ++
    sig (2 * (s.geti (R.MOD_IN_MEAS.IIN 0) + s.geti (R.MOD_IN_MEAS.IIN 1))) ++ leBytes 2 (s.get R.MOD_VSYS_STATUS.VSYS) ++
    sig (s.geti R.CHG_PACK_STATUS.TPACK) ++ List.replicate 34 0

/-- A write of one field by initiator 3, at the nearest limit (R9). -/
def State.compatField (s : State) (f : Fld) (v : Nat) : State :=
  (s.writeReg .ec f.addr (putBits (s.word f.addr) f.lo f.width (satNat f.width v)) (fieldMask f.lo f.width)
    (fun (_ : Word) (s : State) => s)).2

/-- A command as the compatibility file and the configuration image give one. -/
def localCmd (opcode : Nat) (params : List Byte) : Cmd :=
  { handle := 0, src := .image, cid := 0, opcode := opcode, fence := false, resultLen := 0, resultAddr := 0, params := params,
    started := true, noCpl := true, bad := none }

/-- CTRL. -/
def State.compatCtrl (s : State) (b : Byte) : State :=
  if bitAt b.toNat 0 then (opChargeStop (localCmd 0x22 []) s).2
  else if s.on R.CHG_STATUS.STOPPED then (opChargeStart (localCmd 0x21 []) s).2
  else s

/-- A 16-bit value at its low byte's offset. -/
def State.compatPair (s : State) (at_ v : Nat) : State :=
  if at_ = 4 then s.compatField R.TWB_COMPAT_VCHG.VCHG v
  else if at_ = 6 then s.compatField R.CHG_LIMIT.ICHG_HOST (v / 2)
  else (s.compatField (R.MOD_IN_CFG.IIN_MAX 0) (v / 2)).compatField (R.MOD_IN_CFG.IIN_MAX 1) (v / 2)

/-- The data bytes after the pointer byte; `low` is a low byte held, with its offset. -/
def State.compatBytes (s : State) (low : Option (Nat × Byte)) : List Byte → State
  | [] => s
  | b :: bs =>
    let p := s.twb.ptr
    let t := { s with twb := { s.twb with ptr := (p + 1) % 64 } }
    if p = 2 then (t.compatCtrl b).compatBytes none bs
    else if p = 4 || p = 6 || p = 8 then t.compatBytes (some (p, b)) bs
    else if p = 5 || p = 7 || p = 9 then
      match low with
      | some (q, lo) =>
        if q + 1 = p then (t.compatPair q (lo.toNat + 256 * b.toNat)).compatBytes none bs else t.compatBytes none bs
      | none => t.compatBytes none bs
    else t.compatBytes none bs

/-- A transaction at 0x6B: refused and counted, or done by `f`. -/
def State.compat (s : State) (lost : Bool) (f : State → State) : State :=
  s.when (s.on R.TWB_ADDR.COMPAT && s.sysRuns) fun s =>
    if s.busyNack && !lost then s.bump R.TWB_STATS.NACK_BUSY else f s

/-- COMPAT_WRITE (R316): the first byte sets the pointer. A write whose STOP fell after firmware was lost is discarded. -/
def execCompatWrite (data : List Byte) (lost : Bool) (s : State) : Res :=
  .next <| s.compat lost fun s =>
    match data with
    | [] => s
    | b :: bs => if lost then s else { s with twb := { s.twb with ptr := b.toNat % 64 } }.compatBytes none bs

/-- COMPAT_READ (R316): `n` bytes from the pointer. -/
def execCompatRead (n : Nat) (s : State) : Res :=
  .next <| s.compat false fun s =>
    let file := s.compatFile
    let p := s.twb.ptr
    let bs := (List.range n).map fun (k : Nat) => file.getD ((p + k) % 64) 0
    { s with twb := { s.twb with ptr := (p + n) % 64 } }.emit (.reply bs)

/-! ### Alert Response and Host Notify (R313 to R315) -/

/-- ALERT_RESPONSE (R313): the unit that wins the arbitration releases ALERT#. -/
def execAlertResponse (won : Bool) (s : State) : Res :=
  .next <| s.when (s.on R.TWB_STATUS.ALERT && s.on R.TWB_ADDR.AV && s.sysRuns && won) fun s =>
    let s := s.emit (.reply (leBytes 1 (2 * s.get R.TWB_ADDR.ADDR)))
    { s with twb := { s.twb with released := true } }.refreshAlert

/-- The data of a Host Notify (R314). -/
def State.notifyBytes (s : State) : List Byte :=
  let p := s.get R.TWB_STATUS.PENDING
  leBytes 1 (2 * s.get R.TWB_ADDR.ADDR) ++ leBytes 2 (p % 16384 + 16384 * ofBool (p / 16384 != 0))

/-- A failed attempt: after the eighth the unit gives up (R306, R315). -/
def State.notifyFailed (s : State) : State :=
  let n := s.twb.notifyTry + 1
  let s := { s with twb := { s.twb with notifyTry := n } }
  if n < 8 then s
  else
    ({ s with twb := { s.twb with notifyDue := false } }.set R.TWB_EVENT.NOTIFY_FAIL 1).raiseFault 0x09 0x4 0xFF 0

/-- An attempt of a Host Notify as controller. -/
def State.notifyTry (s : State) (r : NotifyEnd) : State :=
  let s := { s with twb := { s.twb with clockOut := false } }
  match r with
  | .delivered =>
    let s := (s.emit (.twb 0x08 s.notifyBytes)).bump R.TWB_STATS.NOTIFY_SENT
    { s with twb := { s.twb with notifyDue := false, notifyTry := 0 } }
  | .nack => s.notifyFailed
  | .arbLost => (s.bump R.TWB_STATS.ARB_LOST).notifyFailed

/-- A Host Notify is due and may be sent. -/
def State.mayNotify (s : State) : Bool :=
  s.twb.notifyDue && s.get R.TWB_CFG.NOTIFY_MODE != 0 && s.on R.TWB_ADDR.AV && s.sysRuns

/-- HOST_NOTIFY (R314). -/
def execHostNotify (r : NotifyEnd) (s : State) : Res :=
  .next <| s.when (s.mayNotify && s.twb.notifyTry = 0) fun s => s.notifyTry r

/-- HOST_NOTIFY_RETRY (R315). -/
def execHostNotifyRetry (r : NotifyEnd) (s : State) : Res :=
  .next <| s.when (s.mayNotify && s.twb.notifyTry != 0) fun s => s.notifyTry r

/-! ### Timeouts (R306, R318) -/

/-- SCL_TIMEOUT (R306); in a Host Notify the attempt counts as failed (R318). -/
def execSclTimeout (inNotify : Bool) (s : State) : Res :=
  .next <| s.when s.sysRuns fun s =>
    let s := (s.set R.TWB_EVENT.SCL_TO 1).raiseFault 0x09 0x1 0xFF 0
    if inNotify && s.twb.notifyDue then s.notifyFailed else s

/-- SDA_TIMEOUT (R306). -/
def execSdaTimeout (s : State) : Res :=
  .next <| s.when s.sysRuns fun s => (s.set R.TWB_EVENT.SDA_TO 1).raiseFault 0x09 0x2 0xFF 0

/-- SDA_STUCK (R306): the unit clocks SCL before its next START as controller. -/
def execSdaStuck (s : State) : Res :=
  .next <| s.when s.sysRuns fun s =>
    { (s.set R.TWB_EVENT.STUCK 1) with twb := { s.twb with clockOut := true } }.raiseFault 0x09 0x3 0xFF 0

end Sys2Proof.Machine
end

