-- ==== Sys2Proof/Machine/Bus.lean ====
section
/-! DEFINITION. What a write of each register does beside storing it, and the accesses of every path: register writes,
posted writes to the AON domain, SET_PARAM, GET_PARAM and REG_WRITE (R16, R22, R252, R253, R309). -/

namespace Sys2Proof.Machine

/-! ### Effects by register -/

/-- PDn.CTRL (R188): DISABLE, and ErrorRecovery for a port that is not disabled. -/
def State.portCtrl (s : State) (p : Fin 4) (was data : Word) : State :=
  let v : Bool := getBits data 31 1 = 1
  let s := (s.setWord (A.PD_CTRL p) was).setDisable p v
  if getBits data 30 1 = 1 && !s.on (R.PD_CTRL.DISABLE p) && s.tcState p != 1 then
    let att : Bool := s.on (R.PD_CC_STATUS.ATTACHED p)
    let s := ((s.set (R.PD_CTRL.ERR_RECOVERY p) 1).errorRecovery p).autoSelect
    s.ifDo att fun s => s.set (R.PD_EVENT.DETACH p) 1
  else s

/-- PDn.TC_CFG (R162): a port that is unattached runs the state machines of its new role. -/
def State.roleWritten (s : State) (p : Fin 4) (was : Word) : State :=
  if s.get (R.PD_TC_CFG.ROLE p) = getBits was 30 2 || !(s.tcState p = 2 || s.tcState p = 5) then s
  else (s.setTerm p (s.restTerm p)).setTc p (s.unattachedOf p)

/-- PH_HW (R52): a drive level written to a switching phase is held. -/
def State.drvWritten (s : State) (ph : Fin 6) (was : Word) : State :=
  let v := s.get (R.PH_HW.DRV_LVL ph)
  if v = getBits was 12 1 then s
  else if s.switching ph then s.modPhase ph fun x => { x with drvHeld := some v }
  else s.modPhase ph fun x => { x with drvApplied := v, drvHeld := none }

/-- RAIL_CFG (R384): a write that names the rail itself or closes a cycle changes nothing and sets CFG_ERR. -/
def State.railWritten (s : State) (n : Fin 12) (was : Word) : State :=
  if s.depsCycle n (s.get (R.SEQ_RAIL_CFG.DEPS n)) then (s.setWord (A.SEQ_RAIL_CFG n) was).set R.SEQ_STATUS.CFG_ERR 1
  else s.syncUnused n

/-- The local group of a word of PAR_CFG stands empty, or the word names none. -/
def State.parEmpty (s : State) (w : Word) : Bool :=
  getBits w 31 1 = 0 || (s.busEmpty (Fin.ofNat 2 (getBits w 29 1)) && !s.csc.parRun)

/-- PAR_CFG (R330): the write applies only while the local group's bus is empty, and is held until then. -/
def State.parWritten (s : State) (was : Word) : State :=
  let new := s.word A.CSC_PAR_CFG
  if s.parEmpty was && s.parEmpty new then { s with csc := { s.csc with parHeld := none, parN := 0 } }
  else { s.setWord A.CSC_PAR_CFG was with csc := { s.csc with parHeld := some new } }

/-- TWB.CFG and TWB.ALERT_MASK (R312 to R314): ALERT# follows, and a condition that holds raises its bit. -/
def State.alertWritten (s : State) (was : Word) : State :=
  let s := if s.on R.TWB_ALERT_MASK.CPL && getBits was 14 1 = 0 && !s.twb.cpls.isEmpty then s.setPending 14 else s
  if s.on R.TWB_ALERT_MASK.MBX && getBits was 15 1 = 0 && s.on R.MBX_EC_STATUS.U2E_FULL then s.setPending 15 else s

/-- CAP.CFG (R265): the streams' figures follow, and a new slow rate waits. -/
def State.capCfgWritten (s : State) (was : Word) : State :=
  let s := if getBits was 24 4 = s.get R.CAP_CFG.SLOW_RATE then s else { s with cap := { s.cap with slowWait := true } }
  s.capRefresh

/-- CAP.ONESHOT (R290): GO starts or restarts a measurement. -/
def State.oneshot (s : State) (data : Word) : State :=
  if getBits data 31 1 = 1 then (s.set R.CAP_ONESHOT_RES.BUSY 1).set R.CAP_ONESHOT_RES.STALE 1 else s

/-- GLB.ACC_ERR_INFO (R25): clearing VALID clears COUNT. -/
def State.accErrCleared (s : State) (data : Word) : State :=
  if getBits data 31 1 = 1 then s.set R.GLB_ACC_ERR_INFO.COUNT 0 else s

/-- A count's direction as its register shows it. -/
def State.ftUp (s : State) (n : Nat) : Bool := !s.on (R.TMR_FT_STATUS.DIR n)

/-- The fast timers: a running count is the one stored. -/
def State.timerEffect (s : State) (a : Nat) (was data : Word) : State :=
  match arrayIdx (A.TMR_FT_CFG 0) 0x20 16 a with
  | some n => s.ftCfg n was data (s.get (R.TMR_FT_CNT.CNT n)) (s.ftUp n)
  | none =>
  match arrayIdx (A.TMR_FT_CNT 0) 0x20 16 a with
  | some n => s.cntWritten n (s.ftUp n)
  | none =>
  match arrayIdx (A.TMR_FT_CMP0 0) 0x20 16 a with
  | some n => s.cmpWritten n 0 (s.get (R.TMR_FT_CNT.CNT n)) (s.ftUp n) 0
  | none =>
  match arrayIdx (A.TMR_FT_CMP1 0) 0x20 16 a with
  | some n => s.cmpWritten n 1 (s.get (R.TMR_FT_CNT.CNT n)) (s.ftUp n) 0
  | none => s

/-- The WDG block (R359 to R366). -/
def State.wdgEffect (s : State) (a : Nat) (was data : Word) : State :=
  if a = A.WDG_CTRL then s.wdgCtrl was data false
  else if a = A.WDG_ANSWER then s.keyBreak.jackAnswer (getBits data 0 16) (s.get R.WDG_STATUS.TICK)
  else if a = A.WDG_CHECKIN then s.checkinWritten was data
  else if a = A.WDG_KEY then s.jackKey (getBits data 0 16) false
  else s.keyBreak

/-- The MBX block (R401, R403, R405, R406). -/
def State.mbxEffect (s : State) (ini : Initiator) (a : Nat) (was data : Word) : State :=
  match arrayIdx (A.MBX_LOCK 0) 4 16 a with
  | some n => s.lockWrite ini n was data
  | none =>
    if a = A.MBX_H2U_DATA then (if ini = .host then s.pushH2u data else s)
    else if a = A.MBX_U2H_ACK then s.ackU2h ini was data
    else if a = A.MBX_U2EC || a = A.MBX_EC2U || a = A.MBX_EC_STATUS then s.ecBoxWrite ini a was data
    else s

/-- A one-bit field in a word. -/
def wasOn (f : Fld) (was : Word) : Bool := getBits was f.lo f.width = 1

/-- The HIF block (R227, R230, R234, R262). -/
def State.hifEffect (s : State) (a : Nat) (was : Word) : State :=
  match arrayIdx (A.HIF_SQ_CFG 0) 0x20 8 a with
  | some q => s.sqWritten (Fin.ofNat 8 q) (wasOn (R.HIF_SQ_CFG.EN q) was)
  | none =>
  match arrayIdx (A.HIF_CQ_CFG 0) 0x20 8 a with
  | some q => s.cqWritten (Fin.ofNat 8 q) (wasOn (R.HIF_CQ_CFG.EN q) was)
  | none =>
    if a = A.HIF_CTRL then s.ctrlWritten (wasOn R.HIF_CTRL.ENABLE was)
    else if a = A.HIF_KICK then s.requestFetch
    else if a = A.HIF_EVQ_CFG then s.evqWritten (wasOn R.HIF_EVQ_CFG.EN was)
    else if msixReg a then s.flushMsix
    else s

/-- PD ports, phases and rails. -/
def State.powerEffect (s : State) (a : Nat) (was data : Word) : State :=
  match arrayIdx (A.PD_CTRL 0) 0x200 4 a with
  | some p => s.portCtrl (Fin.ofNat 4 p) was data
  | none =>
  match arrayIdx (A.PD_TC_CFG 0) 0x200 4 a with
  | some p => s.roleWritten (Fin.ofNat 4 p) was
  | none =>
  match arrayIdx (A.PD_PE_CFG 0) 0x200 4 a with
  | some p => s.eprCleared (Fin.ofNat 4 p)
  | none =>
  match arrayIdx (A.PH_HW 0) 0x40 6 a with
  | some n => s.drvWritten (Fin.ofNat 6 n) was
  | none =>
  match arrayIdx (A.SEQ_RAIL_CFG 0) 0x10 12 a with
  | some n => s.railWritten (Fin.ofNat 12 n) was
  | none => s

/-- What a write does beside storing: `was` is the word before it, `data` the word as it would be written whole. -/
def State.regEffect (s : State) (ini : Initiator) (a : Nat) (was data : Word) : State :=
  if 0x2000 ≤ a && a < 0x2800 then s.hifEffect a was
  else if 0x3500 ≤ a && a < 0x3800 then s.timerEffect a was data
  else if 0x3C00 ≤ a && a < 0x4000 then s.wdgEffect a was data
  else if 0x4800 ≤ a && a < 0x4C00 then s.mbxEffect ini a was data
  else if a = A.CAP_CFG then s.capCfgWritten was
  else if a = A.CAP_ONESHOT then s.oneshot data
  else if a = A.TWB_CFG then s.refreshAlert
  else if a = A.TWB_ALERT_MASK then s.alertWritten was
  else if a = A.CSC_PAR_CFG then s.parWritten was
  else if a = A.GLB_ACC_ERR_INFO then s.accErrCleared data
  else s.powerEffect a was data

/-! ### Paths -/

/-- A masked write of one register by an initiator with its effect (R252); all byte enables set. -/
def State.access (s : State) (ini : Initiator) (addr : Nat) (data mask : Word) : WriteEnd × State :=
  s.write ini addr data mask true fun was s =>
    s.regEffect ini (busAddr ini addr) was ((was &&& ~~~ mask) ||| (data &&& mask))

/-- A row's write of one register with its effect. -/
def State.busWrite (s : State) (ini : Initiator) (a : Nat) (data : Word) (full : Bool) : State :=
  s.rowWrite ini a data full fun was s => s.regEffect ini (busAddr ini a) was data

/-- REGISTER_WRITE (R16): whatever the address, the write has the effect of its register. -/
def execRegisterWrite (ini : Initiator) (addr : Nat) (data : Word) (full : Bool) (s : State) : Res :=
  .next <| s.when (s.reaches ini) fun s => s.busWrite ini addr data full

/-- ACC_ERR_CLEAR (R25). -/
def execAccErrClear (ini : Initiator) (s : State) : Res :=
  .next <| s.when (s.reaches ini) fun s => s.busWrite ini A.GLB_ACC_ERR_INFO 0x80000000 true

/-- HALF_PERIOD_WRITE (R55): the new value waits for the reference valley. -/
def execHalfPeriodWrite (ini : Initiator) (g : Fin 2) (data : Word) (full : Bool) (s : State) : Res :=
  .next <| s.when (s.reaches ini) fun s => s.busWrite ini (A.CNV_GRP_CFG g) data full

/-- PORT_DISABLE_WRITE (R188). -/
def execPortDisableWrite (ini : Initiator) (p : Fin 4) (data : Word) (full : Bool) (s : State) : Res :=
  .next <| s.when (s.reaches ini) fun s => s.busWrite ini (A.PD_CTRL p) data full

/-- PORT_ERR_RECOVERY (R188): a write with ERR_RECOVERY at 1 that leaves DISABLE as it is. -/
def execPortErrRecovery (ini : Initiator) (p : Fin 4) (data : Word) (full : Bool) (s : State) : Res :=
  .next <| s.when (s.reaches ini && getBits data 30 1 = 1 && getBits data 31 1 = s.get (R.PD_CTRL.DISABLE p)) fun s =>
    s.busWrite ini (A.PD_CTRL p) data full

/-- HIF_ENABLE (R262). -/
def execHifEnable (ini : Initiator) (data : Word) (full : Bool) (s : State) : Res :=
  .next <| s.when (s.reaches ini) fun s => s.busWrite ini A.HIF_CTRL data full

/-- KICK (R230). -/
def execKick (ini : Initiator) (data : Word) (full : Bool) (s : State) : Res :=
  .next <| s.when (s.reaches ini) fun s => s.busWrite ini A.HIF_KICK data full

/-- SQ_ENABLE (R234): a write of SQ_CFG with EN at 1. -/
def execSqEnable (ini : Initiator) (q : Fin 8) (data : Word) (full : Bool) (s : State) : Res :=
  .next <| s.when (s.reaches ini && getBits data (R.HIF_SQ_CFG.EN q).lo 1 = 1) fun s => s.busWrite ini (A.HIF_SQ_CFG q) data full

/-- SQ_DISABLE (R234): a write of SQ_CFG with EN at 0. -/
def execSqDisable (ini : Initiator) (q : Fin 8) (data : Word) (full : Bool) (s : State) : Res :=
  .next <| s.when (s.reaches ini && getBits data (R.HIF_SQ_CFG.EN q).lo 1 = 0) fun s => s.busWrite ini (A.HIF_SQ_CFG q) data full

/-- CQ_ENABLE (R234): a write of CQ_CFG with EN at 1. -/
def execCqEnable (ini : Initiator) (q : Fin 8) (data : Word) (full : Bool) (s : State) : Res :=
  .next <| s.when (s.reaches ini && getBits data (R.HIF_CQ_CFG.EN q).lo 1 = 1) fun s => s.busWrite ini (A.HIF_CQ_CFG q) data full

/-- CQ_DISABLE (R234): a write of CQ_CFG with EN at 0. -/
def execCqDisable (ini : Initiator) (q : Fin 8) (data : Word) (full : Bool) (s : State) : Res :=
  .next <| s.when (s.reaches ini && getBits data (R.HIF_CQ_CFG.EN q).lo 1 = 0) fun s => s.busWrite ini (A.HIF_CQ_CFG q) data full

/-- EVQ_ENABLE (R234): a write of EVQ_CFG with EN at 1. -/
def execEvqEnable (ini : Initiator) (data : Word) (full : Bool) (s : State) : Res :=
  .next <| s.when (s.reaches ini && getBits data R.HIF_EVQ_CFG.EN.lo 1 = 1) fun s => s.busWrite ini A.HIF_EVQ_CFG data full

/-- EVQ_DISABLE (R234): a write of EVQ_CFG with EN at 0. -/
def execEvqDisable (ini : Initiator) (data : Word) (full : Bool) (s : State) : Res :=
  .next <| s.when (s.reaches ini && getBits data R.HIF_EVQ_CFG.EN.lo 1 = 0) fun s => s.busWrite ini A.HIF_EVQ_CFG data full

/-- ONESHOT_GO (R290). -/
def execOneshotGo (ini : Initiator) (data : Word) (full : Bool) (s : State) : Res :=
  .next <| s.when (s.reaches ini && getBits data 31 1 = 1) fun s => s.busWrite ini A.CAP_ONESHOT data full

/-! ### Posted writes to the AON domain (R22, R392) -/

/-- What a crossed write does: a compare channel that is enabled, or whose pair applies, may fire at once. -/
def State.aonEffect (s : State) (a frame : Nat) : State :=
  match arrayIdx (A.TMR_CMP_HI 0) 0x10 8 a with
  | some n => { s with tmr := { s.tmr with cmp := s.tmr.cmp.set (n % 8) (s.cmpRegs n) (Nat.mod_lt _ (by decide)) } }.cmpCheck
      (Fin.ofNat 8 n) frame
  | none =>
  match arrayIdx (A.TMR_CMP_CFG 0) 0x10 8 a with
  | some n => s.cmpCheck (Fin.ofNat 8 n) frame
  | none => s

/-- The oldest posted write takes effect. -/
def State.crossAon (s : State) (frame : Nat) : State :=
  match s.aonq with
  | [] => s
  | w :: rest =>
    let s := { s with aonq := rest }
    match RegMap.find w.addr with
    | none => s
    | some d => (s.putReg d w.addr (d.merge (s.word w.addr) w.data w.mask)).aonEffect w.addr frame

/-- The address of the oldest posted write. -/
def State.aonFront (s : State) : Option Nat := s.aonq.head?.map fun (w : AonWrite) => w.addr

/-- AON_WRITE_CROSSED (R22): `frame` is the ADC frame that a capture marks where a compare channel fires. -/
def execAonWriteCrossed (frame : Nat) (s : State) : Res :=
  .next <| s.when (!((List.range 8).any fun (n : Nat) => s.aonFront = some (A.TMR_CMP_HI n))) fun s => s.crossAon frame

/-- AON_CMP_APPLY (R392). -/
def execAonCmpApply (n : Fin 8) (frame : Nat) (s : State) : Res :=
  .next <| s.when (s.aonFront = some (A.TMR_CMP_HI n)) fun s => s.crossAon frame

/-! ### SET_PARAM and GET_PARAM (R252, R253) -/

/-- Fields of a register that a write stored at a limit. -/
def State.clampCount (s : State) (a : Nat) (data mask : Word) : Nat :=
  match RegMap.find a with
  | none => 0
  | some d =>
    let base := s.settled a
    let m := d.merge (base.word a) data mask
    let x := (base.putReg d a m).word a ^^^ m
    (d.fields.filter fun (f : FieldDesc) => f.writable && getBits x f.lo f.width != 0).length

/-- The register as initiator `ini` will find it once its posted writes have crossed. -/
def State.seenBy (s : State) (ini : Initiator) (a : Nat) : Nat :=
  if msixReg a && ini != .host then 0 else ((s.settled a).view a).toNat

/-- A masked write and its answer (R252, R338): the register before and after, and the status. `dv` is the byte offset of VALUE
in the parameters, `da` of ADDR. -/
def State.maskedWrite (s : State) (ini : Initiator) (a : Nat) (data mask : Word) (da dv : Nat) : Reply × State :=
  let before := s.seenBy ini a
  let n := s.clampCount a data mask
  let r := s.access ini a data mask
  let after := r.2.seenBy ini a
  let res := after + 2 ^ 32 * before
  match r.1 with
  | .stored true => ({ status := 0x01, diagOfs := 16 + dv, diagCode := n, result := res }, r.2)
  | .stored false => ({ status := 0x00, result := res }, r.2)
  | .refused c => ({ status := if c = 2 then 0x21 else 0x11, diagOfs := if c = 2 then 0xFF else 16 + da }, r.2)
  | .locked => ({ status := 0x20 }, r.2)
  | .badCode => ({ status := 0x11, diagOfs := 16 + dv }, r.2)

/-- SET_PARAM (R252). -/
def opSetParam (c : Cmd) (s : State) : CmdRes × State :=
  let mask := BitVec.ofNat 32 (c.num 8 4)
  let a := c.num 0 2
  if !RegMap.mapped a || a % 4 != 0 then
    let r := s.maskedWrite .application a 0 0 0 4
    (.done r.1, r.2)
  else if mask = 0 then (badField 8, s)
  else
    let r := s.maskedWrite .application a (BitVec.ofNat 32 (c.num 4 4)) mask 0 4
    (.done r.1, r.2)

/-- SET_PARAM (R252). -/
def execSetParam (s : State) : Res := .next <| s.when true fun s => s.runCmd (isOp 0x01) opSetParam

/-- GET_PARAM (R253). -/
def opGetParam (c : Cmd) (s : State) : CmdRes × State :=
  let a := c.num 0 2
  let bad : Bool := (s.refusal .application a false true).isSome
  let r := s.read .application a
  (if bad then badField 0 else .done { status := 0x00, result := r.1.toNat }, r.2)

/-- GET_PARAM (R253). -/
def execGetParam (s : State) : Res := .next <| s.when true fun s => s.runCmd (isOp 0x02) opGetParam

/-! ### REG_WRITE (R309) -/

/-- REG_WRITE's status. -/
def writeStatus (e : WriteEnd) : Nat :=
  match e with
  | .stored _ => 0x00
  | .refused c => if c = 2 then 0x21 else 0x11
  | .locked => 0x20
  | .badCode => 0x11

/-- REG_WRITE (R309). -/
def execRegWrite (w : TwiWrite) (s : State) : Res :=
  .next <| s.nativeWrite 0x09 true true 6 w fun d s =>
    let r := s.access .ec (leAt d 0 2) (BitVec.ofNat 32 (leAt d 2 4)) 0xFFFFFFFF
    (writeStatus r.1, r.2)

end Sys2Proof.Machine
end

