-- ==== Sys2Proof/Machine/Cascade.lean ====
section
/-! DEFINITION. The cascade (12_cascade.md, R148 to R150): frames and slots, discovery, removal and readmission, local
fallback, carrier locking, parallel groups, tunnelled access, KEEP-ALIVE across units, and the cascade commands. The start of
a long press (R44) stands here, since a slot can bring it. -/

namespace Sys2Proof.Machine

/-! ### Parts of the state -/

/-- The unit's index as strapped. -/
def State.idx (s : State) : Fin 4 := Fin.ofNat 4 (s.get R.MOD_STRAP.IDX)

def State.modPeer (s : State) (u : Fin 4) (f : Peer → Peer) : State :=
  { s with csc := { s.csc with peers := s.csc.peers.set u (f (s.csc.peers.get u)) } }

def State.modCsc (s : State) (f : Cascade → Cascade) : State := { s with csc := f s.csc }

/-- What is known of another unit. -/
def State.peer (s : State) (u : Fin 4) : Peer := s.csc.peers.get u

/-- The CSC clock runs. -/
def State.cscRuns (s : State) : Bool := bitAt (s.get R.GLB_CLK_STATUS.RUN) 9

/-- Starts or stops the CSC clock (R18, R322). -/
def State.setCscClock (s : State) (b : Bool) : State := s.setBit R.GLB_CLK_STATUS.RUN 9 b

/-- Silence does not count: after the sleep flag, and during a wake (R333). -/
def State.quietOk (s : State) : Bool := s.csc.asleep || s.csc.waking != 0

/-! ### The start of a long press (R44) -/

/-- Outstanding commands end with ABORTED. -/
def State.abortCmds (s : State) : State :=
  s.cmds.foldl (fun (acc : State) (c : Cmd) => acc.finish c.handle { status := 0x31, diagCode := ofBool c.started }) s

/-- T_LONGPRESS is reached, here or in another unit of the cascade (R44, R334). -/
def State.longPressStart (s : State) : State :=
  if s.md.longPress != 0 then s
  else
    let s := { s with md := { s.md with keeper := 1, longPress := 1, entry := .none, kaReturn := false },
                      csc := { s.csc with pressDue := true, sleepN := none, refused := false } }
    let s := s.set R.MOD_MODE_STATUS.ENTRY_PENDING 0
    let s := s.raiseMode s.mode s.mode 0x04
    let s := s.abortCmds.stopRails
    s.eachPort allPorts fun s p => s.stopSource p 800

/-! ### Tunnelled access (R331) -/

/-- Changes the queue of requests. -/
def State.modQueue (s : State) (f : List TunReq → List TunReq) : State := { s with csc := { s.csc with queue := f s.csc.queue } }

/-- The target of a tunnelled request executes it, and owes the reply. -/
def State.serveTunnel (s : State) (asker : Fin 4) (isWrite : Bool) (a : Nat) (v mask : Word) : State :=
  if isWrite then
    let r := s.maskedWrite .cascade a v mask 2 4
    let res := r.1.result
    let t := Tunnel.reply asker r.1.status r.1.diagOfs r.1.diagCode (BitVec.ofNat 32 (res / 2 ^ 32)) (BitVec.ofNat 32 res)
    r.2.modCsc fun c => { c with owed := some t }
  else
    let bad : Bool := (s.refusal .cascade a false true).isSome
    let r := s.read .cascade a
    let after := BitVec.ofNat 32 (r.2.seenBy .cascade a)
    let t := if bad then Tunnel.reply asker 0x11 18 0 0 0 else Tunnel.reply asker 0x00 0xFF 0 r.1 after
    r.2.modCsc fun c => { c with owed := some t }

/-- A reply ends the oldest request sent to its sender. -/
def State.takeReply (s : State) (u : Fin 4) (r : Reply) : State :=
  match s.csc.queue.find? fun (q : TunReq) => q.target = u && q.sent.isSome with
  | none => s
  | some q => (s.modQueue fun qs => qs.filter fun (x : TunReq) => x.handle != q.handle).complete q.handle r

/-- The tunnel part of a slot. -/
def State.takeTunnel (s : State) (u : Fin 4) (t : Option Tunnel) : State :=
  match t with
  | some (.request target w a v m) => if target = s.idx then s.serveTunnel u w a v m else s
  | some (.reply asker st ofs code before after) =>
    if asker = s.idx then
      s.takeReply u { status := st, diagOfs := ofs, diagCode := code,
                      result := if st = 0x00 || st = 0x01 then after.toNat + 2 ^ 32 * before.toNat else 0 }
    else s
  | none => s

/-- Frames since the requests were sent. -/
def State.ageTunnel (s : State) : State :=
  s.modQueue fun qs => qs.map fun (q : TunReq) => { q with sent := q.sent.map (· + 1) }

/-- What the unit's slot tunnels: the reply it owes, or its next request. -/
def State.nextTunnel (s : State) : Option Tunnel × State :=
  match s.csc.owed with
  | some t => (some t, s.modCsc fun c => { c with owed := none })
  | none =>
    match s.csc.queue.find? fun (q : TunReq) => q.sent.isNone with
    | none => (none, s)
    | some q =>
      (some (.request q.target q.isWrite q.addr q.value q.mask),
        s.modQueue fun qs => qs.map fun (x : TunReq) => if x.handle = q.handle then { x with sent := some 0 } else x)

/-- Requests to a unit that is removed or excluded end with BAD_UNIT (R335). -/
def State.voidTunnel (s : State) (u : Fin 4) : State :=
  let gone := s.csc.queue.filter fun (q : TunReq) => q.target = u
  gone.foldl (fun (acc : State) (q : TunReq) => acc.complete q.handle { status := 0x13 })
    (s.modQueue fun qs => qs.filter fun (q : TunReq) => q.target != u)

/-! ### Members (R148, R150, R326) -/

/-- A unit leaves the budget: its terms and its intents no longer count. -/
def State.dropMember (s : State) (u : Fin 4) : State :=
  if !s.bit R.BGT_STATUS.MEMBERS u || u = 0 then s
  else
    let s := (s.setBit R.BGT_STATUS.MEMBERS u false).dropIntents fun i => i.owner = u
    let s := (s.modPeer u fun p => { p with good := 0 }).voidTunnel u
    s.raiseCascade u 0x02

/-- Three silent frames remove a follower. -/
def State.removeMember (s : State) (u : Fin 4) : State :=
  ((s.dropMember u).set R.BGT_EVENT.FOLLOWER_LOST 1).raiseBudget 0x05 u

/-- U0 stops the link and runs alone. -/
def State.stopLink (s : State) : State :=
  let s := ((s.dropMember 1).dropMember 2).dropMember 3
  ((s.set R.CSC_STATUS.STATE 0).set R.CSC_STATUS.DISCOVERY 0).setCscClock false

/-- FOLLOWER_REMOVE (R150, R326). -/
def execFollowerRemove (u : Fin 4) (s : State) : Res :=
  .next <| s.when (s.member u && 3 ≤ (s.peer u).silent && !s.quietOk) fun s => s.removeMember u

/-- FOLLOWER_READMIT (R326); `addressed` tells that the follower's two-wire address is valid. -/
def execFollowerReadmit (u : Fin 4) (addressed : Bool) (s : State) : Res :=
  .next <| s.when (s.get R.CSC_STATUS.STATE = 1 && u != 0 && !s.member u && 16 ≤ (s.peer u).good &&
      (s.bit R.CSC_CFG.EXPECT u || s.on R.CSC_STATUS.DISCOVERY) && !s.bit R.CSC_STATUS.EXCLUDED u) fun s =>
    let s := (s.setBit R.BGT_STATUS.MEMBERS u true).raiseCascade u 0x01
    if addressed then s else s.sendAssign u

/-! ### Local fallback (R150, R326, R327) -/

/-- A follower without a master runs a one-unit Puppeteer. -/
def State.enterFallback (s : State) : State :=
  let s := ((s.set R.CSC_STATUS.STATE 3).set R.BGT_STATUS.SOURCE 2).set R.BGT_EVENT.MASTER_LOST 1
  let s := (s.dropIntents fun _ => true).modCsc fun c => { c with forward := [], waking := 0, sleepN := none, refused := false }
  let s := (s.modPeer 0 fun p => { p with good := 0 }).parStop
  (s.raiseBudget 0x06 s.idx).raiseCascade s.idx 0x03

/-- LOCAL_FALLBACK_ENTER (R150, R322): no master frame for three frames, or none since the boot. -/
def execLocalFallbackEnter (s : State) : Res :=
  .next <| s.when (s.isFollower && s.on R.CSC_CFG.LINK_EN && s.sysRuns && s.md.boot = .ready && !s.quietOk &&
      (s.get R.CSC_STATUS.STATE = 0 || (s.follows && 3 ≤ (s.peer 0).silent))) fun s => s.enterFallback

/-- The follower takes its strings from U0. -/
def State.joinMaster (s : State) : State := (s.set R.CSC_STATUS.STATE 2).set R.BGT_STATUS.SOURCE 1

/-- LOCAL_FALLBACK_LEAVE (R326). -/
def execLocalFallbackLeave (s : State) : Res :=
  .next <| s.when (s.get R.CSC_STATUS.STATE = 3 && !s.csc.barred && 16 ≤ (s.peer 0).good) fun s =>
    s.joinMaster.raiseCascade s.idx 0x04

/-! ### What a slot carries (R324) -/

/-- The flags of every slot. -/
def State.flagPart (s : State) : FlagPart :=
  { safe := s.inSafe, cause := s.get R.MOD_MODE_STATUS.SAFE_CAUSE, retired := s.get R.CNV_STATUS.RETIRED,
    vdrvUv := s.on R.CNV_STATUS.VDRV_UV, drop := s.get (R.MOD_IN_STATE.DROP 0) + 2 * s.get (R.MOD_IN_STATE.DROP 1),
    longPress := s.csc.pressDue, mode := s.mode, linkUp := s.hif.linkUp, fallback := s.get R.CSC_STATUS.STATE = 3 }

/-- The local group of a parallel pair. -/
def State.parGroup (s : State) : Fin 2 := Fin.ofNat 2 (s.get R.CSC_PAR_CFG.GROUP)

/-- The parallel pair's part (R330): the owner's bus, or the partner's phases. -/
def State.parPartOut (s : State) : Option ParPart :=
  let g := s.parGroup
  if !s.on R.CSC_PAR_CFG.EN then none
  else if s.on R.CSC_PAR_CFG.OWNER then
    let p := s.busPort g
    let up : Bool := s.sinkConn g
    some { closed := up, vExp := if up then s.vExp p else 0, iin := s.iinEff g,
           inP := if up then s.get (R.BGT_STR_IN.P p) else 0, phases := s.nonRetired g }
  else some { closed := false, vExp := 0, iin := 0, inP := 0, phases := if s.csc.parRun then s.nonRetired g else 0 }

/-- P_SYS + P_AUX of this unit in mW. -/
def State.ownDemand (s : State) : Nat :=
  s.get R.MOD_VSYS_STATUS.VSYS * (s.geti R.MOD_SYS_MEAS.ISYS * 2).toNat / 1000 + s.bgt.pAux

/-- What a follower's sink group falls short of its part by while its own limiter binds, in mA (R325). -/
def State.ownShort (s : State) (g : Fin 2) : Nat :=
  if s.groupSinks g && s.ownLimited g then
    (s.csc.parts.get g + s.geti R.MOD_SYS_MEAS.ISYS * 2 - s.geti (R.CNV_GRP_STATUS.IREF g) * 2).toNat
  else 0

/-- The report of a follower's slot. -/
def State.reportPart (s : State) (sum : Nat × Nat × Nat) : ReportPart :=
  { demand := s.ownDemand, strSrc := allPorts.map fun p => if s.sourcing p then s.strOf p else 0, drw := s.bgt.drw,
    cReq := s.cReqOwn (s.get R.MOD_BAT_MEAS.VBAT), strIn := allPorts.map fun p => s.inNow p,
    inGrp := [0, 1].map fun (g : Fin 2) =>
      if s.groupSinks g then s.parPart g (if s.sinkConn g then s.inNow (s.busPort g) else s.stringIn g) else 0,
    short := s.ownShort 0 + s.ownShort 1, pmax := [s.get (R.CNV_GRP_PMAX.PMAX 0), s.get (R.CNV_GRP_PMAX.PMAX 1)], refuse := !s.kaFree,
    udid := sliceBytes s.udid (2 * (s.get R.CSC_STATUS.FRAME % 8)) 2, intent := s.csc.forward.head?, summary := sum }

/-- The part of U0's unit-level candidate for a follower's two groups (R325). -/
def State.grantParts (s : State) (u : Fin 4) : List Int :=
  let all := s.shareP 0 + s.shareP 1 + s.followerP
  match (s.peer u).report with
  | none => [0, 0]
  | some r => [0, 1].map fun (g : Nat) =>
      if all = 0 then 0 else s.stage.cand * (reportP r g : Nat) / (all : Nat)

/-- What the master slot grants each unit. -/
def State.grantsOut (s : State) : List Grant :=
  allUnits.map fun u => if s.member u then { s.csc.grants.get u with parts := s.grantParts u } else {}

/-- The master's part. -/
def State.masterPart (s : State) : MasterPart :=
  { frame := s.get R.CSC_STATUS.FRAME, throt := s.on R.BGT_STATUS.THROT, relief := s.get R.BGT_STATUS.RELIEF,
    longPress := s.csc.pressDue, sleep := s.csc.sleepN.isSome, excluded := s.get R.CSC_STATUS.EXCLUDED, target := s.vsysTarget,
    vsys := s.get R.MOD_VSYS_STATUS.VSYS, grants := s.grantsOut }

/-- Sends the unit's slot; what was due in it has gone. -/
def State.sendSlot (s : State) (m : Option MasterPart) (r : Option ReportPart) : State :=
  let t := s.nextTunnel
  let s := t.2
  let slot : Slot := { sender := s.idx, master := m, report := r, flags := s.flagPart, par := s.parPartOut, tunnel := t.1 }
  (s.emit (.csc slot)).modCsc fun c => { c with pressDue := false, forward := if m.isNone then c.forward.tail else c.forward }

/-- The unit's own channel summary (R332): channel `k`. -/
def State.ownSummary (s : State) (v : Nat × Nat × Nat) : State :=
  s.modPeer s.idx fun p => { p with sums := p.sums.set (s.get R.CSC_STATUS.FRAME % 16) v (Nat.mod_lt _ (by decide)) }

/-- A frame's number and time. -/
def State.setFrame (s : State) (n : Nat) : State :=
  let t := s.tsNow
  ((s.set R.CSC_STATUS.FRAME n).set R.CSC_FRAME_TS_LO.TS (t % 2 ^ 32)).set R.CSC_FRAME_TS_HI.TS (t / 2 ^ 32)

/-! ### The master's frame (R322, R323) -/

/-- U0 sends frames: its link is enabled, and it looks for followers or expects one. -/
def State.linkWanted (s : State) : Bool :=
  s.on R.CSC_CFG.LINK_EN && (s.on R.CSC_STATUS.DISCOVERY || s.get R.CSC_CFG.EXPECT / 2 != 0)

/-- CSC_FRAME_START (R323): `own` is the unit's own summary. Changes of EXPECT and LINK_EN take effect here (R335). -/
def execCscFrameStart (own : Nat × Nat × Nat) (s : State) : Res :=
  .next <| s.when (s.isMaster && s.md.boot = .ready && s.sysRuns && !s.csc.barred) fun s =>
    if !s.linkWanted then s.ifDo (s.get R.CSC_STATUS.STATE = 1) State.stopLink
    else
      let s := (s.set R.CSC_STATUS.STATE 1).setCscClock true
      let s := (s.setFrame (s.get R.CSC_STATUS.FRAME + 1)).ageTunnel
      let s := s.modCsc fun c => { c with sleepN := c.sleepN.map (· + 1), waking := c.waking - 1 }
      (s.ownSummary own).sendSlot (some s.masterPart) none

/-- CSC_DISCOVERY_END (R322). -/
def execCscDiscoveryEnd (s : State) : Res :=
  .next <| s.when (s.on R.CSC_STATUS.DISCOVERY) fun s =>
    let s := s.set R.CSC_STATUS.DISCOVERY 0
    let s := if s.get R.CSC_CFG.EXPECT = 0 then s.set R.CSC_CFG.EXPECT (setBitAt s.csc.heardWin 0) else s
    let s := s.raiseCascade s.idx 0x08
    if s.get R.CSC_CFG.EXPECT = 1 then s.stopLink else s

/-! ### A slot that is missed (R323, R328, R335, R336) -/

/-- The silence of a slot counts in the statistics: a member's, or the master's for a follower. -/
def State.silenceCounts (s : State) (u : Fin 4) : Bool := !s.quietOk && (s.member u || (u = 0 && s.follows))

/-- CRC failures of a slot over the last 100 frames. -/
def crcFails (bs : List Bool) : Nat := (bs.filter fun b => b).length

/-- Adds a frame to a slot's CRC record: 8 failures of 100 raise a FAULT event. -/
def State.crcFrame (s : State) (u : Fin 4) (bad : Bool) : State :=
  let old := (s.peer u).crcs
  let new := (bad :: old).take 100
  let s := s.modPeer u fun p => { p with crcs := new }
  if crcFails old < 8 && 8 ≤ crcFails new then s.raiseFault 0x0A 0x4 u 0 else s

/-- The slot of the other unit of a parallel pair is silent for three frames. -/
def State.parSilent (s : State) (u : Fin 4) : State :=
  if !s.on R.CSC_PAR_CFG.EN || s.get R.CSC_PAR_CFG.PARTNER != u || (s.peer u).silent < 3 then s
  else if s.on R.CSC_PAR_CFG.OWNER then s.modCsc fun c => { c with parN := 0 }
  else s.parStop

/-- A slot was silent, or failed its CRC with or without energy on the bus. -/
def State.slotMissed (s : State) (u : Fin 4) (bad energy : Bool) : State :=
  let s := s.setBit R.CSC_STATUS.HEARD u false
  let s := s.ifDo bad fun s => (s.set R.CSC_EVENT.CRC_ERR 1).bump R.CSC_STATS.CRC_CNT
  let s := s.ifDo (s.silenceCounts u) fun s => s.bump R.CSC_STATS.SILENT_CNT
  let quiet := s.quietOk
  let s := s.modPeer u fun p => { p with silent := if quiet then p.silent else p.silent + 1, good := 0,
                                         clash := if bad && energy then p.clash + 1 else 0 }
  (s.crcFrame u bad).parSilent u

/-! ### A slot that is received (R324 to R334) -/

/-- Stores what every unit keeps of another's slot. -/
def State.storeSlot (s : State) (u : Fin 4) (x : Slot) : State :=
  let f := s.get R.CSC_STATUS.FRAME
  s.modPeer u fun p =>
    let p := { p with flags := x.flags, silent := 0, good := p.good + 1, clash := 0 }
    match x.report with
    | none => p
    | some r =>
      let k := 2 * (f % 8)
      { p with report := some r, udid := (p.udid.set k (r.udid.getD 0 0)).set (k + 1) (r.udid.getD 1 0),
               parts := setBitAt p.parts (f % 8), sums := p.sums.set (f % 16) r.summary (Nat.mod_lt _ (by decide)) }

/-- A long press in another unit (R334). -/
def State.takePress (s : State) (u : Fin 4) (x : Slot) : State :=
  let told : Bool := x.flags.longPress || (match x.master with | some m => m.longPress | none => false)
  if told && s.md.longPress = 0 then (s.raiseCascade u 0x07).longPressStart else s

/-- A forwarded intent takes a slot of the master's (R148). -/
def State.takeIntent (s : State) (u : Fin 4) (i : Option IntentFwd) : State :=
  match i, s.freeSlot with
  | some i, some k => (s.addIntent (Fin.ofNat 8 k) i.dP i.start (i.start + tsUs i.dur) u).2
  | _, _ => s

/-- U0 takes a follower's report. -/
def State.takeReport (s : State) (u : Fin 4) (known : Bool) (x : Slot) : State :=
  match x.report with
  | none => s
  | some r =>
    let s := s.ifDo (s.on R.CSC_STATUS.DISCOVERY) fun s => s.modCsc fun c => { c with heardWin := setBitAt c.heardWin u }
    let s := s.ifDo (s.member u) fun s => s.takeIntent u r.intent
    let s := s.ifDo (r.refuse && s.csc.sleepN.isSome) fun s => s.modCsc fun c => { c with refused := true }
    if !known && (s.peer u).parts = 255 then s.sendAssign u else s

/-- The other unit of the parallel pair (R330): the partner follows the owner's pair, the owner learns the partner's phases. -/
def State.takePar (s : State) (u : Fin 4) (x : Slot) : State :=
  match x.par with
  | none => s
  | some q =>
    if !s.on R.CSC_PAR_CFG.EN || s.get R.CSC_PAR_CFG.PARTNER != u then s
    else
      let s := s.modCsc fun c => { c with parN := q.phases }
      if s.on R.CSC_PAR_CFG.OWNER then s
      else
        let s := s.modCsc fun c => { c with parIin := q.iin, parInP := q.inP, parVexp := q.vExp }
        let both : Bool := s.follows || s.member u
        if !q.closed then s.parStop
        else if both && !s.csc.parRun && s.mayswitch then
          (s.modCsc fun c => { c with parRun := true }).groupStart s.parGroup
        else s

/-- A follower's source string from U0 (R140, R144, R149): a lower one cuts the port. -/
def State.takeString (s : State) (g : Grant) (p : Fin 4) : State :=
  let x := g.strSrc.getD p (s.strOf p)
  if s.sourcing p && x < s.strOf p then s.cutTo p x else s

/-- The strings, ceiling and parts that the master slot grants this follower (R149, R324, R325). -/
def State.takeGrant (s : State) (g : Grant) : State :=
  let s := s.eachPort allPorts fun s p => s.set (R.BGT_STR_IN.P p) (if (s.busOf p).isSome then g.strIn.getD p 0 else 0)
  let s := s.eachPort allPorts fun s p => s.takeString g p
  (s.set R.BGT_THROT_CEIL.P g.ceil).modCsc fun c =>
    { c with parts := (c.parts.set 0 (g.parts.getD 0 0)).set 1 (g.parts.getD 1 0) }

/-- This follower's index is excluded: it stops sending, in local fallback until AON power-on reset (R328). -/
def State.excludeSelf (s : State) (m : MasterPart) : State :=
  if !bitAt m.excluded s.idx || s.csc.barred then s
  else
    let s := s.modCsc fun c => { c with barred := true }
    if s.get R.CSC_STATUS.STATE = 3 then s else s.enterFallback

/-- The sleep flag (R333): frames with it so far, and a refusal of this unit among them. -/
def State.takeSleep (s : State) (m : MasterPart) : State :=
  let refuse := !s.kaFree
  s.modCsc fun c =>
    if m.sleep then { c with sleepN := some (c.sleepN.getD 0 + 1), refused := (c.sleepN.isSome && c.refused) || refuse }
    else { c with sleepN := none, refused := false }

/-- A follower takes the master slot, and sends its own slot of the frame (R322, R324). -/
def State.takeMaster (s : State) (m : MasterPart) (own : Nat × Nat × Nat) : State :=
  let s := (s.setFrame m.frame).set R.CSC_STATUS.EXCLUDED m.excluded
  let s := s.modCsc fun c => { c with vsysRep := m.vsys, waking := 0, asleep := false }
  let s := s.ifDo (s.get R.CSC_STATUS.STATE = 0 && !bitAt m.excluded s.idx) State.joinMaster
  let s := (s.excludeSelf m).takeSleep m
  let s := s.ifDo s.follows fun s => (s.takeGrant (m.grants.getD s.idx {})).set R.BGT_STATUS.RELIEF m.relief
  let s := s.ownSummary own
  if s.csc.barred then s else s.sendSlot none (some (s.reportPart own))

/-- Another unit's slot that is valid. -/
def State.slotGood (s : State) (u : Fin 4) (x : Slot) (own : Nat × Nat × Nat) : State :=
  let known : Bool := (s.peer u).parts = 255
  let s := (s.setBit R.CSC_STATUS.HEARD u true).storeSlot u x
  let s := (s.crcFrame u false).takePress u x
  let s := s.ifDo (s.get R.CSC_STATUS.STATE = 1) fun s => s.takeReport u known x
  let s := s.ifDo s.isFollower fun s => s.ifDo ((x.report.map fun (r : ReportPart) => r.refuse) = some true && s.csc.sleepN.isSome)
    fun s => s.modCsc fun c => { c with refused := true }
  let s := (s.takePar u x).takeTunnel u x.tunnel
  match x.master with
  | some m => if s.isFollower && u = 0 then s.takeMaster m own else s
  | none => s

/-- The agent is off: the unit runs alone (R339). -/
def State.agentOff (s : State) : State :=
  if s.get R.CSC_STATUS.STATE = 0 then s
  else ((s.set R.CSC_STATUS.STATE 0).set R.BGT_STATUS.SOURCE 0).parStop

/-- CSC_SLOT_RX (R324): the slot of unit `u` passes; `own` is the unit's own summary for its slot of the frame. -/
def execCscSlotRx (u : Fin 4) (x : SlotIn) (own : Nat × Nat × Nat) (s : State) : Res :=
  .next <| s.when (s.cscRuns && u != s.idx && (s.isFollower || s.get R.CSC_STATUS.STATE = 1)) fun s =>
    if !s.on R.CSC_CFG.LINK_EN then (if s.isFollower && u = 0 then s.agentOff else s)
    else
      let s := s.ifDo (s.isFollower && u = 0) fun s => s.ageTunnel
      match x with
      | .silent => s.slotMissed u false false
      | .bad e => s.slotMissed u true e
      | .good y => s.slotGood u y own

/-! ### Errors of the one-master rule (R328) -/

/-- TWO_MASTERS (R328). -/
def execTwoMasters (s : State) : Res :=
  .next <| s.when (s.isMaster && s.get R.CSC_STATUS.STATE = 1) fun s =>
    let s := (s.modCsc fun c => { c with barred := true }).stopLink
    (s.set R.CSC_EVENT.TWO_MASTERS 1).raiseFault 0x0A 0x1 s.idx 0

/-- INDEX_CLASH (R328). -/
def execIndexClash (u : Fin 4) (s : State) : Res :=
  .next <| s.when (s.get R.CSC_STATUS.STATE = 1 && u != 0 && 3 ≤ (s.peer u).clash && !s.bit R.CSC_STATUS.EXCLUDED u) fun s =>
    let s := ((s.setBit R.CSC_STATUS.EXCLUDED u true).set R.CSC_EVENT.INDEX_CLASH 1).raiseFault 0x0A 0x2 u 0
    (s.dropMember u).voidTunnel u

/-! ### Carrier locking and parallel groups (R329, R330) -/

/-- A group is to lock to CSC_SYNC. -/
def State.locks (s : State) : Bool := s.on (R.CSC_LOCK.LOCK 0) || s.on (R.CSC_LOCK.LOCK 1)

/-- SYNC_LOCK (R329): the locked groups stand at the targets; `half` is the sync carrier's half-period. -/
def execSyncLock (half : Nat) (s : State) : Res :=
  .next <| s.when (s.locks && !s.on R.CSC_STATUS.SYNC_LOCK && s.sysRuns) fun s =>
    let s := s.modCsc fun c => { c with syncHalf := half }
    (s.set R.CSC_STATUS.SYNC_LOCK 1).raiseCascade s.idx 0x05

/-- SYNC_LOST (R329): the period is kept. -/
def execSyncLost (s : State) : Res :=
  .next <| s.when (s.locks && s.on R.CSC_STATUS.SYNC_LOCK) fun s =>
    let s := (s.set R.CSC_STATUS.SYNC_LOCK 0).set R.CSC_EVENT.SYNC_LOST 1
    (s.raiseFault 0x0A 0x3 s.idx 0).raiseCascade s.idx 0x06

/-- PAR_CFG_APPLY (R330). -/
def execParCfgApply (s : State) : Res :=
  .next <| s.when true fun s =>
    match s.csc.parHeld with
    | none => s
    | some w =>
      if s.parEmpty (s.word A.CSC_PAR_CFG) && s.parEmpty w then
        (s.setWord A.CSC_PAR_CFG w).modCsc fun c => { c with parHeld := none, parN := 0 }
      else s

/-! ### KEEP-ALIVE across the cascade (R333) -/

/-- CSC_SLEEP_ENTER (R333): three frames of the sleep flag have passed. -/
def execCscSleepEnter (s : State) : Res :=
  .next <| s.when (match s.csc.sleepN with | some n => 3 ≤ n | none => false) fun s =>
    if s.csc.refused then
      if s.isFollower then s.modCsc fun c => { c with sleepN := none, refused := false } else s.abandonKa
    else if s.isFollower then s.ifDo s.kaOk fun s => s.enterKa 0x00
    else if s.kaOk then s.enterKa s.md.kaCause
    else s.abandonKa

/-- CSC_WAKE_BURST (R333). -/
def execCscWakeBurst (s : State) : Res :=
  .next <| s.when (s.inKa && s.multi) fun s => s.wakeUp true true

/-- CSC_WAKE_NO_MASTER (R333). -/
def execCscWakeNoMaster (s : State) : Res :=
  .next <| s.when (s.follows && !s.inKa && s.csc.waking != 0) fun s => s.enterFallback

/-! ### Commands (R331, R337, R338) -/

/-- TUNNEL_TIMEOUT (R331). -/
def execTunnelTimeout (s : State) : Res :=
  .next <| s.when true fun s =>
    match s.csc.queue.find? fun (q : TunReq) => 5 ≤ q.sent.getD 0 with
    | none => s
    | some q =>
      ((s.modQueue fun qs => qs.filter fun (x : TunReq) => x.handle != q.handle).set R.CSC_EVENT.TUN_TO 1).complete q.handle
        { status := 0x32 }

/-- The unit's entry is not zero: heard in the last frame, or this unit. -/
def State.heard (s : State) (u : Fin 4) : Bool := u = s.idx || s.bit R.CSC_STATUS.HEARD u

/-- Bytes of the channel summaries. -/
def sumBytes (v : Vector (Nat × Nat × Nat) 16) : List Byte :=
  v.toList.flatMap fun (x : Nat × Nat × Nat) => leBytes 2 x.1 ++ leBytes 2 x.2.1 ++ leBytes 2 x.2.2

/-- A unit's entry (R337). -/
def State.cascadeEntry (s : State) (u : Fin 4) : List Byte :=
  if !s.heard u then leBytes 1 u ++ List.replicate 127 0
  else
    let own : Bool := u = s.idx
    let p := s.peer u
    let f := if own then s.flagPart else p.flags
    let r := if own then s.reportPart (0, 0, 0) else p.report.getD {}
    leBytes 1 u ++
      leBytes 1 (1 + 2 * ofBool (s.bit R.BGT_STATUS.MEMBERS u) + 4 * ofBool f.fallback +
        8 * ofBool (s.bit R.CSC_STATUS.EXCLUDED u) + 16 * ofBool f.safe + 32 * ofBool f.linkUp) ++
      leBytes 1 f.mode ++ leBytes 1 f.retired ++ leBytes 4 r.demand ++ leBytes 4 (ReportPart.supply r) ++ leBytes 4 r.drw ++
      (if own then s.udid else p.udid) ++ sumBytes p.sums

/-- CASCADE_STATUS (R337). -/
def opCascadeStatus (c : Cmd) (s : State) : CmdRes × State :=
  let u := c.byte 0
  let bs := if u = 0xFF then allUnits.flatMap fun v => s.cascadeEntry v else s.cascadeEntry (Fin.ofNat 4 u)
  (.done { status := 0x00, buf := bs }, s)

/-- CASCADE_STATUS (R337). -/
def execCascadeStatus (s : State) : Res := .next <| s.when true fun s => s.runCmd (isOp 0x90) opCascadeStatus

/-- The other unit can be reached: heard by its master, neither removed nor excluded (R17, R338). -/
def State.reachable (s : State) (u : Fin 4) : Bool :=
  if s.get R.CSC_STATUS.STATE = 1 then s.member u
  else s.follows && !s.bit R.CSC_STATUS.EXCLUDED u && (u = 0 || s.bit R.CSC_STATUS.HEARD u)

/-- The first parameter that CASCADE_REMOTE_ACCESS rejects, counted in parameter bytes. -/
def remoteBad (c : Cmd) : Option Nat :=
  if c.num 2 2 % 4 != 0 then some 2
  else if c.byte 1 = 0 then
    if c.num 4 4 != 0 then some 4 else if c.num 8 4 != 0 then some 8 else none
  else if c.num 8 4 = 0 then some 8
  else none

/-- A local access of CASCADE_REMOTE_ACCESS, as initiator 1. -/
def localAccess (c : Cmd) (s : State) : CmdRes × State :=
  let a := c.num 2 2
  if c.byte 1 = 0 then
    let bad : Bool := (s.refusal .application a false true).isSome
    let r := s.read .application a
    if bad then (badField 2, r.2)
    else (.done { status := 0x00, result := r.2.seenBy .application a + 2 ^ 32 * r.1.toNat }, r.2)
  else
    let r := s.maskedWrite .application a (BitVec.ofNat 32 (c.num 4 4)) (BitVec.ofNat 32 (c.num 8 4)) 2 4
    (.done r.1, r.2)

/-- CASCADE_REMOTE_ACCESS (R338). -/
def opRemote (c : Cmd) (s : State) : CmdRes × State :=
  let u : Fin 4 := Fin.ofNat 4 (c.byte 0)
  match remoteBad c with
  | some k => (badField k, s)
  | none =>
    if u = s.idx then localAccess c s
    else if !s.reachable u then (fail 0x13, s)
    else if 8 ≤ s.csc.queue.length then (fail 0x30, s)
    else
      let q : TunReq := { handle := c.handle, target := u, isWrite := c.byte 1 = 1, addr := c.num 2 2,
                          value := BitVec.ofNat 32 (c.num 4 4), mask := BitVec.ofNat 32 (c.num 8 4), sent := none }
      (.wait, s.modQueue fun qs => qs ++ [q])

/-- CASCADE_REMOTE_READ (R338): OP 0x00. -/
def execCascadeRemoteRead (s : State) : Res :=
  .next <| s.when true fun s => s.runCmd (fun c => isOp 0x91 c && c.byte 1 = 0) opRemote

/-- CASCADE_REMOTE_WRITE (R338): OP 0x01. -/
def execCascadeRemoteWrite (s : State) : Res :=
  .next <| s.when true fun s => s.runCmd (fun c => isOp 0x91 c && c.byte 1 = 1) opRemote

end Sys2Proof.Machine
end

