-- ==== Sys2Proof/Machine/Thermal.lean ====
section
/-! DEFINITION. Temperature sensing and thermal protection (13_thermal.md): samples, cross-checks and marks, the effective
readings and flags, the shutdown trip, and SENSOR_REINSTATE. -/

namespace Sys2Proof.Machine

/-! ### Medians and neighbours (R340, R343) -/

/-- A number put into a rising list. -/
def insertInt (x : Int) : List Int → List Int
  | [] => [x]
  | y :: t => if x ≤ y then x :: y :: t else y :: insertInt x t

/-- Twice the median; the median of an even count is the mean of the two middle values. -/
def median2 (xs : List Int) : Option Int :=
  let ys := xs.foldr insertInt []
  let n := ys.length
  if n = 0 then none
  else if n % 2 = 1 then some (2 * ys.getD (n / 2) 0)
  else some (ys.getD (n / 2 - 1) 0 + ys.getD (n / 2) 0)

/-- The sensors above, below, left and right of a die sensor in the grid of three rows and four columns. -/
def dieNear (n : Nat) : List Nat :=
  (List.range 12).filter fun (m : Nat) =>
    (m / 4 = n / 4 && (m % 4 + 1 = n % 4 || n % 4 + 1 = m % 4)) ||
      (m % 4 = n % 4 && (m / 4 + 1 = n / 4 || n / 4 + 1 = m / 4))

/-- The sensors of a region, as a mask. -/
def regionMask (r : Nat) : Nat := [0x033, 0x0CC, 0x300, 0xC00].getD r 0

/-! ### Validity -/

/-- A die sensor is valid: not suspect (R346). -/
def State.dieValid (s : State) (n : Nat) : Bool := !s.bit R.THM_SUSPECT.DIE n

/-- An NTC is valid: enabled, not suspect, neither open nor short (R344, R346). -/
def State.ntcValid (s : State) (n : Nat) : Bool :=
  s.on (R.THM_NTC_CFG.EN n) && !s.bit R.THM_SUSPECT.NTC n && !s.on (R.THM_NTC_TEMP.OPEN n) && !s.on (R.THM_NTC_TEMP.SHORT n)

/-- The other valid members of an NTC's group. -/
def State.ntcNear (s : State) (n : Nat) : List Nat :=
  let g := s.get (R.THM_NTC_CFG.GROUP n)
  (List.range 8).filter fun (m : Nat) => g != 0 && m != n && s.get (R.THM_NTC_CFG.GROUP m) = g && s.ntcValid m

/-! ### Events (R353) -/

/-- A THERMAL event with an index, its kind and its temperature. -/
def State.raiseTherm (s : State) (idx kind : Nat) (temp : Int) : State :=
  s.raise 0x06 (leBytes 1 idx ++ leBytes 1 kind ++ leBytes 2 (ofSignedSat 16 temp) ++ leBytes 4 (s.view A.THM_STATUS).toNat ++
    leBytes 4 (s.view A.THM_SUSPECT).toNat)

/-- T_J as last derived. -/
def State.tj (s : State) : Int := s.geti R.THM_STATUS.TJ

/-- A change of the sampling rate (R342). -/
def State.setFast (s : State) (b : Bool) : State :=
  if s.on R.THM_STATUS.FAST = b then s else (s.setb R.THM_STATUS.FAST b).raiseTherm 0xFF (if b then 1 else 2) s.tj

/-! ### A sample (R341 to R349) -/

/-- The number of consecutive samples, saturating at three. -/
def runOf (b : Bool) (n : Nat) : Nat := if b then min 3 (n + 1) else 0

/-- An NTC that comes to read open or short: flag and event. -/
def State.ntcEdge (s : State) (f : Fld) (b : Bool) (idx kind : Nat) (temp : Int) : State :=
  if s.on f = b then s
  else
    let s := s.setb f b
    if b then (s.set R.THM_EVENT.NTC_FAULT 1).raiseTherm idx kind temp else s

/-- An NTC's reading: open above x = 0.975 and short below 0.025 for three consecutive samples (R341). -/
def State.ntcRead (s : State) (n : Fin 8) (r : NtcReading) : State :=
  if !s.on (R.THM_NTC_CFG.EN n) then
    let s := { s with thm := { s.thm with openN := s.thm.openN.set n 0, shortN := s.thm.shortN.set n 0,
                                          ntcN := s.thm.ntcN.set n 0 } }
    (s.set (R.THM_NTC_TEMP.OPEN n) 0).set (R.THM_NTC_TEMP.SHORT n) 0
  else
    let o := runOf (r.ratio * 1000 > 975 * 65536) (s.thm.openN.get n)
    let h := runOf (r.ratio * 1000 < 25 * 65536) (s.thm.shortN.get n)
    let s := { s with thm := { s.thm with openN := s.thm.openN.set n o, shortN := s.thm.shortN.set n h } }
    (s.ntcEdge (R.THM_NTC_TEMP.OPEN n) (o = 3) (0x10 + n) 0x09 r.temp).ntcEdge (R.THM_NTC_TEMP.SHORT n) (h = 3) (0x10 + n)
      0x0A r.temp

/-- A sensor is marked suspect (R346). -/
def State.mark (s : State) (f : Fld) (n idx : Nat) (temp : Int) : State :=
  ((s.setBit f n true).set R.THM_EVENT.SUSPECT 1).raiseTherm idx 0x07 temp

/-- A reading deviates from the median of its neighbours' by more than a limit in °C. -/
def deviates (x : Int) (near : List Int) (limit : Nat) : Bool :=
  match median2 near with
  | none => false
  | some m => (2 * x - m).natAbs > 32 * limit

/-- The cross-check counts of this sample (R343, R344). -/
def State.crossCounts (s : State) (die temp : Nat → Int) : Thermal :=
  let d (n : Nat) : Bool :=
    s.dieValid n && deviates (die n) (((dieNear n).filter s.dieValid).map die) (s.get R.THM_XCHK.DIE_DEV)
  let t (n : Nat) : Bool := s.ntcValid n && deviates (temp n) ((s.ntcNear n).map temp) (s.get R.THM_XCHK.NTC_DEV)
  { s.thm with dieN := Vector.ofFn fun (i : Fin 12) => runOf (d i) (s.thm.dieN.get i),
               ntcN := Vector.ofFn fun (i : Fin 8) => runOf (t i) (s.thm.ntcN.get i) }

/-- The marks of this sample: deviation in three consecutive samples; an NTC that reads open or short at once. -/
def State.crossCheck (s : State) (die temp : Nat → Int) : State :=
  if !s.fwRuns then
    { s with thm := { s.thm with dieN := Vector.replicate 12 0, ntcN := Vector.replicate 8 0 } }
  else if s.thm.samples < 4 then s
  else
    let t := s.crossCounts die temp
    let bad (n : Fin 8) : Bool := s.on (R.THM_NTC_CFG.EN n) && (s.on (R.THM_NTC_TEMP.OPEN n) || s.on (R.THM_NTC_TEMP.SHORT n))
    let s := { s with thm := t }
    let s := (List.finRange 12).foldl (fun (acc : State) (n : Fin 12) =>
      if t.dieN.get n = 3 && acc.dieValid n then acc.mark R.THM_SUSPECT.DIE n n (die n) else acc) s
    (List.finRange 8).foldl (fun (acc : State) (n : Fin 8) =>
      if (t.ntcN.get n = 3 || bad n) && !acc.bit R.THM_SUSPECT.NTC n then acc.mark R.THM_SUSPECT.NTC n (0x10 + n) (temp n)
      else acc) s

/-- The limits of a die sensor in 1/16 °C. -/
def State.dieLimits (s : State) : List Int :=
  [s.get R.THM_CFG.T_FOLD * 16, s.get R.THM_CFG.T_WARN * 16, s.get R.THM_CFG.T_REG * 16, 150 * 16]

/-- The limits of an NTC in 1/16 °C: HI, and the zone boundaries for the pack's. -/
def State.ntcLimits (s : State) (n : Nat) : List Int :=
  (s.geti (R.THM_NTC_CFG.HI n) * 16) ::
    (if s.get R.CHG_TEMP_CFG.PACK_NTC = n then
      [s.prof16 0x20, s.prof16 0x22, s.prof16 0x24, s.prof16 0x26].map fun (v : Nat) => toSigned 16 v
    else [])

/-- Some valid sensor stands within `d` °C of a limit that applies to it. -/
def State.nearLimit (s : State) (d : Nat) : Bool :=
  ((List.range 12).any fun (n : Nat) =>
    s.dieValid n && s.dieLimits.any fun (l : Int) => (s.geti (R.THM_DIE.MEAS n) - l).natAbs ≤ 16 * d) ||
  ((List.range 8).any fun (n : Nat) =>
    s.ntcValid n && (s.ntcLimits n).any fun (l : Int) => (s.geti (R.THM_NTC_TEMP.TEMP n) - l).natAbs ≤ 16 * d)

/-- The effective reading of a die sensor (R346). -/
def State.dieEff (s : State) (die : Nat → Int) (n : Nat) : Option Int :=
  if s.dieValid n then some (die n) else (median2 (((dieNear n).filter s.dieValid).map die)).map fun (m : Int) => m / 2

/-- The effective temperature of an NTC (R346). -/
def State.ntcEff (s : State) (temp : Nat → Int) (n : Nat) : Option Int :=
  if s.bit R.THM_SUSPECT.NTC n then (median2 ((s.ntcNear n).map temp)).map fun (m : Int) => m / 2 else some (temp n)

/-- Writes the effective readings, 0x8000 for none. -/
def State.writeEff (s : State) (die temp : Nat → Int) : State :=
  let s := (List.range 12).foldl (fun (acc : State) (n : Nat) =>
    acc.seti (R.THM_DIE.EFF n) ((acc.dieEff die n).getD (-32768))) s
  (List.range 8).foldl (fun (acc : State) (n : Nat) =>
    if acc.on (R.THM_NTC_CFG.EN n) then acc.seti (R.THM_NTC_TEMP.TEMP n) ((acc.ntcEff temp n).getD (-32768)) else acc) s

/-- T_J: the highest effective die reading (R349). With none the spec states no value, and a free one stands there. -/
def State.writeTj (s : State) (die : Nat → Int) : State :=
  match (List.range 12).filterMap (s.dieEff die) with
  | [] =>
    let (v, s) := s.draw
    s.set R.THM_STATUS.TJ v.toNat
  | x :: t => s.seti R.THM_STATUS.TJ (t.foldl max x)

/-- The lost regions: every sensor suspect (R347). -/
def State.regions (s : State) : State :=
  (List.range 4).foldl (fun (acc : State) (r : Nat) =>
    let lost : Bool := acc.get R.THM_SUSPECT.DIE &&& regionMask r = regionMask r
    if acc.bit R.THM_STATUS.REGION_LOST r = lost then acc
    else
      let acc := acc.setBit R.THM_STATUS.REGION_LOST r lost
      let acc := if lost then acc.set R.THM_EVENT.REGION 1 else acc
      acc.raiseTherm (0x20 + r) (if lost then 0x0B else 0x0C) acc.tj) s

/-- NTCs that cross their limit HI raise events (R355). -/
def State.highs (s : State) : State :=
  (List.range 8).foldl (fun (acc : State) (n : Nat) =>
    let t := acc.geti (R.THM_NTC_TEMP.TEMP n)
    let b : Bool := acc.on (R.THM_NTC_CFG.EN n) && t > acc.geti (R.THM_NTC_CFG.HI n) * 16
    if bitAt acc.thm.high n = b then acc
    else
      let m := if b then setBitAt acc.thm.high n else clearBitAt acc.thm.high n
      ({ acc with thm := { acc.thm with high := m } }).raiseTherm (0x10 + n) (if b then 0x03 else 0x04) t) s

/-- A flag that follows its condition, with an event for each change and an event bit when it sets. -/
def State.thermFlag (s : State) (f e : Fld) (b : Bool) (kindOn kindOff : Nat) : State :=
  if s.on f = b then s
  else
    let s := s.setb f b
    if b then (s.set e 1).raiseTherm 0xFF kindOn s.tj else s.raiseTherm 0xFF kindOff s.tj

/-- FOLD, WARN and REG (R349). -/
def State.thermFlags (s : State) : State :=
  let w : Int := s.get R.THM_CFG.T_WARN * 16
  let warn : Bool := s.tj ≥ w || (s.on R.THM_STATUS.WARN && s.tj > w - 32)
  let s := s.setb R.THM_STATUS.FOLD (s.fold < 1000)
  let s := s.thermFlag R.THM_STATUS.WARN R.THM_EVENT.WARN warn 0x03 0x04
  s.thermFlag R.THM_STATUS.REG R.THM_EVENT.REG (s.derate < 1000 || s.get R.THM_STATUS.REGION_LOST != 0) 0x05 0x06

/-- What follows the readings: effective values, T_J, regions and flags. -/
def State.derive (s : State) (die temp : Nat → Int) : State :=
  ((((s.writeEff die temp).writeTj die).regions).highs).thermFlags

/-- One sample of every die sensor and every enabled NTC. -/
def State.thermSample (s : State) (die temp : Nat → Int) (ntc : List NtcReading) : State :=
  let s := { s with thm := { s.thm with samples := min 4 (s.thm.samples + 1) } }
  let s := (List.range 12).foldl (fun (acc : State) (n : Nat) => acc.seti (R.THM_DIE.MEAS n) (die n)) s
  let s := (List.finRange 8).foldl (fun (acc : State) (n : Fin 8) =>
    acc.ntcRead n (ntc.getD n { ratio := 32768, temp := 400 })) s
  let s := s.crossCheck die temp
  let s := s.derive die temp
  if s.nearLimit 10 then s.setFast true else s

/-- THERMAL_SAMPLE (R342). -/
def execThermalSample (die : List Int) (ntc : List NtcReading) (s : State) : Res :=
  .next <| s.when s.powered fun s =>
    s.thermSample (fun (n : Nat) => die.getD n 0) (fun (n : Nat) => (ntc.getD n { ratio := 32768, temp := 400 }).temp) ntc

/-- SAMPLE_RATE_SLOW (R342): every valid sensor has stood more than 12 °C from each of its limits for 100 ms. -/
def execSampleRateSlow (s : State) : Res :=
  .next <| s.when (s.powered && s.on R.THM_STATUS.FAST && !s.nearLimit 12) fun s => s.setFast false

/-! ### The shutdown trip (R348) -/

/-- The vote trips by two neighbouring valid sensors. -/
def pairVote (sensors marks : Nat) : Bool :=
  (List.range 12).any fun (n : Nat) =>
    bitAt sensors n && !bitAt marks n && (dieNear n).any fun (m : Nat) => bitAt sensors m && !bitAt marks m

/-- The vote trips by a valid sensor without a valid neighbour. -/
def loneVote (sensors marks : Nat) : Bool :=
  (List.range 12).any fun (n : Nat) =>
    bitAt sensors n && !bitAt marks n && (dieNear n).all fun (m : Nat) => bitAt marks m

/-- The trip: latch, record and SAFE; from KEEP-ALIVE after a wake. Only the first is recorded. -/
def State.thermTrip (s : State) (sensors : Nat) (lone : Bool) : State :=
  let s := if s.inKa then s.wakeUp false false else s
  if s.on R.THM_STATUS.SD_LATCH then s
  else
    let s := ((s.set R.THM_STATUS.SD_LATCH 1).set R.THM_SD.SENSORS sensors).setb R.THM_SD.RULE lone
    let s := (s.set R.THM_SD_TS_LO.TS (s.tsNow % 2 ^ 32)).set R.THM_SD_TS_HI.TS (s.tsNow / 2 ^ 32)
    (s.raiseTherm 0xFF 0x0D s.tj).safeEnter 0x1

/-- THERMAL_SHUTDOWN_TRIP (R348): `sensors` are those whose comparator has stayed asserted for 10 µs, `marks` the suspect
ones as they stood when it asserted. -/
def execThermalShutdownTrip (sensors marks : Fin 4096) (s : State) : Res :=
  .next <| s.when (pairVote sensors marks || loneVote sensors marks) fun s =>
    s.thermTrip (sensors &&& (4095 - marks.val)) (!pairVote sensors marks)

/-! ### SENSOR_REINSTATE (R352) -/

/-- Clears the named marks that stand, with an event each, and restarts their counts. -/
def State.reinstate (s : State) (dieM ntcM : Nat) : State :=
  let s := (List.finRange 12).foldl (fun (acc : State) (n : Fin 12) =>
    if bitAt dieM n && !acc.dieValid n then
      let acc := (acc.setBit R.THM_SUSPECT.DIE n false).raiseTherm n 0x08 (acc.geti (R.THM_DIE.MEAS n))
      { acc with thm := { acc.thm with dieN := acc.thm.dieN.set n 0 } }
    else acc) s
  let s := (List.finRange 8).foldl (fun (acc : State) (n : Fin 8) =>
    if bitAt ntcM n && acc.bit R.THM_SUSPECT.NTC n then
      let acc := (acc.setBit R.THM_SUSPECT.NTC n false).raiseTherm (0x10 + n) 0x08 (acc.geti (R.THM_NTC_TEMP.TEMP n))
      { acc with thm := { acc.thm with ntcN := acc.thm.ntcN.set n 0 } }
    else acc) s
  s.regions

/-- SENSOR_REINSTATE (R352). -/
def opReinstate (c : Cmd) (s : State) : CmdRes × State :=
  let dieM := c.num 0 2
  let ntcM := c.byte 2
  if (List.range 8).any fun (n : Nat) =>
      bitAt ntcM n && (s.on (R.THM_NTC_TEMP.OPEN n) || s.on (R.THM_NTC_TEMP.SHORT n)) then (failAt 0x22 2, s)
  else (ok, s.reinstate dieM ntcM)

/-- SENSOR_REINSTATE (R352). -/
def execSensorReinstate (s : State) : Res := .next <| s.when true fun s => s.runCmd (isOp 0x82) opReinstate

end Sys2Proof.Machine
end

