-- ==== Sys2Proof/Machine/Modes.lean ====
section
/-! DEFINITION. Clocks, AON power-on reset, boot, the modes, KEEP-ALIVE, SHIP, SAFE, the power button and the long press
(01_architecture.md R18 to R21, 02_modes_and_startup.md). -/

namespace Sys2Proof.Machine

/-! ### Clocks (R18 to R21, R39, R448) -/

/-- XTAL_SWITCH_OVER (R39): a crystal that failed is not used again before AON power-on reset (R20). -/
def execXtalSwitchOver (s : State) : Res :=
  .next <| s.when (!s.xtalBad) fun s => s.set R.GLB_CLK_STATUS.XTAL_ACTIVE 1

/-- XTAL_FAIL (R20, R448). -/
def execXtalFail (s : State) : Res :=
  .next <| s.when (s.on R.GLB_CLK_STATUS.XTAL_ACTIVE) fun s =>
    let s := { s.set R.GLB_CLK_STATUS.XTAL_ACTIVE 0 with xtalBad := true }
    (s.set R.GLB_CLK_EVENT.XTAL_FAIL 1).raiseFault 0x05 0x1 0xFF 0

/-- FLL_LOCK (R19): while TSF runs. -/
def execFllLock (s : State) : Res :=
  .next <| s.when (bitAt (s.get R.GLB_CLK_STATUS.RUN) 2) fun s => s.set R.GLB_CLK_STATUS.FLL_LOCK 1

/-- PLL_LOCK (R39, R161): SYS, PD and, with a cascade agent, CSC run; every port presents Rd. -/
def execPllLock (s : State) : Res :=
  .next <| s.when (s.md.boot = .strapped) fun s =>
    let s := { s with md := { s.md with boot := .clocked } }.set R.GLB_CLK_STATUS.PLL_LOCK 1
    let s := s.set R.GLB_CLK_STATUS.RUN (s.get R.GLB_CLK_STATUS.RUN ||| (if s.csc.barred then 0x108 else 0x308))
    s.eachPort allPorts fun s p => s.setTerm p .rd

/-- PLL_UNLOCK (R21). -/
def execPllUnlock (s : State) : Res :=
  .next <| s.when (s.on R.GLB_CLK_STATUS.PLL_LOCK) fun s =>
    let s := (s.set R.GLB_CLK_STATUS.PLL_LOCK 0).set R.GLB_CLK_STATUS.PLL_HOLDOVER 1
    (s.set R.GLB_CLK_EVENT.PLL_UNLOCK 1).raiseFault 0x05 0x2 0xFF 0

/-- PLL_LOCK_RETRY (R21). -/
def execPllLockRetry (locked : Bool) (s : State) : Res :=
  .next <| s.when (s.on R.GLB_CLK_STATUS.PLL_HOLDOVER && locked) fun s =>
    (s.set R.GLB_CLK_STATUS.PLL_LOCK 1).set R.GLB_CLK_STATUS.PLL_HOLDOVER 0

/-- REFCLK_LOSS (R21, R260): Data Link Down resets the host domain; the power path is untouched. -/
def execRefclkLoss (s : State) : Res :=
  .next <| s.when (s.hif.linkUp && s.on R.HIF_STATUS.L0) fun s =>
    ((s.linkDown false).hostReset.set R.GLB_CLK_EVENT.REFCLK_LOSS 1).raiseFault 0x05 0x3 0xFF 0

/-! ### AON power-on reset (R6, R38, R416, R421) -/

/-- What MRAM and the fuses keep. -/
def Firmware.stored (f : Firmware) : Firmware :=
  { bank0 := f.bank0, bank1 := f.bank1, slot0 := f.slot0, slot1 := f.slot1, record := f.record, fuses := f.fuses,
    fuseRetry := f.fuseRetry, dbgFuse := f.dbgFuse, log := f.log }

/-- A port without power or PD clock: the DB clamp presents Rd on a DB-strapped port, nothing else does. -/
def portAtRest (db : Bool) : Port := { tc := { term := if db then .rd else .open_ } }

/-- What AON power-on reset clears; MRAM, the fuses, the keeper's latch and the PERST# pin stay, and so do the model's own
counters and records. -/
def State.porReset (s : State) : State :=
  { State.reset with
    out := s.out, free := s.free, nextH := s.nextH, pending := s.pending, fw := s.fw.stored,
    chg := { saved := s.chg.saved }, md := { keeper := s.md.keeper }, hif := { perst := s.hif.perst },
    ports := Vector.ofFn fun (p : Fin 4) => portAtRest (s.bit R.MOD_STRAP.DB p) }

/-- The release of AON power-on reset (R38, R39, R363): the keeper's latch is copied and set to supply. VBAT and each VBUS
are as measured then. A keeper that starts the unit closed the BATFET (R34). -/
def State.porRelease (s : State) (vbat : Nat) (vbus : List Nat) : State :=
  let k := s.md.keeper
  let s := { s with power := .on, md := { s.md with boot := .released, keeper := 0 } }
  let s := (s.set R.MOD_MODE_STATUS.POR_CAUSE k).setSat R.MOD_BAT_MEAS.VBAT vbat
  let s := s.eachPort allPorts fun s p => s.setSat (R.PD_VBUS_MEAS.VBUS p) (vbus.getD p 0)
  let s := if 2 ≤ k then s.set R.MOD_BATFET_STATUS.STATE batSwitch else s
  s.showFw.newNonce.armFallback

/-- AON_POR_ASSERT (R38): with every supply gone the keeper loses its latch. -/
def execAonPorAssert (supplyGone : Bool) (s : State) : Res :=
  .next <|
    if s.power = .on || (s.power = .off && supplyGone) then
      let t := s.porReset
      { t with md := { t.md with keeper := if supplyGone then 0 else t.md.keeper } }
    else s

/-- The highest of the supplies. -/
def highest (vbat : Nat) (vbus : List Nat) : Nat := vbus.foldl max vbat

/-- AON_POR_RELEASE (R38, R44): a supply stands above 3.10 V −2 %, or the reset that the unit drives itself ends. -/
def execAonPorRelease (vbat : Nat) (vbus : List Nat) (s : State) : Res :=
  .next <| if s.power = .por && (3038 ≤ highest vbat vbus || s.md.keeper = 1) then s.porRelease vbat vbus else s

/-! ### Straps (R41, R45, R46) -/

/-- The strap codes; a multi-level reading outside every window takes the code of R445. -/
def State.showStraps (s : State) (r : StrapReading) : State :=
  let cell := (r.cell.getD 7).val
  let vchg := (r.vchg.getD 7).val
  let alone : Bool := r.role = (r.idx != 0)
  let s := ((s.set R.MOD_STRAP.DB r.db).set R.MOD_STRAP.VMIN (r.vmin.getD 7).val).set R.MOD_STRAP.ICHG (r.ichg.getD 0).val
  let s := ((s.set R.MOD_STRAP.VCHG vchg).set R.MOD_STRAP.CELL cell).setb R.MOD_STRAP.COMPAT r.compat
  let s := ((s.setb R.MOD_STRAP.ROLE r.role).set R.MOD_STRAP.IDX r.idx).setb R.MOD_STRAP.STRAP_ERR
    (alone || 4 < cell || 2 < vchg)
  let s := (s.setb R.GLB_REV.MASTER r.role).set R.GLB_REV.UNIT_IDX r.idx
  s.modCsc fun c => { c with barred := alone }

/-- The registers that load from the straps (R46, R50, R101, R107, R118, R161, R297). -/
def State.loadStraps (s : State) : State :=
  let s := s.set R.CHG_LIMIT.ICHG_STRAP (ichgStrap (s.get R.MOD_STRAP.ICHG) / 2)
  let s := (s.set R.CHG_COV_CFG.COV_TH (s.strapVchg + 150)).aloneVsys
  let s := s.set R.MOD_SAFE_CFG.VSYS_OVP (s.strapCells * 4800 + 1000)
  let s := s.eachPort allPorts fun s p => s.setb (R.PD_TC_CFG.DB p) (s.bit R.MOD_STRAP.DB p)
  let s := s.setb R.TWB_ADDR.COMPAT (s.on R.MOD_STRAP.COMPAT && !s.isFollower)
  (s.writeProfile s.aloneProfile).setUdid

/-- VBUS stands on a DB-strapped port. -/
def State.dbSupply (s : State) : Bool :=
  allPorts.any fun p => s.bit R.MOD_STRAP.DB p && 4000 ≤ s.get (R.PD_VBUS_MEAS.VBUS p)

/-- The pack at the release (R34, R41, R105): its presence, a dead-battery start, a low boot, and the BATFET by R87. -/
def State.packAtBoot (s : State) : State :=
  let vbat := s.get R.MOD_BAT_MEAS.VBAT
  let here : Bool := 1000 ≤ vbat
  let low : Bool := vbat < 2500 * s.strapCells
  let dead : Bool := s.dbSupply && (low || !here)
  let s := s.setb R.CHG_PACK_STATUS.PRESENT here
  let s := if here then s.fillCredit else s
  let s := { s.setb R.MOD_MODE_STATUS.DB_START dead with
    md := { s.md with dbHold := dead, lowBoot := s.get R.MOD_MODE_STATUS.POR_CAUSE = 2 && low && !s.dbSupply } }
  s.restoreBat

/-- The charger's phase at the release (R110). -/
def State.phaseAtBoot (s : State) : State :=
  s.set R.CHG_STATUS.PHASE
    (if 4 < s.get R.MOD_STRAP.CELL || 2 < s.get R.MOD_STRAP.VCHG then 0 else if s.packPresent then 2 else 1)

/-- STRAP_LATCH (R39, R45, R46): LPO and TSF follow at once. -/
def execStrapLatch (r : StrapReading) (s : State) : Res :=
  .next <| s.when (s.md.boot = .released) fun s =>
    let s := { s with md := { s.md with boot := .strapped } }.set R.GLB_CLK_STATUS.RUN 7
    let s := (s.showStraps r).loadStraps.packAtBoot.phaseAtBoot
    let s := s.eachPort allPorts fun s p => if s.bit R.MOD_STRAP.DB p then s.setTerm p .rd else s
    if s.on R.MOD_STRAP.STRAP_ERR then s.raiseFault 0x06 0x1 0xFF 0 else s

/-! ### The configuration image (R40, R422) -/

/-- The operations that an image may name. -/
def imageOp (opcode : Nat) : Option (Cmd → State → CmdRes × State) :=
  match opcode with
  | 0x01 => some opSetParam
  | 0x12 => some opBudgetSetPolicy
  | 0x20 => some opChargeProfileLoad
  | 0x30 => some opPdSetPortPolicy
  | 0x31 => some opPdSetSourceCaps
  | 0x32 => some opPdSetSinkCaps
  | 0x33 => some opPdRequest
  | 0x37 => some opPdPortDisable
  | 0x50 => some opRailConfig
  | 0x61 => some opPhaseMapSet
  | 0x62 => some opInputSelect
  | _ => none

/-- Runs a command of the image: whether it completes with SUCCESS or CLAMPED. A map change is done at once, since no phase
switches yet. -/
def State.imageCmd (s : State) (opcode : Nat) (params : List Byte) : Bool × State :=
  match imageOp opcode, paramFmt opcode with
  | some op, some f =>
    if (f.firstBad params).isSome then (false, s)
    else
      match op (localCmd opcode params) s with
      | (.done r, t) => (r.status = 0x00 || r.status = 0x01, t)
      | (.wait, t) => (true, t.finishMap)
  | _, _ => (false, s)

/-- Applies a record. -/
def State.applyRecord (s : State) (r : CfgRecord) : Bool × State :=
  if r.typ = 0x0001 && r.data.length = 12 then s.imageCmd 0x01 (sliceBytes r.data 0 48)
  else if r.typ = 0x0002 && r.data.length = 52 && leAt r.data 1 3 = 0 then s.imageCmd (byteAt r.data 0) (sliceBytes r.data 4 48)
  else if r.typ = 0x0003 && r.data.length = 4 then
    (true, { s with md := { s.md with subVendor := leAt r.data 0 2, subId := leAt r.data 2 2 } })
  else (false, s)

/-- Applies the records in order, from number `k`; one that fails is skipped and counted. -/
def State.applyRecords (s : State) (k : Nat) : List CfgRecord → State
  | [] => s
  | r :: rs =>
    let x := s.applyRecord r
    (if x.1 then x.2 else (x.2.bump R.SEC_CFG_STATUS.REC_ERR).raiseFault 0x0B 0x4 (min k 0xFE) 0).applyRecords (k + 1) rs

/-- CONFIG_IMAGE_APPLY (R40, R422). -/
def execConfigImageApply (s : State) : Res :=
  .next <| s.when (s.md.boot = .running) fun s =>
    let s := { s with md := { s.md with boot := .configured } }
    let slot := s.cfgSlot s.fw.record.slot
    if slot.valid then (s.set R.SEC_CFG_STATUS.VALID 1).applyRecords 0 slot.records
    else s.goAlone.raiseFault 0x06 0x2 0xFF 0

/-! ### The end of the boot (R39, R41, R322) -/

/-- The booting port's pair closes by soft turn-on under the implicit contract (R41). -/
def State.dbConnect (s : State) (p : Fin 4) : State :=
  let s := s.setContract p 0 0 5000 (s.partnerMa p) true
  if s.busEmpty 0 && s.fitted p 0 && s.groupUsable 0 && !s.inSafe then
    s.modBus 0 fun x => { x with move := .closing p false }
  else s

/-- The unattached ports take the roles configured. -/
def State.takeRoles (s : State) : State :=
  s.eachPort allPorts fun s p =>
    if s.tcState p = 2 || s.tcState p = 5 then (s.setTerm p (s.restTerm p)).setTc p (s.unattachedOf p) else s

/-- POWER_STAGE_ENABLE (R39, R41). -/
def execPowerStageEnable (s : State) : Res :=
  .next <| s.when (s.md.boot = .configured) fun s =>
    let s := { s with md := { s.md with boot := .staged } }.set R.CNV_STATUS.STAGE_EN 1
    let s := s.takeRoles
    let s := match s.md.dbPort with
      | some p => s.dbConnect p
      | none => s
    let s := s.autoSelect
    if s.md.dbHold || s.md.lowBoot then s else s.bootGroup

/-- The cascade forms itself (R322): U0 opens the discovery window, a follower listens. -/
def State.cscBoot (s : State) : State :=
  if s.csc.barred || !s.on R.CSC_CFG.LINK_EN then s.setCscClock false
  else if s.isMaster then
    ((s.modCsc fun c => { c with heardWin := 0 }).set R.CSC_STATUS.STATE 1).set R.CSC_STATUS.DISCOVERY 1
  else s

/-- BAR0_READY (R39). -/
def execBar0Ready (s : State) : Res :=
  .next <| s.when (s.md.boot = .staged) fun s => { s with md := { s.md with boot := .ready, bar0 := true } }.cscBoot

/-- The PD clock runs. -/
def State.pdRuns (s : State) : Bool := bitAt (s.get R.GLB_CLK_STATUS.RUN) 8

/-- DB_ATTACH (R41): CC2 or CC1, and the Rp level. -/
def execDbAttach (p : Fin 4) (cc2 : Bool) (level : Fin 3) (s : State) : Res :=
  .next <| s.when (s.on R.MOD_MODE_STATUS.DB_START && s.md.dbPort.isNone && s.pdRuns && s.bit R.MOD_STRAP.DB p &&
      4000 ≤ s.get (R.PD_VBUS_MEAS.VBUS p) && (s.tcState p = 2 || s.tcState p = 3)) fun s =>
    let s := { s with md := { s.md with dbPort := some p } }
    let s := (s.setb (R.PD_CC_STATUS.POLARITY p) cc2).set (R.PD_CC_STATUS.PARTNER p) (level + 1)
    let s := s.attachSink p
    if s.on R.CNV_STATUS.STAGE_EN then s.dbConnect p else s

/-- VSYS_MIN_REACHED (R34, R41): the BATFET leaves OFF by R87, a cycle may start, and the boot group of rails starts. -/
def execVsysMinReached (vsys : Nat) (s : State) : Res :=
  .next <| s.when ((s.md.dbHold || s.md.lowBoot) && s.anySink && s.get R.MOD_VSYS_CFG.VSYS_MIN ≤ vsys) fun s =>
    let s := { s.setSat R.MOD_VSYS_STATUS.VSYS vsys with md := { s.md with dbHold := false, lowBoot := false } }
    s.restoreBat.startCycle.bootGroup

/-! ### Modes (R27, R28) -/

/-- The mode that hardware state gives among ADAPTER, HYBRID and BATTERY. HYBRID lasts until its dwell ends. -/
def State.pathMode (s : State) (neg : Bool) : Nat :=
  if !s.anySink then 2 else if neg || s.mode = 4 then 4 else 3

/-- MODE_EVALUATE (R27, R28). -/
def execModeEvaluate (ibat : Int) (s : State) : Res :=
  .next <| s.when (s.powered && s.on R.CNV_STATUS.STAGE_EN) fun s =>
    let s := s.seti R.MOD_BAT_MEAS.IBAT (ibat / 2)
    if s.inSafe then s
    else
      let neg : Bool := ibat < 0
      let m := s.pathMode neg
      let s := { s with md := { s.md with dwell := m = 4 && !neg, packLow := s.md.packLow && m = 2 } }
      s.setMode m 0x00

/-- HYB_DWELL_EXPIRY (R28). -/
def execHybDwellExpiry (s : State) : Res :=
  .next <| s.when (s.mode = 4 && s.md.dwell) fun s => { s with md := { s.md with dwell := false } }.setMode 3 0x00

/-! ### MODE_REQUEST (R30, R33, R37, R49) -/

/-- MODE_REQUEST with the target given. -/
def isTarget (t : Nat) (c : Cmd) : Bool := c.opcode = 0x60 && c.byte 0 = t

/-- SUCCESS, or CLAMPED with DELAY held at 60,000 ms. -/
def delayReply (c : Cmd) : CmdRes := .done (clampReply (clamps [(2, c.num 2 2, 0, 60000)]) 0)

/-- An entry pends. -/
def State.pend (s : State) (e : LowEntry) : State :=
  { s with md := { s.md with entry := e } }.set R.MOD_MODE_STATUS.ENTRY_PENDING 1

/-- MODE_REQUEST with target KEEP-ALIVE (R30, R333). -/
def opKeepAlive (c : Cmd) (s : State) : CmdRes × State :=
  if s.md.longPress != 0 then (fail 0x31, s)
  else if s.md.entry != .none then (fail 0x30, s)
  else if s.isFollower || !s.kaOk then (fail 0x22, s)
  else (delayReply c, { s with md := { s.md with kaCause := 1 } }.pend .ka)

/-- MODE_REQUEST_KEEP_ALIVE (R30). -/
def execModeRequestKeepAlive (s : State) : Res := .next <| s.when true fun s => s.runCmd (isTarget 1) opKeepAlive

/-- MODE_REQUEST with target SHIP (R33). -/
def opShip (c : Cmd) (s : State) : CmdRes × State :=
  if s.md.longPress != 0 then (fail 0x31, s)
  else if s.md.entry != .none then (fail 0x30, s)
  else if s.mode != 2 || s.anyAttached then (fail 0x22, s)
  else (delayReply c, (s.pend .ship).raiseMode 2 0 0x03)

/-- MODE_REQUEST_SHIP (R29, R33): in KEEP-ALIVE the unit wakes first. -/
def execModeRequestShip (s : State) : Res :=
  .next <| s.when true fun s => (s.ifDo s.inKa fun s => s.wakeUp false false).runCmd (isTarget 2) opShip

/-- Phases that have reinstatements left (R72). -/
def State.reinstatable (s : State) : List (Fin 6) := allPhases.filter fun (ph : Fin 6) => s.retired ph && s.reinst ph < 3

/-- A cause of SAFE is set. -/
def State.safeHas (s : State) (cause : Nat) : Bool := s.bit R.MOD_MODE_STATUS.SAFE_SET (cause - 1)

/-- A cause set is still present, or can never go (R36, R37). -/
def State.safeStays (s : State) (vsys : Nat) (pairsOff batOff : Bool) : Bool :=
  s.safeHas 1 || (s.safeHas 2 && s.reinstatable.isEmpty) ||
    (s.safeHas 3 && s.get R.MOD_SAFE_CFG.VSYS_OVP ≤ vsys + 500) || (s.safeHas 4 && !pairsOff) || (s.safeHas 5 && !batOff)

/-- The fault hold is released (R27, R37, R72, R161): phases are marked, ports and bus take up their roles again. -/
def State.leaveSafe (s : State) : State :=
  let s := if s.safeHas 2 then
      s.eachPhase s.reinstatable fun s ph => s.modPhase ph fun x => { x with marked := true }
    else s
  let s := (s.set R.MOD_MODE_STATUS.SAFE_SET 0).set R.MOD_MODE_STATUS.SAFE_CAUSE 0
  let s := s.setMode 2 0x06
  let s := if s.packPresent then s.restoreBat else s
  s.takeRoles.autoSelect

/-- MODE_REQUEST with target CLEAR_SAFE (R37). -/
def opClearSafe (vsys : Nat) (pairsOff batOff : Bool) (_ : Cmd) (s : State) : CmdRes × State :=
  if s.md.longPress != 0 then (fail 0x31, s)
  else if !s.inSafe || s.safeStays vsys pairsOff batOff then (fail 0x22, s)
  else (ok, s.leaveSafe)

/-- MODE_REQUEST_CLEAR_SAFE (R37): VSYS as measured, no pair conducts, and the battery current has stayed below 200 mA for
1 ms. -/
def execModeRequestClearSafe (vsys : Nat) (pairsOff batOff : Bool) (s : State) : Res :=
  .next <| s.when true fun s => s.runCmd (isTarget 3) (opClearSafe vsys pairsOff batOff)

/-! ### KEEP-ALIVE (R30 to R32, R169) -/

/-- KA_ENTRY_DELAY_EXPIRY (R30). -/
def execKaEntryDelayExpiry (s : State) : Res :=
  .next <| s.when (s.md.entry = .ka && s.csc.sleepN.isNone) fun s => s.kaGo s.md.kaCause

/-- The unit returns on its own after the wake (R32). -/
def wakeReturns (w : WakeSource) : Bool :=
  match w with
  | .twoWire | .aonCompare | .gpio | .burst => true
  | _ => false

/-- KA_WAKE (R32). Outside KEEP-ALIVE a source that does not return keeps the unit awake. -/
def execKaWake (src : WakeSource) (s : State) : Res :=
  .next <| s.when true fun s => s.wakeUp (wakeReturns src) (src = .burst)

/-- KA_IDLE_EXPIRY (R32, R333): a follower returns with the cascade. -/
def execKaIdleExpiry (s : State) : Res :=
  .next <| s.when (s.md.kaReturn && !s.isFollower && s.md.entry = .none && s.kaOk) fun s => s.kaGo 0x00

/-- KA_SCAN (R169): the source or DRP port presents Rp for 5 ms, and Rd or Ra on it wakes the unit. -/
def execKaScan (p : Fin 4) (found : Bool) (s : State) : Res :=
  .next <| s.when (s.inKa && found && s.get (R.PD_TC_CFG.ROLE p) != 0 && !s.on (R.PD_CTRL.DISABLE p)) fun s =>
    s.wakeUp false false

/-! ### SHIP (R33, R34, R427) -/

/-- The power-down of a SHIP entry starts. -/
def State.shipDown (s : State) : State := (s.pend .shipDown).stopRails

/-- SHIP_DELAY_EXPIRY (R33). -/
def execShipDelayExpiry (s : State) : Res := .next <| s.when (s.md.entry = .ship) fun s => s.shipDown

/-- SHIP_RAILS_OFF (R33, R427): firmware writes the mirror entry. -/
def execShipRailsOff (s : State) : Res :=
  .next <| s.when (s.md.entry = .shipDown && !s.downRuns) fun s =>
    let s := s.pend .shipOff
    if s.fwRuns then s.writeLog { typ := 0x80, seq := 0, ts := s.tsNow, payload := s.retained } else s

/-- SHIP_ENTER (R33, R34): the AON domain loses its supply; the keeper knows the DB straps. -/
def execShipEnter (s : State) : Res :=
  .next <| s.when (s.md.entry = .shipOff) fun s =>
    let straps := s.word A.MOD_STRAP
    { (s.porReset.setWord A.MOD_STRAP straps).set R.MOD_MODE_STATUS.MODE 0 with power := .off }

/-- SHIP_ABANDON (R33): VBUS appears on port `p`. -/
def execShipAbandon (p : Fin 4) (s : State) : Res :=
  .next <| s.when (s.md.entry = .ship || s.md.entry = .shipDown || s.md.entry = .shipOff) fun s =>
    let s := { s with md := { s.md with entry := .none } }.set R.MOD_MODE_STATUS.ENTRY_PENDING 0
    let s := s.setSat (R.PD_VBUS_MEAS.VBUS p) (max 4000 (s.get (R.PD_VBUS_MEAS.VBUS p)))
    s.keepRails.raiseMode s.mode s.mode 0x02

/-- The keeper starts the unit with a cause. -/
def State.keeperStart (s : State) (cause vbat : Nat) (vbus : List Nat) : State :=
  let t := s.porReset
  { t with md := { t.md with keeper := cause } }.porRelease vbat vbus

/-- SHIP_EXIT_BUTTON (R34). -/
def execShipExitButton (vbat : Nat) (vbus : List Nat) (s : State) : Res :=
  .next <| if s.power = .off then s.keeperStart 2 vbat vbus else s

/-- SHIP_EXIT_VBUS (R34). -/
def execShipExitVbus (p : Fin 4) (vbat : Nat) (vbus : List Nat) (s : State) : Res :=
  .next <| if s.power = .off && s.bit R.MOD_STRAP.DB p then s.keeperStart 3 vbat vbus else s

/-! ### Pack cutoff (R35) -/

/-- The cutoff level in mV. -/
def State.cutoff (s : State) : Nat := s.get R.MOD_LOWPWR_CFG.VCUT * 2 * s.strapCells

/-- The pack was found below the level: event and ALERT#. -/
def State.packGoesLow (s : State) : State :=
  if s.md.packLow then s else { s with md := { s.md with packLow := true } }.raiseMode s.mode s.mode 0x05

/-- PACK_LOW (R35); from the end of the boot (R34). -/
def execPackLow (vbat : Nat) (s : State) : Res :=
  .next <| s.when (s.mode = 2 && s.md.boot = .ready) fun s =>
    let s := s.setSat R.MOD_BAT_MEAS.VBAT vbat
    if vbat < s.cutoff then s.packGoesLow else { s with md := { s.md with packLow := false } }

/-- PACK_CUTOFF_EXPIRY (R33, R35): SHIP with D = 0. -/
def execPackCutoffExpiry (vbat : Nat) (s : State) : Res :=
  .next <| s.when (s.mode = 2 && s.md.packLow && !s.anyAttached && s.md.longPress = 0 &&
      (s.md.entry = .none || s.md.entry = .ka)) fun s =>
    let s := s.setSat R.MOD_BAT_MEAS.VBAT vbat
    if vbat < s.cutoff then (s.abandonKa.raiseMode 2 0 0x03).shipDown
    else { s with md := { s.md with packLow := false } }

/-- KA_VBAT_CHECK (R35). -/
def execKaVbatCheck (vbat : Nat) (s : State) : Res :=
  .next <| s.when s.inKa fun s =>
    let s := s.setSat R.MOD_BAT_MEAS.VBAT vbat
    if vbat < s.cutoff then (s.wakeUp false false).packGoesLow else s

/-! ### SAFE causes (R36) -/

/-- VSYS_OVP_TRIP (R36). -/
def execVsysOvpTrip (vsys : Nat) (s : State) : Res :=
  .next <| s.when (s.powered && s.get R.MOD_SAFE_CFG.VSYS_OVP < vsys && !s.safeHas 3) fun s =>
    (s.setSat R.MOD_VSYS_STATUS.VSYS vsys).safeEnter 3

/-- A bus has every pair open, and no pair is closing. -/
def State.pairsOpen (s : State) (b : Fin 2) : Bool :=
  !s.busConn b && match (s.path.buses.get b).move with
    | .closing _ _ => false
    | _ => true

/-- PAIR_STUCK_ON (R36). -/
def execPairStuckOn (s : State) : Res :=
  .next <| s.when (s.powered && (s.pairsOpen 0 || s.pairsOpen 1) && !s.safeHas 4) fun s => s.safeEnter 4

/-- BATFET_STUCK_ON (R36): `ibat` in mA. -/
def execBatfetStuckOn (ibat : Int) (s : State) : Res :=
  .next <| s.when (s.powered && s.bat = batOff && 200 ≤ ibat.natAbs && !s.safeHas 5) fun s =>
    (s.seti R.MOD_BAT_MEAS.IBAT (ibat / 2)).safeEnter 5

/-! ### Power button (R42, R43) -/

/-- A press that the unit acts on: the platform powers up (R42), unless the boot waits for an input (R34) or rails are
barred. -/
def State.pressActs (s : State) : Bool :=
  !s.on R.MOD_PWRBTN_CFG.ACTION && s.get R.SEQ_STATUS.PLATFORM = 0 && !s.md.lowBoot && !s.railsBarred

/-- PWRBTN_SHORT_PRESS (R42): the platform powers up, or the press is reported with ALERT#. -/
def execPwrbtnShortPress (s : State) : Res :=
  .next <| s.when (s.md.btnArmed && s.md.longPress = 0) fun s =>
    let s := s.wakeUp false false
    if s.pressActs then s.platformOn [] else s.setPending 0

/-- PWRBTN_ARM (R43). -/
def execPwrbtnArm (s : State) : Res := .next <| s.when true fun s => { s with md := { s.md with btnArmed := true } }

/-! ### Long press (R44) -/

/-- LONG_PRESS (R44). -/
def execLongPress (s : State) : Res :=
  .next <| s.when s.md.btnArmed fun s => (s.wakeUp false false).longPressStart

/-- A bus's group stops and its pair opens. -/
def State.openBus (s : State) (b : Fin 2) : State :=
  let s := if s.sinkConn b then s.loseSink b else s.groupStop b
  s.modBus b fun x => { x with move := .idle, held := none, selMove := false }

/-- LONG_PRESS_STAGE_OFF (R44): ports keep presenting their role. -/
def execLongPressStageOff (s : State) : Res :=
  .next <| s.when (s.md.longPress = 1) fun s =>
    let s := ((s.openBus 0).openBus 1).modCsc fun c => { c with parRun := false }
    let s := s.endCycle.zeroCharge
    let s := if s.charging || s.get R.CHG_STATUS.PHASE = 8 then s.setChgPhase 2 else s
    { s.set R.MOD_BATFET_STATUS.STATE batOff with md := { s.md with longPress := 2 }, path := { s.path with fastOn := false } }

/-- LONG_PRESS_POR (R44). -/
def execLongPressPor (s : State) : Res := .next <| s.when (s.md.longPress = 2) State.porReset

end Sys2Proof.Machine
end

