-- ==== Sys2Proof/Machine/Dispatch.lean ====
section
/-! DEFINITION. Which meaning each command has: one arm per constructor. -/

namespace Sys2Proof.Machine

def exec (i : Instr) (s : State) : Host.Outcome State Fault Refusal :=
  match i with
  | .registerWrite ini addr data full => Sys2Proof.Machine.execRegisterWrite ini addr data full s
  | .accErrClear ini => Sys2Proof.Machine.execAccErrClear ini s
  | .xtalSwitchOver => Sys2Proof.Machine.execXtalSwitchOver s
  | .xtalFail => Sys2Proof.Machine.execXtalFail s
  | .fllLock => Sys2Proof.Machine.execFllLock s
  | .pllLock => Sys2Proof.Machine.execPllLock s
  | .pllUnlock => Sys2Proof.Machine.execPllUnlock s
  | .pllLockRetry locked => Sys2Proof.Machine.execPllLockRetry locked s
  | .refclkLoss => Sys2Proof.Machine.execRefclkLoss s
  | .aonWriteCrossed frame => Sys2Proof.Machine.execAonWriteCrossed frame s
  | .aonPorAssert supplyGone => Sys2Proof.Machine.execAonPorAssert supplyGone s
  | .aonPorRelease vbat vbus => Sys2Proof.Machine.execAonPorRelease vbat vbus s
  | .strapLatch r => Sys2Proof.Machine.execStrapLatch r s
  | .bootRomVerify img0 img1 fuseOk => Sys2Proof.Machine.execBootRomVerify img0 img1 fuseOk s
  | .configImageApply => Sys2Proof.Machine.execConfigImageApply s
  | .powerStageEnable => Sys2Proof.Machine.execPowerStageEnable s
  | .bar0Ready => Sys2Proof.Machine.execBar0Ready s
  | .modeEvaluate ibat => Sys2Proof.Machine.execModeEvaluate ibat s
  | .hybDwellExpiry => Sys2Proof.Machine.execHybDwellExpiry s
  | .modeRequestKeepAlive => Sys2Proof.Machine.execModeRequestKeepAlive s
  | .modeRequestShip => Sys2Proof.Machine.execModeRequestShip s
  | .modeRequestClearSafe vsys pairsOff batOff => Sys2Proof.Machine.execModeRequestClearSafe vsys pairsOff batOff s
  | .kaEntryDelayExpiry => Sys2Proof.Machine.execKaEntryDelayExpiry s
  | .kaWake src => Sys2Proof.Machine.execKaWake src s
  | .kaIdleExpiry => Sys2Proof.Machine.execKaIdleExpiry s
  | .shipDelayExpiry => Sys2Proof.Machine.execShipDelayExpiry s
  | .shipRailsOff => Sys2Proof.Machine.execShipRailsOff s
  | .shipEnter => Sys2Proof.Machine.execShipEnter s
  | .shipAbandon p => Sys2Proof.Machine.execShipAbandon p s
  | .shipExitButton vbat vbus => Sys2Proof.Machine.execShipExitButton vbat vbus s
  | .shipExitVbus p vbat vbus => Sys2Proof.Machine.execShipExitVbus p vbat vbus s
  | .packLow vbat => Sys2Proof.Machine.execPackLow vbat s
  | .packCutoffExpiry vbat => Sys2Proof.Machine.execPackCutoffExpiry vbat s
  | .kaVbatCheck vbat => Sys2Proof.Machine.execKaVbatCheck vbat s
  | .vsysOvpTrip vsys => Sys2Proof.Machine.execVsysOvpTrip vsys s
  | .pairStuckOn => Sys2Proof.Machine.execPairStuckOn s
  | .batfetStuckOn ibat => Sys2Proof.Machine.execBatfetStuckOn ibat s
  | .dbAttach p cc2 level => Sys2Proof.Machine.execDbAttach p cc2 level s
  | .vsysMinReached vsys => Sys2Proof.Machine.execVsysMinReached vsys s
  | .pwrbtnShortPress => Sys2Proof.Machine.execPwrbtnShortPress s
  | .pwrbtnArm => Sys2Proof.Machine.execPwrbtnArm s
  | .longPress => Sys2Proof.Machine.execLongPress s
  | .longPressStageOff => Sys2Proof.Machine.execLongPressStageOff s
  | .longPressPor => Sys2Proof.Machine.execLongPressPor s
  | .bootstrapPrechargeDone ph => Sys2Proof.Machine.execBootstrapPrechargeDone ph s
  | .bootstrapRefresh ph => Sys2Proof.Machine.execBootstrapRefresh ph s
  | .drvLvlApply ph => Sys2Proof.Machine.execDrvLvlApply ph s
  | .halfPeriodWrite ini g data full => Sys2Proof.Machine.execHalfPeriodWrite ini g data full s
  | .delayLineCalibrate => Sys2Proof.Machine.execDelayLineCalibrate s
  | .phaseValley ph v => Sys2Proof.Machine.execPhaseValley ph v s
  | .groupRefValley g v => Sys2Proof.Machine.execGroupRefValley g v s
  | .dirRampHandover g => Sys2Proof.Machine.execDirRampHandover g s
  | .phaseShed g => Sys2Proof.Machine.execPhaseShed g s
  | .phaseMapSet => Sys2Proof.Machine.execPhaseMapSet s
  | .phaseMapSetDone => Sys2Proof.Machine.execPhaseMapSetDone s
  | .phaseCycleLimit ph => Sys2Proof.Machine.execPhaseCycleLimit ph s
  | .phaseOvercurrent ph => Sys2Proof.Machine.execPhaseOvercurrent ph s
  | .phaseHardOvercurrent ph => Sys2Proof.Machine.execPhaseHardOvercurrent ph s
  | .phaseDriverUv ph => Sys2Proof.Machine.execPhaseDriverUv ph s
  | .phaseSwNodeFault ph => Sys2Proof.Machine.execPhaseSwNodeFault ph s
  | .phaseSenseMismatch ph => Sys2Proof.Machine.execPhaseSenseMismatch ph s
  | .phaseSlopeFault ph => Sys2Proof.Machine.execPhaseSlopeFault ph s
  | .phaseCmFault ph => Sys2Proof.Machine.execPhaseCmFault ph s
  | .phaseSelfCheckDone ph fail => Sys2Proof.Machine.execPhaseSelfCheckDone ph fail s
  | .vdrvUv => Sys2Proof.Machine.execVdrvUv s
  | .vdrvRecover => Sys2Proof.Machine.execVdrvRecover s
  | .pairTurnOnDone b => Sys2Proof.Machine.execPairTurnOnDone b s
  | .busMoveRampDone b vin vbus => Sys2Proof.Machine.execBusMoveRampDone b vin vbus s
  | .busMoveBusSettled b => Sys2Proof.Machine.execBusMoveBusSettled b s
  | .inputSelect => Sys2Proof.Machine.execInputSelect s
  | .vExpSettle p => Sys2Proof.Machine.execVExpSettle p s
  | .batfetToSwitch vbat => Sys2Proof.Machine.execBatfetToSwitch vbat s
  | .batfetToLinear vbat => Sys2Proof.Machine.execBatfetToLinear vbat s
  | .batfetFastOn => Sys2Proof.Machine.execBatfetFastOn s
  | .batfetReverseOff => Sys2Proof.Machine.execBatfetReverseOff s
  | .batfetLinearResume => Sys2Proof.Machine.execBatfetLinearResume s
  | .sinkDrop b vin => Sys2Proof.Machine.execSinkDrop b vin s
  | .sinkOvp b vin => Sys2Proof.Machine.execSinkOvp b vin s
  | .sinkOvpReclose b => Sys2Proof.Machine.execSinkOvpReclose b s
  | .sinkReverse b iin => Sys2Proof.Machine.execSinkReverse b iin s
  | .sinkRevReconnect b => Sys2Proof.Machine.execSinkRevReconnect b s
  | .sourceBusReady p => Sys2Proof.Machine.execSourceBusReady p s
  | .sourceOverload p => Sys2Proof.Machine.execSourceOverload p s
  | .sourceShort p => Sys2Proof.Machine.execSourceShort p s
  | .sourceReverse p => Sys2Proof.Machine.execSourceReverse p s
  | .tapDetect => Sys2Proof.Machine.execTapDetect s
  | .tapFault => Sys2Proof.Machine.execTapFault s
  | .packNtcOpen => Sys2Proof.Machine.execPackNtcOpen s
  | .packProbeIdleStart vbat => Sys2Proof.Machine.execPackProbeIdleStart vbat s
  | .packProbeDone vbat => Sys2Proof.Machine.execPackProbeDone vbat s
  | .packAbsentPoll vbat => Sys2Proof.Machine.execPackAbsentPoll vbat s
  | .packInsert vbat ntcOpen => Sys2Proof.Machine.execPackInsert vbat ntcOpen s
  | .packInsertConnect vsys vbat => Sys2Proof.Machine.execPackInsertConnect vsys vbat s
  | .chargerEval v => Sys2Proof.Machine.execChargerEval v s
  | .chgTrickleToPrecharge => Sys2Proof.Machine.execChgTrickleToPrecharge s
  | .chgPrechargeToCc => Sys2Proof.Machine.execChgPrechargeToCc s
  | .chgCcToPrecharge => Sys2Proof.Machine.execChgCcToPrecharge s
  | .chgStepAdvance => Sys2Proof.Machine.execChgStepAdvance s
  | .chgCcToCv => Sys2Proof.Machine.execChgCcToCv s
  | .chgTerminate => Sys2Proof.Machine.execChgTerminate s
  | .chgRecharge => Sys2Proof.Machine.execChgRecharge s
  | .chgNoInputEnd => Sys2Proof.Machine.execChgNoInputEnd s
  | .cellOvTrip cells => Sys2Proof.Machine.execCellOvTrip cells s
  | .cellOvClear => Sys2Proof.Machine.execCellOvClear s
  | .fastTimerExpiry => Sys2Proof.Machine.execFastTimerExpiry s
  | .preTimerExpiry => Sys2Proof.Machine.execPreTimerExpiry s
  | .chgOvercurrent => Sys2Proof.Machine.execChgOvercurrent s
  | .packOvSuspend vbat => Sys2Proof.Machine.execPackOvSuspend vbat s
  | .packOvClear vbat => Sys2Proof.Machine.execPackOvClear vbat s
  | .prbsStep => Sys2Proof.Machine.execPrbsStep s
  | .estimatorUpdate f => Sys2Proof.Machine.execEstimatorUpdate f s
  | .chargeProfileLoad => Sys2Proof.Machine.execChargeProfileLoad s
  | .chargeStart => Sys2Proof.Machine.execChargeStart s
  | .chargeStop => Sys2Proof.Machine.execChargeStop s
  | .chargeRestartAfterFault => Sys2Proof.Machine.execChargeRestartAfterFault s
  | .estimatorRead => Sys2Proof.Machine.execEstimatorRead s
  | .estimatorReset => Sys2Proof.Machine.execEstimatorReset s
  | .puppeteerCompute v => Sys2Proof.Machine.execPuppeteerCompute v s
  | .ovlGrantEnd p usedUs => Sys2Proof.Machine.execOvlGrantEnd p usedUs s
  | .ovlWindowEnd p => Sys2Proof.Machine.execOvlWindowEnd p s
  | .localArbiterEval v => Sys2Proof.Machine.execLocalArbiterEval v s
  | .localArbiterPmaxUpdate => Sys2Proof.Machine.execLocalArbiterPmaxUpdate s
  | .chgShedDeadline power => Sys2Proof.Machine.execChgShedDeadline power s
  | .shedTExpiry p => Sys2Proof.Machine.execShedTExpiry p s
  | .shedHardReset p => Sys2Proof.Machine.execShedHardReset p s
  | .sourceRestore p => Sys2Proof.Machine.execSourceRestore p s
  | .throtDeassert => Sys2Proof.Machine.execThrotDeassert s
  | .intentActivate slot => Sys2Proof.Machine.execIntentActivate slot s
  | .intentExpire slot => Sys2Proof.Machine.execIntentExpire slot s
  | .followerRemove u => Sys2Proof.Machine.execFollowerRemove u s
  | .localFallbackEnter => Sys2Proof.Machine.execLocalFallbackEnter s
  | .budgetIntent => Sys2Proof.Machine.execBudgetIntent s
  | .budgetCancelIntent => Sys2Proof.Machine.execBudgetCancelIntent s
  | .budgetSetPolicy => Sys2Proof.Machine.execBudgetSetPolicy s
  | .budgetQuery => Sys2Proof.Machine.execBudgetQuery s
  | .ccRpDetect p src cc2 ra level => Sys2Proof.Machine.execCcRpDetect p src cc2 ra level s
  | .sinkAttach p vbus => Sys2Proof.Machine.execSinkAttach p vbus s
  | .sourceAttach p vbus => Sys2Proof.Machine.execSourceAttach p vbus s
  | .rpChange p level => Sys2Proof.Machine.execRpChange p level s
  | .sinkDetach p vbus => Sys2Proof.Machine.execSinkDetach p vbus s
  | .sourceDetach p => Sys2Proof.Machine.execSourceDetach p s
  | .accessoryAttach p kind l1 l2 => Sys2Proof.Machine.execAccessoryAttach p kind l1 l2 s
  | .accessoryDetach p => Sys2Proof.Machine.execAccessoryDetach p s
  | .drpToggle p => Sys2Proof.Machine.execDrpToggle p s
  | .tryTimeout p => Sys2Proof.Machine.execTryTimeout p s
  | .errorRecoveryEnd p => Sys2Proof.Machine.execErrorRecoveryEnd p s
  | .kaScan p found => Sys2Proof.Machine.execKaScan p found s
  | .rpLevelRaise p => Sys2Proof.Machine.execRpLevelRaise p s
  | .vconnOcp p => Sys2Proof.Machine.execVconnOcp p s
  | .vconnReverse p => Sys2Proof.Machine.execVconnReverse p s
  | .vbusDischargeDone p vbus => Sys2Proof.Machine.execVbusDischargeDone p vbus s
  | .moistScan p => Sys2Proof.Machine.execMoistScan p s
  | .moistTestDone p z ocv => Sys2Proof.Machine.execMoistTestDone p z ocv s
  | .moistRetest p => Sys2Proof.Machine.execMoistRetest p s
  | .moistTestAbort p => Sys2Proof.Machine.execMoistTestAbort p s
  | .pdTxRetry p => Sys2Proof.Machine.execPdTxRetry p s
  | .chunkTimeout p => Sys2Proof.Machine.execChunkTimeout p s
  | .discoverIdentityRetry p => Sys2Proof.Machine.execDiscoverIdentityRetry p s
  | .bistRx p bistMode vbus => Sys2Proof.Machine.execBistRx p bistMode vbus s
  | .bistCarrierEnd p => Sys2Proof.Machine.execBistCarrierEnd p s
  | .hardResetRx p => Sys2Proof.Machine.execHardResetRx p s
  | .softResetRx p => Sys2Proof.Machine.execSoftResetRx p s
  | .srcCapsRx p epr rev2 vbus objs => Sys2Proof.Machine.execSrcCapsRx p epr rev2 vbus objs s
  | .acceptRx p => Sys2Proof.Machine.execAcceptRx p s
  | .psRdyRxSink p => Sys2Proof.Machine.execPsRdyRxSink p s
  | .rejectRx p => Sys2Proof.Machine.execRejectRx p s
  | .waitRx p => Sys2Proof.Machine.execWaitRx p s
  | .sinkRequestRetry p => Sys2Proof.Machine.execSinkRequestRetry p s
  | .senderResponseTimeout p => Sys2Proof.Machine.execSenderResponseTimeout p s
  | .psTransitionTimeout p => Sys2Proof.Machine.execPsTransitionTimeout p s
  | .sinkWaitCapTimeout p => Sys2Proof.Machine.execSinkWaitCapTimeout p s
  | .ppsKeepalive p => Sys2Proof.Machine.execPpsKeepalive p s
  | .eprEntryStart p => Sys2Proof.Machine.execEprEntryStart p s
  | .eprModeRx p action => Sys2Proof.Machine.execEprModeRx p action s
  | .eprEnterTimeout p => Sys2Proof.Machine.execEprEnterTimeout p s
  | .eprKeepalive p => Sys2Proof.Machine.execEprKeepalive p s
  | .sourceCapsSend p => Sys2Proof.Machine.execSourceCapsSend p s
  | .requestRx p rdo rev2 => Sys2Proof.Machine.execRequestRx p rdo rev2 s
  | .srcTransitionStart p => Sys2Proof.Machine.execSrcTransitionStart p s
  | .srcPsRdy p vbus => Sys2Proof.Machine.execSrcPsRdy p vbus s
  | .ppsSourceTimeout p => Sys2Proof.Machine.execPpsSourceTimeout p s
  | .sinkTxOk p => Sys2Proof.Machine.execSinkTxOk p s
  | .sinkTxWaitDrop p => Sys2Proof.Machine.execSinkTxWaitDrop p s
  | .prSwapRx p => Sys2Proof.Machine.execPrSwapRx p s
  | .prSwapSourceOff p => Sys2Proof.Machine.execPrSwapSourceOff p s
  | .prSwapVbusLow p vbus => Sys2Proof.Machine.execPrSwapVbusLow p vbus s
  | .psRdyRxSwap p => Sys2Proof.Machine.execPsRdyRxSwap p s
  | .swapPsRdyTimeout p => Sys2Proof.Machine.execSwapPsRdyTimeout p s
  | .vconnSwapRx p => Sys2Proof.Machine.execVconnSwapRx p s
  | .vconnSourceTimeout p => Sys2Proof.Machine.execVconnSourceTimeout p s
  | .drSwapRx p hdr => Sys2Proof.Machine.execDrSwapRx p hdr s
  | .frsSignalDetect p => Sys2Proof.Machine.execFrsSignalDetect p s
  | .frSwapRx p => Sys2Proof.Machine.execFrSwapRx p s
  | .frsSourceWaitExpiry p => Sys2Proof.Machine.execFrsSourceWaitExpiry p s
  | .hrSinkAllowanceEnd p vbus => Sys2Proof.Machine.execHrSinkAllowanceEnd p vbus s
  | .hrSourceVbusOff p => Sys2Proof.Machine.execHrSourceVbusOff p s
  | .hrSourceRecover p => Sys2Proof.Machine.execHrSourceRecover p s
  | .hostRoutedRx p sop1 needs kind hdr ext data => Sys2Proof.Machine.execHostRoutedRx p sop1 needs kind hdr ext data s
  | .hostReplyTimeout p => Sys2Proof.Machine.execHostReplyTimeout p s
  | .tableRequestRx p kind => Sys2Proof.Machine.execTableRequestRx p kind s
  | .pdSetPortPolicy => Sys2Proof.Machine.execPdSetPortPolicy s
  | .pdSetSourceCaps => Sys2Proof.Machine.execPdSetSourceCaps s
  | .pdSetSinkCaps => Sys2Proof.Machine.execPdSetSinkCaps s
  | .pdRequest => Sys2Proof.Machine.execPdRequest s
  | .pdSendMsg data => Sys2Proof.Machine.execPdSendMsg data s
  | .pdSwapPr => Sys2Proof.Machine.execPdSwapPr s
  | .pdSwapVconn => Sys2Proof.Machine.execPdSwapVconn s
  | .pdSwapDr => Sys2Proof.Machine.execPdSwapDr s
  | .pdHardReset => Sys2Proof.Machine.execPdHardReset s
  | .pdPortDisable => Sys2Proof.Machine.execPdPortDisable s
  | .portDisableWrite ini p data full => Sys2Proof.Machine.execPortDisableWrite ini p data full s
  | .portErrRecovery ini p data full => Sys2Proof.Machine.execPortErrRecovery ini p data full s
  | .hifEnable ini data full => Sys2Proof.Machine.execHifEnable ini data full s
  | .kick ini data full => Sys2Proof.Machine.execKick ini data full s
  | .doorbellPoll => Sys2Proof.Machine.execDoorbellPoll s
  | .doorbellFetchDone err page => Sys2Proof.Machine.execDoorbellFetchDone err page s
  | .entryFetchDone q err data => Sys2Proof.Machine.execEntryFetchDone q err data s
  | .irqItimeExpiry ring => Sys2Proof.Machine.execIrqItimeExpiry ring s
  | .sqEnable ini q data full => Sys2Proof.Machine.execSqEnable ini q data full s
  | .sqDisable ini q data full => Sys2Proof.Machine.execSqDisable ini q data full s
  | .sqDrainDone q => Sys2Proof.Machine.execSqDrainDone q s
  | .cqEnable ini q data full => Sys2Proof.Machine.execCqEnable ini q data full s
  | .cqDisable ini q data full => Sys2Proof.Machine.execCqDisable ini q data full s
  | .evqEnable ini data full => Sys2Proof.Machine.execEvqEnable ini data full s
  | .evqDisable ini data full => Sys2Proof.Machine.execEvqDisable ini data full s
  | .functionLevelReset kind => Sys2Proof.Machine.execFunctionLevelReset kind s
  | .busMasterDisable d3 => Sys2Proof.Machine.execBusMasterDisable d3 s
  | .linkL1Entry => Sys2Proof.Machine.execLinkL1Entry s
  | .nop => Sys2Proof.Machine.execNop s
  | .setParam => Sys2Proof.Machine.execSetParam s
  | .getParam => Sys2Proof.Machine.execGetParam s
  | .getStatusBlock => Sys2Proof.Machine.execGetStatusBlock s
  | .setEventMask => Sys2Proof.Machine.execSetEventMask s
  | .captureConfig => Sys2Proof.Machine.execCaptureConfig s
  | .captureArm frame => Sys2Proof.Machine.execCaptureArm frame s
  | .captureStop cur => Sys2Proof.Machine.execCaptureStop cur s
  | .captureRingAttach => Sys2Proof.Machine.execCaptureRingAttach s
  | .captureRingDetach => Sys2Proof.Machine.execCaptureRingDetach s
  | .thresholdFire n before after frame => Sys2Proof.Machine.execThresholdFire n before after frame s
  | .captureTrigger c src idx frame => Sys2Proof.Machine.execCaptureTrigger c src idx frame s
  | .captureBlockClose c run lost forming => Sys2Proof.Machine.execCaptureBlockClose c run lost forming s
  | .writeOutStart corr bad => Sys2Proof.Machine.execWriteOutStart corr bad s
  | .fullHeadFetch c err page => Sys2Proof.Machine.execFullHeadFetch c err page s
  | .pressureRestore forming => Sys2Proof.Machine.execPressureRestore forming s
  | .slowRateApply => Sys2Proof.Machine.execSlowRateApply s
  | .oneshotGo ini data full => Sys2Proof.Machine.execOneshotGo ini data full s
  | .oneshotDone mean => Sys2Proof.Machine.execOneshotDone mean s
  | .arpPrepare pec => Sys2Proof.Machine.execArpPrepare pec s
  | .arpResetDevice directed pec => Sys2Proof.Machine.execArpResetDevice directed pec s
  | .arpGetUdid won => Sys2Proof.Machine.execArpGetUdid won s
  | .arpGetUdidDirected addr => Sys2Proof.Machine.execArpGetUdidDirected addr s
  | .arpAssignAddress udid addr pec otherCompat => Sys2Proof.Machine.execArpAssignAddress udid addr pec otherCompat s
  | .masterAssignStart => Sys2Proof.Machine.execMasterAssignStart s
  | .assignRetry u => Sys2Proof.Machine.execAssignRetry u s
  | .selfAssign => Sys2Proof.Machine.execSelfAssign s
  | .twbKaAddressMatch addr => Sys2Proof.Machine.execTwbKaAddressMatch addr s
  | .twbWriteApplied => Sys2Proof.Machine.execTwbWriteApplied s
  | .twbStatus => Sys2Proof.Machine.execTwbStatus s
  | .eventSummary => Sys2Proof.Machine.execEventSummary s
  | .eventAck w => Sys2Proof.Machine.execEventAck w s
  | .lastResult => Sys2Proof.Machine.execLastResult s
  | .lastEvent count typ => Sys2Proof.Machine.execLastEvent count typ s
  | .regRead count addr => Sys2Proof.Machine.execRegRead count addr s
  | .regWrite w => Sys2Proof.Machine.execRegWrite w s
  | .cmdSubmit w => Sys2Proof.Machine.execCmdSubmit w s
  | .cplRead => Sys2Proof.Machine.execCplRead s
  | .cplPop w => Sys2Proof.Machine.execCplPop w s
  | .resultLo => Sys2Proof.Machine.execResultLo s
  | .resultHi => Sys2Proof.Machine.execResultHi s
  | .mbxRead => Sys2Proof.Machine.execMbxRead s
  | .mbxWrite w => Sys2Proof.Machine.execMbxWrite w s
  | .mbxAckWrite w => Sys2Proof.Machine.execMbxAckWrite w s
  | .mbxAckRead => Sys2Proof.Machine.execMbxAckRead s
  | .compatWrite data lost => Sys2Proof.Machine.execCompatWrite data lost s
  | .compatRead n => Sys2Proof.Machine.execCompatRead n s
  | .alertResponse won => Sys2Proof.Machine.execAlertResponse won s
  | .hostNotify r => Sys2Proof.Machine.execHostNotify r s
  | .hostNotifyRetry r => Sys2Proof.Machine.execHostNotifyRetry r s
  | .sclTimeout inNotify => Sys2Proof.Machine.execSclTimeout inNotify s
  | .sdaTimeout => Sys2Proof.Machine.execSdaTimeout s
  | .sdaStuck => Sys2Proof.Machine.execSdaStuck s
  | .cscFrameStart own => Sys2Proof.Machine.execCscFrameStart own s
  | .cscSlotRx u x own => Sys2Proof.Machine.execCscSlotRx u x own s
  | .cscDiscoveryEnd => Sys2Proof.Machine.execCscDiscoveryEnd s
  | .followerReadmit u addressed => Sys2Proof.Machine.execFollowerReadmit u addressed s
  | .localFallbackLeave => Sys2Proof.Machine.execLocalFallbackLeave s
  | .twoMasters => Sys2Proof.Machine.execTwoMasters s
  | .indexClash u => Sys2Proof.Machine.execIndexClash u s
  | .syncLock half => Sys2Proof.Machine.execSyncLock half s
  | .syncLost => Sys2Proof.Machine.execSyncLost s
  | .parCfgApply => Sys2Proof.Machine.execParCfgApply s
  | .tunnelTimeout => Sys2Proof.Machine.execTunnelTimeout s
  | .cscSleepEnter => Sys2Proof.Machine.execCscSleepEnter s
  | .cscWakeBurst => Sys2Proof.Machine.execCscWakeBurst s
  | .cscWakeNoMaster => Sys2Proof.Machine.execCscWakeNoMaster s
  | .cascadeStatus => Sys2Proof.Machine.execCascadeStatus s
  | .cascadeRemoteRead => Sys2Proof.Machine.execCascadeRemoteRead s
  | .cascadeRemoteWrite => Sys2Proof.Machine.execCascadeRemoteWrite s
  | .thermalSample die ntc => Sys2Proof.Machine.execThermalSample die ntc s
  | .sampleRateSlow => Sys2Proof.Machine.execSampleRateSlow s
  | .thermalShutdownTrip sensors marks => Sys2Proof.Machine.execThermalShutdownTrip sensors marks s
  | .sensorReinstate => Sys2Proof.Machine.execSensorReinstate s
  | .jackPeriodStart => Sys2Proof.Machine.execJackPeriodStart s
  | .jackAnswer ini data full tick => Sys2Proof.Machine.execJackAnswer ini data full tick s
  | .jackCheckin ini data full => Sys2Proof.Machine.execJackCheckin ini data full s
  | .coreFaultReset ecc app => Sys2Proof.Machine.execCoreFaultReset ecc app s
  | .fallbackExpiry cur => Sys2Proof.Machine.execFallbackExpiry cur s
  | .jackKey ini data full late => Sys2Proof.Machine.execJackKey ini data full late s
  | .jackDisable ini data full late => Sys2Proof.Machine.execJackDisable ini data full late s
  | .jackEnable ini data full => Sys2Proof.Machine.execJackEnable ini data full s
  | .jackLock ini data full => Sys2Proof.Machine.execJackLock ini data full s
  | .selfTest r => Sys2Proof.Machine.execSelfTest r s
  | .railEnable n => Sys2Proof.Machine.execRailEnable n s
  | .railGood n => Sys2Proof.Machine.execRailGood n s
  | .railPgTimeout n => Sys2Proof.Machine.execRailPgTimeout n s
  | .railLossOfGood n => Sys2Proof.Machine.execRailLossOfGood n s
  | .railDisable n => Sys2Proof.Machine.execRailDisable n s
  | .railOff n => Sys2Proof.Machine.execRailOff n s
  | .railStuck n => Sys2Proof.Machine.execRailStuck n s
  | .latchedPowerUp => Sys2Proof.Machine.execLatchedPowerUp s
  | .auxOverload n => Sys2Proof.Machine.execAuxOverload n s
  | .auxUvlo vsys => Sys2Proof.Machine.execAuxUvlo vsys s
  | .railConfig => Sys2Proof.Machine.execRailConfig s
  | .railOn => Sys2Proof.Machine.execRailOn s
  | .railOffCmd => Sys2Proof.Machine.execRailOffCmd s
  | .seqPlatformOn => Sys2Proof.Machine.execSeqPlatformOn s
  | .seqPlatformOff => Sys2Proof.Machine.execSeqPlatformOff s
  | .tsLoRead ini => Sys2Proof.Machine.execTsLoRead ini s
  | .aonCmpApply n frame => Sys2Proof.Machine.execAonCmpApply n frame s
  | .aonCmpFire n frame => Sys2Proof.Machine.execAonCmpFire n frame s
  | .ftEnable ini n data full => Sys2Proof.Machine.execFtEnable ini n data full s
  | .ftDisable ini n data full count up => Sys2Proof.Machine.execFtDisable ini n data full count up s
  | .ftCntWrite ini n data full up => Sys2Proof.Machine.execFtCntWrite ini n data full up s
  | .ftTopWrite ini n data full count up => Sys2Proof.Machine.execFtTopWrite ini n data full count up s
  | .ftCmpWrite ini n k data full count up frame => Sys2Proof.Machine.execFtCmpWrite ini n k data full count up frame s
  | .ftCompareMatch n k up frame => Sys2Proof.Machine.execFtCompareMatch n k up frame s
  | .ftWrap n => Sys2Proof.Machine.execFtWrap n s
  | .ftCaptureNow ini n data full count up => Sys2Proof.Machine.execFtCaptureNow ini n data full count up s
  | .ftCaptureEdge n rise count up => Sys2Proof.Machine.execFtCaptureEdge n rise count up s
  | .ftCaptRead ini n => Sys2Proof.Machine.execFtCaptRead ini n s
  | .debugHalt counts => Sys2Proof.Machine.execDebugHalt counts s
  | .h2uPush ini data full => Sys2Proof.Machine.execH2uPush ini data full s
  | .mbxMessageServe => Sys2Proof.Machine.execMbxMessageServe s
  | .h2uAckRead ini => Sys2Proof.Machine.execH2uAckRead ini s
  | .u2hPop ini => Sys2Proof.Machine.execU2hPop ini s
  | .u2hAckWrite ini data full => Sys2Proof.Machine.execU2hAckWrite ini data full s
  | .echo => Sys2Proof.Machine.execEcho s
  | .fwInfo => Sys2Proof.Machine.execFwInfo s
  | .logEntry => Sys2Proof.Machine.execLogEntry s
  | .dbgUnlock verifies => Sys2Proof.Machine.execDbgUnlock verifies s
  | .dbgLock => Sys2Proof.Machine.execDbgLock s
  | .recoverWrite => Sys2Proof.Machine.execRecoverWrite s
  | .recoverBoot img => Sys2Proof.Machine.execRecoverBoot img s
  | .ec2uTake => Sys2Proof.Machine.execEc2uTake s
  | .unitAckWrite ini data full => Sys2Proof.Machine.execUnitAckWrite ini data full s
  | .u2ecSend ini data full => Sys2Proof.Machine.execU2ecSend ini data full s
  | .lockRead ini n => Sys2Proof.Machine.execLockRead ini n s
  | .lockWrite ini n data full => Sys2Proof.Machine.execLockWrite ini n data full s
  | .fwStage readOk storeOk img => Sys2Proof.Machine.execFwStage readOk storeOk img s
  | .fwActivate => Sys2Proof.Machine.execFwActivate s
  | .activationTimeout supervisor => Sys2Proof.Machine.execActivationTimeout supervisor s
  | .probationEnd fuseOk => Sys2Proof.Machine.execProbationEnd fuseOk s
  | .fwAbort => Sys2Proof.Machine.execFwAbort s
  | .configCommitImage readOk storeOk image => Sys2Proof.Machine.execConfigCommitImage readOk storeOk image s
  | .configCommitSwap storeOk => Sys2Proof.Machine.execConfigCommitSwap storeOk s
  | .logEntryWrite => Sys2Proof.Machine.execLogEntryWrite s
  | .logWriteAbandon vsys => Sys2Proof.Machine.execLogWriteAbandon vsys s
  | .logRead => Sys2Proof.Machine.execLogRead s
  | .logClear => Sys2Proof.Machine.execLogClear s
  | .gpioEdge n rise frame => Sys2Proof.Machine.execGpioEdge n rise frame s
  | .gpioCfgWrite ini n data full => Sys2Proof.Machine.execGpioCfgWrite ini n data full s
  | .goodcrcRx p => Sys2Proof.Machine.execGoodcrcRx p s
  | .sinkCapsRx p objs => Sys2Proof.Machine.execSinkCapsRx p objs s
  | .swapReplyRx p reply => Sys2Proof.Machine.execSwapReplyRx p reply s
  | .softResetAcceptRx p => Sys2Proof.Machine.execSoftResetAcceptRx p s
  | .eprKeepaliveAckRx p => Sys2Proof.Machine.execEprKeepaliveAckRx p s
  | .cableIdentityRx p amps5 epr active rev2 vmax vid => Sys2Proof.Machine.execCableIdentityRx p amps5 epr active rev2 vmax vid s
  | .chunkRx p sop1 kind hdr ext bytes => Sys2Proof.Machine.execChunkRx p sop1 kind hdr ext bytes s
  | .tsinktxExpiry p => Sys2Proof.Machine.execTsinktxExpiry p s
  | .hrSinkVbusReturn p vbus => Sys2Proof.Machine.execHrSinkVbusReturn p vbus s
  | .attachWaitCcOpen p => Sys2Proof.Machine.execAttachWaitCcOpen p s
  | .busMasterEnable d0 => Sys2Proof.Machine.execBusMasterEnable d0 s
  | .perstDeassert trained => Sys2Proof.Machine.execPerstDeassert trained s
  | .debugResume => Sys2Proof.Machine.execDebugResume s
  | .fwActivateWaitTimeout => Sys2Proof.Machine.execFwActivateWaitTimeout s

end Sys2Proof.Machine
end

