-- ==== Sys2Proof/Machine/Idle.lean ====
section
/-! DEFINITION. What passes when no command waits: time (R11, R19). -/

namespace Sys2Proof.Machine

/-- Time passes while the AON domain runs: one unit of TS with TSF, else one AON tick (log entry 6). -/
def State.idle (s : State) : State :=
  if s.power = .on then
    { s with ts := if s.on R.GLB_CLK_STATUS.FLL_LOCK then s.ts + 1 else (s.ts / 1024 + 1) * 1024 }
  else s

end Sys2Proof.Machine
end

