-- ==== Sys2Proof/Safety.lean ====
section
/-! DEFINITION. What counts as a safe state, in the terms the statements use. -/

namespace Sys2Proof.Machine

/-- A listed word is no reset word and holds 0 in every reserved bit (R441). -/
def regEntryOk (p : Nat × Word) : Prop := p.2 ≠ RegMap.resetWord p.1 ∧ p.2 &&& RegMap.implMask p.1 = p.2

/-- The register space in its canonical form: addresses strictly rising, and every listed word as `regEntryOk` says. -/
def RegsOk (rf : List (Nat × Word)) : Prop := rf.Pairwise (fun p q => p.1 < q.1) ∧ ∀ p ∈ rf, regEntryOk p

/-- The invariant of the machine: the register space is in its canonical form, so that equal register contents are equal data
and every reserved bit reads 0 (R435, R441). -/
def State.Inv (s : State) : Prop := RegsOk s.regs

/-- A run is safe that meets no fault and no refusal. -/
def Safe (o : Host.Outcome State Fault Refusal) : Prop := ∃ t, o = .next t

end Sys2Proof.Machine
end

