-- ==== Sys2Proof/Certificates/Slice0/Obligations.lean ====
section
/-! DEFINITION. The statements about the block. The first part states rules of the spec and rules of the whole machine; the second
part states, for every command, where it completes and with which state, and so what it changes and what it leaves. -/

open Sys2Proof Sys2Proof.Machine

/-- A step runs the command at the front of the queue. For every command c and state s whose queue is c followed by a rest:
step s is exec c on s with the queue holding the rest. -/
def Obligations.StepRunsTheFrontCommand : Prop :=
  ∀ (s : State) (c : Instr) (rest : List Instr), s.pending = c :: rest → step s = exec c { s with pending := rest }

/-- On an empty queue the block idles and time passes (the model's choice, log entry 6). With an empty queue, a step answers
a next state that differs from s in TS alone: one unit of TS later while the FLL is locked, else at the next AON tick; a
block that is not powered keeps its state. That an idle step passes time is the model's choice, log entry 6. -/
def Obligations.IdleOnEmptyQueue : Prop :=
  ∀ s : State, s.pending = [] →
    (s.power = .on → s.on R.GLB_CLK_STATUS.FLL_LOCK → step s = .next { s with ts := s.ts + 1 }) ∧
    (s.power = .on → ¬ s.on R.GLB_CLK_STATUS.FLL_LOCK → step s = .next { s with ts := 1024 * (s.ts / 1024) + 1024 }) ∧
    (s.power ≠ .on → step s = .next s)

/-- The state after reset meets the invariant. The register space of State.reset is in its canonical form: addresses rising,
no listed word equal to a reset word, no reserved bit set. -/
def Obligations.ResetInv : Prop := State.reset.Inv

/-- Every step keeps the register space canonical and its reserved bits 0. From every state that meets the invariant,
whichever command stands in front, a step that answers a next state answers one that meets the invariant: the listed
addresses rise, no listed word equals its reset word, and no listed word shows a reserved bit. -/
def Obligations.EveryStepKeepsInv : Prop := ∀ s t : State, s.Inv → step s = .next t → t.Inv

/-- After every step every reserved bit of every register reads 0. From a state that meets the invariant, after a step every
bit that the register map does not implement at an address, reserved addresses included, reads 0. -/
def Obligations.ReservedBitsReadZero : Prop :=
  ∀ s t : State, s.Inv → step s = .next t →
    ∀ a i : Nat, (RegMap.implMask a).getLsbD i = false → (t.word a).getLsbD i = false

/-- No command stops the block. For every command and every state, exec answers a next state: no fault, no refusal. -/
def Obligations.EveryCommandCompletes : Prop := ∀ (c : Instr) (s : State), ∃ t, exec c s = .next t

/-- Without the AON domain only the power events act (log entry 5). While the unit is off or held in AON power-on reset,
every command but AON_POR_ASSERT, AON_POR_RELEASE, SHIP_EXIT_BUTTON and SHIP_EXIT_VBUS leaves the whole state as it is. That
an event that cannot arise changes nothing is the model's choice, log entry 5. -/
def Obligations.OnlyPowerEventsActUnpowered : Prop :=
  ∀ (c : Instr) (s : State), s.power ≠ .on → (∀ b, c ≠ .aonPorAssert b) → (∀ v l, c ≠ .aonPorRelease v l) →
    (∀ v l, c ≠ .shipExitButton v l) → (∀ p v l, c ≠ .shipExitVbus p v l) → exec c s = .next s

/-- The edges of AON power-on reset and the two SHIP exits complete. AON_POR_ASSERT holds the unit in reset with TS 0, every
register at its reset value, no event counted and no command outstanding; the keeper's latch stays unless every supply has
gone. AON_POR_RELEASE with a supply of 3.100 V or more releases the unit and sets the latch to supply. The exits from SHIP
start the unit with their causes 2 and 3. What the release does beside is porRelease; that the model releases from 3.038 V is
log entry 66. -/
def Obligations.PowerEdges : Prop :=
  ∀ s : State,
    (∀ gone : Bool, s.power = .on ∨ (s.power = .off ∧ gone) → ∃ t, exec (.aonPorAssert gone) s = .next t ∧
      t.power = .por ∧ t.ts = 0 ∧ t.regs = [] ∧ t.evSeq = 0 ∧ t.cmds = [] ∧ t.aonq = [] ∧
      t.md.keeper = if gone then 0 else s.md.keeper) ∧
    (∀ (vbat : Nat) (vbus : List Nat), s.power = .por → 3100 ≤ vbus.foldl max vbat →
      exec (.aonPorRelease vbat vbus) s = .next (s.porRelease vbat vbus)) ∧
    (∀ (vbat : Nat) (vbus : List Nat), (s.porRelease vbat vbus).power = .on ∧ (s.porRelease vbat vbus).md.keeper = 0) ∧
    (∀ (vbat : Nat) (vbus : List Nat), s.power = .off → exec (.shipExitButton vbat vbus) s = .next
      (({ s.porReset with md := { s.porReset.md with keeper := 2 } } : State).porRelease vbat vbus)) ∧
    (∀ (p : Fin 4) (vbat : Nat) (vbus : List Nat), s.power = .off → s.bit R.MOD_STRAP.DB p →
      exec (.shipExitVbus p vbat vbus) s = .next
        (({ s.porReset with md := { s.porReset.md with keeper := 3 } } : State).porRelease vbat vbus))

/-- Which outstanding command starts next. A command starts only while firmware runs and not in KEEP-ALIVE. It has not
started; every command of its ring fetched before it has started, and with FENCE none is still outstanding; and no command
fetched before it is free to start. -/
def Obligations.CommandStartOrder : Prop :=
  ∀ (s : State) (c : Cmd), s.nextCmd = some c →
    s.fwRuns ∧ s.mode ≠ 1 ∧ ∃ pre post, s.cmds = pre ++ c :: post ∧ c.started = false ∧
      (∀ d ∈ pre, d.src = c.src → d.started = true ∧ c.fence = false) ∧
      (∀ pre' d rest, pre = pre' ++ d :: rest →
        d.started = true ∨ ∃ e ∈ pre', e.src = d.src ∧ (e.started = false ∨ d.fence = true))

/-- PWRBTN# is ignored after AON power-on reset until it has read high. AON_POR_ASSERT, the reset of a long press and both
SHIP exits leave the button unarmed, and the release of reset does not arm it. While it is unarmed neither a short nor a long
press changes anything. PWRBTN_ARM (the pin has read high for 10 ms) arms it and changes nothing else. -/
def Obligations.PowerButtonIgnored : Prop :=
  ∀ s : State,
    (∀ gone : Bool, s.power = .on ∨ (s.power = .off ∧ gone) →
      ∃ t, exec (.aonPorAssert gone) s = .next t ∧ t.md.btnArmed = false) ∧
    (s.power = .on → s.md.longPress = 2 → ∃ t, exec .longPressPor s = .next t ∧ t.md.btnArmed = false) ∧
    (∀ (vbat : Nat) (vbus : List Nat), s.power = .off →
      ∃ t, exec (.shipExitButton vbat vbus) s = .next t ∧ t.md.btnArmed = false) ∧
    (∀ (p : Fin 4) (vbat : Nat) (vbus : List Nat), s.power = .off → s.bit R.MOD_STRAP.DB p →
      ∃ t, exec (.shipExitVbus p vbat vbus) s = .next t ∧ t.md.btnArmed = false) ∧
    (∀ (vbat : Nat) (vbus : List Nat), s.power = .por → 3100 ≤ vbus.foldl max vbat →
      ∃ t, exec (.aonPorRelease vbat vbus) s = .next t ∧ t.md.btnArmed = s.md.btnArmed) ∧
    (s.md.btnArmed = false → exec .pwrbtnShortPress s = .next s ∧ exec .longPress s = .next s) ∧
    (s.power = .on → exec .pwrbtnArm s = .next { s with md := { s.md with btnArmed := true } })

/-- A measured quantity reads as the nearest representable value. Setting an implemented field by the operations that store
measured quantities: an unsigned field then reads the minimum of the quantity and its greatest value, a signed field the
quantity held between its least and greatest values; every field of another word reads as before. -/
def Obligations.MeasuredQuantitiesSaturate : Prop :=
  ∀ (s : State) (f : Fld), s.Inv → f.lo + f.width ≤ 32 → 1 ≤ f.width →
    fieldMask f.lo f.width &&& RegMap.implMask f.addr = fieldMask f.lo f.width →
    (∀ v : Nat, (s.setSat f v).get f = min v (2 ^ f.width - 1)) ∧
    (∀ v : Int, (s.seti f v).geti f = max (-(2 ^ (f.width - 1))) (min (2 ^ (f.width - 1) - 1) v)) ∧
    (∀ (v : Nat) (g : Fld), g.addr ≠ f.addr → (s.setSat f v).get g = s.get g) ∧
    (∀ (v : Int) (g : Fld), g.addr ≠ f.addr → (s.seti f v).get g = s.get g)

/-- BUDGET_CANCEL_INTENT ends the named intent. The command that starts next is BUDGET_CANCEL_INTENT: where a pending or
active intent has the handle in bytes 1:0 (slot in [2:0], generation above), that intent alone ends and the command completes
with SUCCESS; where none has, nothing ends and it completes with BAD_FIELD (0x11) at byte 0. -/
def Obligations.BudgetCancelIntent : Prop :=
  ∀ (s : State) (c : Cmd), s.power = .on → s.nextCmd = some c → c.opcode = 0x11 →
    ((∃ i ∈ s.bgt.intents, i.slot + 8 * i.gen = leAt c.params 0 2) → exec .budgetCancelIntent s = .next (
      let u := s.markStarted c.handle
      let left := u.bgt.intents.filter fun i => i.slot + 8 * i.gen ≠ leAt c.params 0 2
      ({ u with bgt := { u.bgt with intents := left } } : State).complete c.handle { status := 0x00 })) ∧
    ((∀ i ∈ s.bgt.intents, i.slot + 8 * i.gen ≠ leAt c.params 0 2) → exec .budgetCancelIntent s = .next (
      (s.markStarted c.handle).complete c.handle { status := 0x11, diagOfs := 16 }))

/-- BUDGET_QUERY takes the snapshot and completes with SNAP_SEQ. The command that starts next is BUDGET_QUERY: it completes
with SUCCESS and SNAP_SEQ as its result; just before that completion the three snapshot registers hold the values of the
latest computation (each at its 32-bit field's greatest value where it exceeds it), SNAP_SEQ is one more, modulo 256, and
every other word and the rest of the state are as the command found them. -/
def Obligations.BudgetQuery : Prop :=
  ∀ (s : State) (c : Cmd), s.Inv → s.power = .on → s.nextCmd = some c → c.opcode = 0x13 →
    ∃ t : State, exec .budgetQuery s = .next (t.complete c.handle
        { status := 0x00, result := (s.get R.BGT_SNAP_SEQ.SEQ + 1) % 256 }) ∧
      t.get R.BGT_SNAP_SUPPLY.P = min s.bgt.supply (2 ^ 32 - 1) ∧ t.get R.BGT_SNAP_DEMAND.P = min s.bgt.demand (2 ^ 32 - 1) ∧
      t.get R.BGT_SNAP_SHORT.P = min s.bgt.short (2 ^ 32 - 1) ∧
      t.get R.BGT_SNAP_SEQ.SEQ = (s.get R.BGT_SNAP_SEQ.SEQ + 1) % 256 ∧
      (∀ a, a ≠ A.BGT_SNAP_SUPPLY → a ≠ A.BGT_SNAP_DEMAND → a ≠ A.BGT_SNAP_SHORT → a ≠ A.BGT_SNAP_SEQ → t.word a = s.word a) ∧
      { t with regs := s.regs } = s.markStarted c.handle

/-- Reserved and unmapped addresses on every path. An aligned reserved address inside a mapped block reads 0; a whole write
by an initiator that reaches the space changes nothing and records nothing (a host access only brings its link to L0);
SET_PARAM with a mask and REG_WRITE of it complete with SUCCESS and change nothing else. An aligned unmapped address:
SET_PARAM, GET_PARAM and REG_READ give BAD_FIELD, and the refusal is recorded with CAUSE 0x1. -/
def Obligations.ReservedAddresses : Prop :=
  ∀ (s : State) (a : Nat), s.Inv → s.power = .on → a < 65536 → a % 4 = 0 → RegMap.find a = none →
    (RegMap.mapped a →
      (s.word a = 0) ∧
      (∀ (ini : Initiator) (data : Word) (full : Bool), s.reaches ini → (ini = .debug → s.on R.SEC_DBG_CTRL.DBG_EN) →
        (ini = .host → full) →
        exec (.registerWrite ini a data full) s = .next (if ini = .host then s.toL0 else s)) ∧
      (∀ c : Cmd, s.nextCmd = some c → c.opcode = 0x01 → leAt c.params 0 2 = a → BitVec.ofNat 32 (leAt c.params 8 4) ≠ 0 →
        exec .setParam s = .next ((s.markStarted c.handle).complete c.handle { status := 0x00 })) ∧
      (∀ w : TwiWrite, s.on R.TWB_ADDR.AV → s.sysRuns → ¬ s.busyNack → s.writeFlaw true 6 w = none → leAt w.data 0 2 = a →
        ∃ t, exec (.regWrite w) s = .next { t with twb := { t.twb with applying := true } } ∧
          t = s.setLast 0x09 0x00)) ∧
    (¬ RegMap.mapped a →
      (∀ c : Cmd, s.nextCmd = some c → c.opcode = 0x01 → leAt c.params 0 2 = a →
        exec .setParam s = .next (((s.markStarted c.handle).recordRefusal .application a true 0x1).complete c.handle
          { status := 0x11, diagOfs := 16 })) ∧
      (∀ c : Cmd, s.nextCmd = some c → c.opcode = 0x02 → leAt c.params 0 2 = a →
        exec .getParam s = .next (((s.markStarted c.handle).recordRefusal .application a false 0x1).complete c.handle
          { status := 0x11, diagOfs := 16 })) ∧
      (s.on R.TWB_ADDR.AV → s.sysRuns → ¬ s.busyNack →
        exec (.regRead 2 a) s = .next ((s.recordRefusal .ec a false 0x1).emit (.reply [0x11, 0, 0, 0, 0]))))

/-- A refused register write is recorded with the first cause of the order and changes nothing else. A register write that
meets conditions of R24 is refused with the first of debug access disabled, unmapped, unaligned, partial BAR0 write, not
privileged. With VALID clear the record takes address, cause, write and initiator, VALID sets and COUNT is 1; with VALID set
COUNT alone rises, up to 65535. Every other register is as before, but for WDG.EVENT and the event path (a refused WDG write
raises an event) and the host link's L0 bit. -/
def Obligations.RefusalRecord : Prop :=
  ∀ (s : State) (ini : Initiator) (addr : Nat) (data : Word) (full : Bool) (cause : Nat),
    s.Inv → s.power = .on → s.reaches ini →
    let a := if ini = .host then addr % 65536 / 4 * 4 else addr % 65536
    (if ini = .debug ∧ ¬ s.on R.SEC_DBG_CTRL.DBG_EN then some 0x4
      else if ¬ RegMap.mapped a then some 0x1
      else if a % 4 ≠ 0 then some 0x5
      else if ini = .host ∧ ¬ full then some 0x3
      else if ini ≠ .supervisor ∧ RegMap.privileged a ∧ (RegMap.find a).isSome then some 0x2
      else none) = some cause →
    ∃ t, exec (.registerWrite ini addr data full) s = .next t ∧
      t.on R.GLB_ACC_ERR_INFO.VALID ∧
      (¬ s.on R.GLB_ACC_ERR_INFO.VALID → t.get R.GLB_ACC_ERR_INFO.COUNT = 1 ∧ t.get R.GLB_ACC_ERR_INFO.CAUSE = cause ∧
        t.get R.GLB_ACC_ERR_ADDR.ADDR = a ∧ t.on R.GLB_ACC_ERR_INFO.WRITE ∧ t.get R.GLB_ACC_ERR_INFO.INITIATOR = iniCode ini) ∧
      (s.on R.GLB_ACC_ERR_INFO.VALID →
        t.get R.GLB_ACC_ERR_INFO.COUNT = min (s.get R.GLB_ACC_ERR_INFO.COUNT + 1) 65535 ∧
        t.get R.GLB_ACC_ERR_INFO.CAUSE = s.get R.GLB_ACC_ERR_INFO.CAUSE ∧
        t.get R.GLB_ACC_ERR_ADDR.ADDR = s.get R.GLB_ACC_ERR_ADDR.ADDR ∧
        t.get R.GLB_ACC_ERR_INFO.INITIATOR = s.get R.GLB_ACC_ERR_INFO.INITIATOR) ∧
      (∀ b, b ≠ A.GLB_ACC_ERR_INFO → b ≠ A.GLB_ACC_ERR_ADDR → b ≠ A.WDG_EVENT → b ≠ A.HIF_STATUS → b ≠ A.HIF_EVQ_STATUS →
        b ≠ A.HIF_MSIX_PBA 0 → b ≠ A.TWB_STATUS → b ≠ A.LOG_STATUS → t.word b = s.word b)

/-- The checks of RAIL_CONFIG in their order. With VOUT 0: a running power-up or power-down that includes the rail gives BUSY
(0x30); else a rail that is not OFF, FAULT or UNUSED gives WRONG_MODE (0x22); else DEPS that name the rail or close a cycle
give BAD_FIELD with DIAG_CODE 0x01. In each case the command completes and nothing else changes. -/
def Obligations.RailConfigChecks : Prop :=
  ∀ (s : State) (c : Cmd), s.power = .on → s.nextCmd = some c → c.opcode = 0x50 → leAt c.params 12 2 = 0 →
    let n : Fin 12 := Fin.ofNat 12 (c.byte 0)
    let busy : Prop := ∃ r ∈ s.seq.runs, bitAt r.rails n
    let idle : Prop := s.rail n = 0 ∨ s.rail n = 6 ∨ s.rail n = 8
    (busy → exec .railConfig s = .next ((s.markStarted c.handle).complete c.handle { status := 0x30 })) ∧
    (¬ busy → ¬ idle → exec .railConfig s = .next ((s.markStarted c.handle).complete c.handle { status := 0x22 })) ∧
    (¬ busy → idle → s.depsCycle n (leAt c.params 2 2) →
      exec .railConfig s = .next ((s.markStarted c.handle).complete c.handle { status := 0x11, diagOfs := 18, diagCode := 0x01 }))

/-- The host mailbox queues: who writes, who removes, overflow and empty reads. Only the host's writes of H2U_DATA and
U2H_ACK act: those of every other initiator leave the mailbox as it is. A whole host write queues its word and USED counts
it; with 16 words queued it is dropped and H2U_OVF sets. A host read of U2H_DATA answers the oldest word and removes it, a
read by another initiator answers it and removes nothing, and an empty queue answers 0. -/
def Obligations.HostMailboxWords : Prop :=
  ∀ (s : State) (ini : Initiator), s.Inv → s.power = .on → s.reaches ini →
    (∀ (data : Word) (full : Bool), ini ≠ .host → ∃ t, exec (.h2uPush ini data full) s = .next t ∧
      t.mbx = s.mbx ∧ t.word A.MBX_H2U_STATUS = s.word A.MBX_H2U_STATUS) ∧
    (∀ (data : Word) (full : Bool), ini ≠ .host → ∃ t, exec (.u2hAckWrite ini data full) s = .next t ∧
      t.mbx = s.mbx ∧ t.word A.MBX_U2H_ACK = s.word A.MBX_U2H_ACK ∧ t.word A.MBX_U2H_STATUS = s.word A.MBX_U2H_STATUS) ∧
    (∀ data : Word, ini = .host → s.mbx.h2u.length < 16 → ∃ t, exec (.h2uPush ini data true) s = .next t ∧
      t.mbx.h2u = s.mbx.h2u ++ [data] ∧ t.get R.MBX_H2U_STATUS.USED = s.mbx.h2u.length + 1) ∧
    (∀ data : Word, ini = .host → 16 ≤ s.mbx.h2u.length → ∃ t, exec (.h2uPush ini data true) s = .next t ∧
      t.mbx.h2u = s.mbx.h2u ∧ t.on R.MBX_H2U_STATUS.H2U_OVF) ∧
    (∀ (w : Word) (ws : List Word), ini = .host → s.mbx.u2h = w :: ws → ∃ t, exec (.u2hPop ini) s = .next t ∧
      t.mbx.u2h = ws ∧ t.out = .regRead ini A.MBX_U2H_DATA w :: s.out) ∧
    (∀ (w : Word) (ws : List Word), ini ≠ .host → (ini = .debug → s.on R.SEC_DBG_CTRL.DBG_EN) → s.mbx.u2h = w :: ws →
      ∃ t, exec (.u2hPop ini) s = .next t ∧ t.mbx.u2h = w :: ws ∧ t.out = .regRead ini A.MBX_U2H_DATA w :: s.out) ∧
    (s.mbx.u2h = [] → (ini = .debug → s.on R.SEC_DBG_CTRL.DBG_EN) → ∃ t, exec (.u2hPop ini) s = .next t ∧
      t.mbx.u2h = [] ∧ t.out = .regRead ini A.MBX_U2H_DATA 0 :: s.out)

/-- A capture of a fast timer and the read of its value. A capture writes the count to FT_CAPT and sets NEW, and OVR where
NEW stood; no other register changes. FT_CAPT_READ answers FT_CAPT and clears NEW; no other register changes but the host
link's L0 bit. -/
def Obligations.TimerCapture : Prop :=
  ∀ (s : State) (n : Fin 16) (ini : Initiator), s.Inv → s.power = .on → s.reaches ini →
    (ini = .debug → s.on R.SEC_DBG_CTRL.DBG_EN) →
    (let t := s.ftCapture n;
      t.get (R.TMR_FT_CAPT.CAPT n) = s.get (R.TMR_FT_CNT.CNT n) ∧ t.get (R.TMR_FT_STATUS.NEW n) = 1 ∧
      t.get (R.TMR_FT_STATUS.OVR n) = (if s.on (R.TMR_FT_STATUS.NEW n) then 1 else s.get (R.TMR_FT_STATUS.OVR n)) ∧
      ∀ a, a ≠ A.TMR_FT_CAPT n → a ≠ A.TMR_FT_STATUS n → t.word a = s.word a) ∧
    (∃ t, exec (.ftCaptRead ini n) s = .next t ∧ t.get (R.TMR_FT_STATUS.NEW n) = 0 ∧
      t.out = .regRead ini (A.TMR_FT_CAPT n) (s.word (A.TMR_FT_CAPT n)) :: s.out ∧
      ∀ a, a ≠ A.TMR_FT_STATUS n → a ≠ A.HIF_STATUS → t.word a = s.word a)

/-- Jack's questions and answers. The step of the LFSR maps non-zero 16-bit values to non-zero 16-bit values and never merges
two questions; the answer to a question determines the question, whatever the SEED; and the chapter's example holds: with
SEED 0x7E21, 0x4896 is answered 0xA942 and followed by 0x912C, which is answered 0x980D and followed by 0x2258. -/
def Obligations.JackQuestion : Prop :=
  (∀ q, 0 < q → q < 65536 → 0 < lfsrStep q ∧ lfsrStep q < 65536) ∧
  (∀ p q, p < 65536 → q < 65536 → lfsrStep p = lfsrStep q → p = q) ∧
  (∀ seed p q, seed < 65536 → p < 65536 → q < 65536 → jackAnswerTo p seed = jackAnswerTo q seed → p = q) ∧
  lfsrStep 0x4896 = 0x912C ∧ lfsrStep 0x912C = 0x2258 ∧
  jackAnswerTo 0x4896 0x7E21 = 0xA942 ∧ jackAnswerTo 0x912C 0x7E21 = 0x980D

/-- Dead-time adaptation stays within its limits and its step. The adapted dead time lies between DT_MIN and DT_MAX, moves by
at most 8 steps from one within them, and reaches a target (the delay plus 13 steps, 1.0 ns) that lies within them and within
8 steps. That 1.0 ns counts as 13 steps of 78.125 ps is log entry 31. -/
def Obligations.DeadTimeAdaptation : Prop :=
  ∀ cur meas lo hi : Nat, lo ≤ hi →
    let v := adaptDt cur meas lo hi
    (lo ≤ v ∧ v ≤ hi) ∧ (lo ≤ cur → cur ≤ hi → v ≤ cur + 8 ∧ cur ≤ v + 8) ∧
    (lo ≤ meas + 13 → meas + 13 ≤ hi → meas + 13 ≤ cur + 8 → cur ≤ meas + 13 + 8 → v = meas + 13)

/-- The switching region follows VSYS / VIN with its hysteresis. Below 0.85 every region becomes BUCK, above 1.15 BOOST, from
0.88 to 1.12 BUCK-BOOST; between 0.85 and 0.88 BUCK and BUCK-BOOST stay, between 1.12 and 1.15 BUCK-BOOST and BOOST stay; a
group that starts uses the midpoints 0.865 and 1.135. -/
def Obligations.RegionHysteresis : Prop :=
  ∀ vin vsys : Nat,
    (100 * vsys < 85 * vin → ∀ r, r < 3 → nextRegion r vin vsys = 0) ∧
    (115 * vin < 100 * vsys → ∀ r, r < 3 → nextRegion r vin vsys = 2) ∧
    (88 * vin ≤ 100 * vsys → 100 * vsys ≤ 112 * vin → ∀ r, r < 3 → nextRegion r vin vsys = 1) ∧
    (85 * vin ≤ 100 * vsys → 100 * vsys < 88 * vin → nextRegion 0 vin vsys = 0 ∧ nextRegion 1 vin vsys = 1) ∧
    (112 * vin < 100 * vsys → 100 * vsys ≤ 115 * vin → nextRegion 1 vin vsys = 1 ∧ nextRegion 2 vin vsys = 2) ∧
    (1000 * vsys < 865 * vin → nextRegion 3 vin vsys = 0) ∧
    (865 * vin ≤ 1000 * vsys → 1000 * vsys ≤ 1135 * vin → nextRegion 3 vin vsys = 1) ∧
    (1135 * vin < 1000 * vsys → nextRegion 3 vin vsys = 2)

/-- TS never decreases, its fraction reads 0 without the FLL, and its split read is coherent. A timestamp's fraction is 0
until the FLL locks and its ticks are those of TS; a step on an empty queue never lowers a timestamp and raises TS; a read of
TS_LO answers the low word, and a later read of TS_HI by the same initiator answers the high word of the same sample. -/
def Obligations.TimeStamps : Prop :=
  ∀ (s : State) (ini : Initiator), s.Inv → s.power = .on → s.reaches ini → (ini = .debug → s.on R.SEC_DBG_CTRL.DBG_EN) →
    (¬ s.on R.GLB_CLK_STATUS.FLL_LOCK → s.tsNow % 1024 = 0) ∧ s.tsNow / 1024 = s.ts / 1024 ∧
    (s.pending = [] → ∃ t, step s = .next t ∧ s.tsNow ≤ t.tsNow ∧ s.ts < t.ts) ∧
    (∃ t, exec (.tsLoRead ini) s = .next t ∧ t.out = .regRead ini A.TMR_TS_LO (BitVec.ofNat 32 s.tsNow) :: s.out ∧
      t.ts = s.ts ∧
      ∀ u : State, u.power = .on → u.tmr = t.tmr → u.word A.SEC_DBG_CTRL = s.word A.SEC_DBG_CTRL →
        (u.read ini A.TMR_TS_HI).1 = BitVec.ofNat 32 (s.tsNow / 2 ^ 32))

/-- MODE_EVALUATE sets the mode in the order of precedence. SAFE stays; else without a sink port the mode is BATTERY, with
one and negative battery current HYBRID, with one otherwise ADAPTER, except that HYBRID stays until its dwell, which then
runs. Only MODE_STATUS, the measured battery current and the event path change. -/
def Obligations.ModePrecedence : Prop :=
  ∀ (s : State) (ibat : Int), s.Inv → s.power = .on → s.powered → s.on R.CNV_STATUS.STAGE_EN →
    ∃ t, exec (.modeEvaluate ibat) s = .next t ∧
      (s.mode = 5 → t.mode = 5) ∧
      (s.mode ≠ 5 → ¬ s.anySink → t.mode = 2) ∧
      (s.mode ≠ 5 → s.anySink → ibat < 0 → t.mode = 4 ∧ ¬ t.md.dwell) ∧
      (s.mode ≠ 5 → s.anySink → 0 ≤ ibat → s.mode ≠ 4 → t.mode = 3) ∧
      (s.mode ≠ 5 → s.anySink → 0 ≤ ibat → s.mode = 4 → t.mode = 4 ∧ t.md.dwell) ∧
      (∀ a, a ≠ A.MOD_MODE_STATUS → a ≠ A.MOD_BAT_MEAS → a ≠ A.HIF_STATUS → a ≠ A.HIF_EVQ_STATUS → a ≠ A.HIF_MSIX_PBA 0 →
        a ≠ A.TWB_STATUS → a ≠ A.LOG_STATUS → t.word a = s.word a)

/-- Raising an event counts it and keeps it as the newest of its type. SEQ is one more than before, modulo 2^32, and the
record of the type is replaced by the new one, with its time and payload; where the fault log is full the FAULT event for the
dropped entry is counted too and the record is kept beside it. The outstanding commands, TS and the mode part of the state
stay. -/
def Obligations.EventRecord : Prop :=
  ∀ (s : State) (typ : Nat) (payload : List Byte),
    let e : Event := { typ := typ, seq := (s.evSeq + 1) % 2 ^ 32, ts := s.tsNow, payload := payload }
    let kept : Prop := ¬ s.bit R.LOG_CFG.TYPES (typ - 1) ∨ ¬ s.fwRuns ∨ s.fw.logQ.length < 32
    (kept → (s.raise typ payload).evSeq = (s.evSeq + 1) % 2 ^ 32 ∧
      (s.raise typ payload).twb.last = e :: s.twb.last.filter (fun x => x.typ ≠ typ)) ∧
    (¬ kept → (s.raise typ payload).evSeq = (s.evSeq + 2) % 2 ^ 32 ∧ (typ ≠ 7 → e ∈ (s.raise typ payload).twb.last)) ∧
    (s.raise typ payload).cmds = s.cmds ∧ (s.raise typ payload).ts = s.ts ∧ (s.raise typ payload).md = s.md

/-- A reset restores exactly the bits of its domain. After a reset of a domain every register reads its reset value in the
bits of that domain and its old value in its other implemented bits. -/
def Obligations.ResetDomains : Prop :=
  ∀ s : State, s.Inv → ∀ (m : Dom) (a : Nat),
    regRead (regReset m s.regs) a = ((s.word a &&& ~~~ RegMap.domMask a m) ||| (RegMap.resetWord a &&& RegMap.domMask a m))
      &&& RegMap.implMask a

/-- Lock registers: taken by a read, freed by their owner alone. A read of a free lock answers 0 and leaves it held by the
reader; a read of a held lock answers its word and changes nothing. A write by the owner of its own identifier frees it; any
other write leaves it, sets its bit of LOCK_ERR and names the writer. No other register changes but the host link's L0 bit. -/
def Obligations.Locks : Prop :=
  ∀ (s : State) (ini : Initiator) (n : Fin 16), s.Inv → s.power = .on → s.reaches ini →
    (ini = .debug → s.on R.SEC_DBG_CTRL.DBG_EN) →
    (¬ s.on (R.MBX_LOCK.HELD n) → ∃ t, exec (.lockRead ini n) s = .next t ∧
      t.out = .regRead ini (A.MBX_LOCK n) 0 :: s.out ∧
      t.word (A.MBX_LOCK n) = BitVec.ofNat 32 (0x80000000 + iniCode ini) ∧
      ∀ a, a ≠ A.MBX_LOCK n → a ≠ A.HIF_STATUS → t.word a = s.word a) ∧
    (s.on (R.MBX_LOCK.HELD n) → ∃ t, exec (.lockRead ini n) s = .next t ∧
      t.out = .regRead ini (A.MBX_LOCK n) (s.word (A.MBX_LOCK n)) :: s.out ∧
      ∀ a, a ≠ A.HIF_STATUS → t.word a = s.word a) ∧
    (∀ data : Word, ∃ t, exec (.lockWrite ini n data true) s = .next t ∧
      (if s.on (R.MBX_LOCK.HELD n) ∧ s.get (R.MBX_LOCK.OWNER n) = iniCode ini ∧ data = BitVec.ofNat 32 (iniCode ini) then
        t.word (A.MBX_LOCK n) = 0 ∧ t.word A.MBX_LOCK_ERR = s.word A.MBX_LOCK_ERR
      else t.word (A.MBX_LOCK n) = s.word (A.MBX_LOCK n) ∧ t.bit R.MBX_LOCK_ERR.LOCK_ERR n ∧
        t.get R.MBX_LOCK_ERR.ERR_INIT = iniCode ini) ∧
      ∀ a, a ≠ A.MBX_LOCK n → a ≠ A.MBX_LOCK_ERR → a ≠ A.HIF_STATUS → t.word a = s.word a)

/-- Refused two-wire transactions. While the unit cannot serve, a read and a write are not acknowledged and count in
NACK_BUSY. A REG_WRITE with a flaw is discarded: LAST_RESULT shows its code and BAD_LENGTH, INTEGRITY or ABORTED by the first
flaw, and only TWB registers change. A process call with a wrong count sets LEN_ERR and answers nothing. -/
def Obligations.TwoWireRefusals : Prop :=
  ∀ s : State, s.Inv → s.power = .on → s.on R.TWB_ADDR.AV → s.sysRuns →
    (s.busyNack → exec .twbStatus s = .next (s.bump R.TWB_STATS.NACK_BUSY)) ∧
    (∀ w : TwiWrite, s.busyNack → ¬ w.lost → exec (.regWrite w) s = .next (s.bump R.TWB_STATS.NACK_BUSY)) ∧
    (∀ (w : TwiWrite) (st : Nat), ¬ s.busyNack →
      (if w.count ≠ 6 then some 0x12
        else if w.data.length < 6 then some 0x12
        else if w.pec = .bad then some 0x50
        else if 6 < w.data.length then some 0x12
        else if w.pec = .absent ∧ s.on R.TWB_CFG.PEC_REQ then some 0x50
        else if w.lost then some 0x31
        else none) = some st →
      ∃ t, exec (.regWrite w) s = .next t ∧ t.get R.TWB_LAST.CODE = 0x09 ∧ t.get R.TWB_LAST.RESULT = st ∧
        ∀ a, a ≠ A.TWB_LAST → a ≠ A.TWB_EVENT → a ≠ A.TWB_STATS → t.word a = s.word a) ∧
    (∀ count addr : Nat, ¬ s.busyNack → count ≠ 2 → exec (.regRead count addr) s = .next (s.set R.TWB_EVENT.LEN_ERR 1))

/-- A command row runs its own operation on the command that starts next and on no other. For 37 command rows: where no
command starts next, or one of another opcode, nothing changes; else the row's operation runs on the command marked as
started, and the command completes with the operation's reply or stays outstanding. -/
def Obligations.CommandRowsRunTheirOperation : Prop :=
  ∀ s : State, s.power = .on →
    ∀ x ∈ ([(.nop, isOp 0x00, opNop), (.setParam, isOp 0x01, opSetParam), (.getParam, isOp 0x02, opGetParam),
        (.getStatusBlock, isOp 0x03, opStatusBlock), (.setEventMask, isOp 0x04, opEventMask),
        (.budgetIntent, isOp 0x10, opBudgetIntent), (.budgetCancelIntent, isOp 0x11, opBudgetCancelIntent),
        (.budgetSetPolicy, isOp 0x12, opBudgetSetPolicy), (.budgetQuery, isOp 0x13, opBudgetQuery),
        (.chargeProfileLoad, isOp 0x20, opChargeProfileLoad), (.chargeStart, isOp 0x21, opChargeStart),
        (.chargeStop, isOp 0x22, opChargeStop), (.chargeRestartAfterFault, isOp 0x23, opChargeRestart),
        (.estimatorRead, isOp 0x24, opEstimatorRead), (.estimatorReset, isOp 0x25, opEstimatorReset),
        (.pdSetPortPolicy, isOp 0x30, opPdSetPortPolicy), (.pdSetSourceCaps, isOp 0x31, opPdSetSourceCaps),
        (.pdSetSinkCaps, isOp 0x32, opPdSetSinkCaps), (.pdRequest, isOp 0x33, opPdRequest),
        (.pdSwapPr, isSwap 0, opPdSwapPr), (.pdSwapVconn, isSwap 1, opPdSwapVconn), (.pdSwapDr, isSwap 2, opPdSwapDr),
        (.pdHardReset, isOp 0x36, opPdHardReset), (.pdPortDisable, isOp 0x37, opPdPortDisable),
        (.captureConfig, isOp 0x40, opCaptureConfig), (.railConfig, isOp 0x50, opRailConfig), (.railOn, isOp 0x51, opRailOn),
        (.railOffCmd, isOp 0x52, opRailOff), (.seqPlatformOn, isOp 0x53, opPlatformOn),
        (.seqPlatformOff, isOp 0x54, opPlatformOff), (.modeRequestKeepAlive, isTarget 1, opKeepAlive),
        (.phaseMapSet, isOp 0x61, opPhaseMapSet), (.inputSelect, isOp 0x62, opInputSelect), (.logRead, isOp 0x80, opLogRead),
        (.logClear, isOp 0x81, opLogClear), (.sensorReinstate, isOp 0x82, opReinstate),
        (.cascadeStatus, isOp 0x90, opCascadeStatus)] : List (Instr × (Cmd → Bool) × (Cmd → State → CmdRes × State))),
      (s.nextCmd = none → exec x.1 s = .next s) ∧
      (∀ c, s.nextCmd = some c → x.2.1 c = false → exec x.1 s = .next s) ∧
      (∀ c r t, s.nextCmd = some c → x.2.1 c = true → x.2.2 c (s.markStarted c.handle) = (.done r, t) →
        exec x.1 s = .next (t.complete c.handle r)) ∧
      (∀ c t, s.nextCmd = some c → x.2.1 c = true → x.2.2 c (s.markStarted c.handle) = (.wait, t) →
        exec x.1 s = .next (t.settle t.cmds.length))

/-- Power stage: periods, valleys, shed, phase faults, retirement, self-check, VDRV. Where the conditions that the chapter
sets for it hold (on the state and the operands alone), each of these commands completes with exactly the next state written
here: BOOTSTRAP_PRECHARGE_DONE, BOOTSTRAP_REFRESH, DRV_LVL_APPLY, DELAY_LINE_CALIBRATE, PHASE_VALLEY, GROUP_REF_VALLEY,
DIR_RAMP_HANDOVER, PHASE_SHED, PHASE_MAP_SET_DONE, PHASE_CYCLE_LIMIT, PHASE_OVERCURRENT, PHASE_HARD_OVERCURRENT,
PHASE_DRIVER_UV, PHASE_SW_NODE_FAULT, PHASE_SENSE_MISMATCH, PHASE_SLOPE_FAULT, PHASE_CM_FAULT, PHASE_SELF_CHECK_DONE,
VDRV_UV, VDRV_RECOVER. -/
def Obligations.PowerStageRows : Prop :=
  ∀ s : State, s.power = .on →
    (∀ (ph : Fin 6), (s.stage.phases.get ph).precharge → s.mayswitch → exec (.bootstrapPrechargeDone ph) s = .next (
        s.startSwitching ph)) ∧
    (∀ (ph : Fin 6), s.heldOn ph → exec (.bootstrapRefresh ph) s = .next (s.modPhase ph fun x => { x with refresh := 0 })) ∧
    (∀ (ph : Fin 6), ¬ (s.switching ph) → (s.stage.phases.get ph).drvHeld.isSome → exec (.drvLvlApply ph) s = .next (
        s.modPhase ph fun x => { x with drvApplied := x.drvHeld.getD x.drvApplied, drvHeld := none })) ∧
    (exec .delayLineCalibrate s = .next ({ s with stage := { s.stage with delayCal := s.ts } })) ∧
    (∀ (ph : Fin 6) (v : ValleySample), s.switching ph → exec (.phaseValley ph v) s = .next (s.phaseValley ph v)) ∧
    (∀ (g : Fin 2) (v : GroupSample), s.nSwitch g ≠ 0 → exec (.groupRefValley g v) s = .next (s.refValley g v)) ∧
    (∀ (g : Fin 2), (s.stage.groups.get g).dirTarget.isSome → s.geti (R.CNV_GRP_STATUS.IREF g) = 0 →
     exec (.dirRampHandover g) s = .next (
        let d := (s.stage.groups.get g).dirTarget.getD 0
        let s := (s.set (R.CNV_GRP_CFG.DIR g) d).modGroup g fun x => { x with dirTarget := none, starting := true }
        s.eachPort allPorts fun s p =>
          if (s.path.ports.get p).srcBus = some g && (s.path.ports.get p).src = .dirRamp && d = 1 then
            s.modPath p fun x => { x with src := .raising }
          else s)) ∧
    (∀ (g : Fin 2) ph, s.maySheds g → s.topPhase g = some ph → exec (.phaseShed g) s = .next (
        ((s.gateOff ph).setBit R.CNV_STATUS.SHED ph true).reinterleave g)) ∧
    (s.stage.mapChange.isSome →
     (allPhases.all fun ph => !(s.stage.phases.get ph).moving && !(s.stage.phases.get ph).checking) →
     exec .phaseMapSetDone s = .next (s.finishMap.autoSelect)) ∧
    (∀ (ph : Fin 6), s.switching ph → ¬ ((s.stage.phases.get ph).clHit) → exec (.phaseCycleLimit ph) s = .next (
        let s := (s.set (R.PH_STATUS.CL_ACTIVE ph) 1).setBit (R.PH_FAULT.FLAGS ph) 0 true
        (s.bump (R.PH_FAULT.CL_HITS ph)).modPhase ph fun x => { x with clHit := true, ocRun := x.ocRun + 1 })) ∧
    (∀ (ph : Fin 6), s.switching ph → (s.stage.phases.get ph).ocRun ≥ s.get (R.PH_HW.OC_CNT ph) →
     exec (.phaseOvercurrent ph) s = .next (s.retire ph 1)) ∧
    (∀ (ph : Fin 6), s.switching ph → exec (.phaseHardOvercurrent ph) s = .next (s.retire ph 1)) ∧
    (∀ (ph : Fin 6), s.inService ph → exec (.phaseDriverUv ph) s = .next (
        (s.setBit (R.PH_FAULT.FLAGS ph) 1 true).retire ph 2)) ∧
    (∀ (ph : Fin 6), s.switching ph → exec (.phaseSwNodeFault ph) s = .next (
        (s.setBit (R.PH_FAULT.FLAGS ph) 2 true).retire ph 3)) ∧
    (∀ (ph : Fin 6), s.switching ph → s.on (R.PH_STATUS.FF_HOLD ph) → exec (.phaseSenseMismatch ph) s = .next (
        (s.setBit (R.PH_FAULT.FLAGS ph) 3 true).retire ph 4)) ∧
    (∀ (ph : Fin 6), s.switching ph → exec (.phaseSlopeFault ph) s = .next (
        (s.setBit (R.PH_FAULT.FLAGS ph) 3 true).retire ph 4)) ∧
    (∀ (ph : Fin 6), s.inService ph → exec (.phaseCmFault ph) s = .next ((s.setBit (R.PH_FAULT.FLAGS ph) 3 true).retire
        ph 4)) ∧
    (∀ (ph : Fin 6) (fail : Option (Fin 16)), (s.stage.phases.get ph).checking →
     exec (.phaseSelfCheckDone ph fail) s = .next (
        match fail with
        | some cause => s.retire ph cause
        | none =>
          let s := s.setBit R.CNV_STATUS.RETIRED ph false
          let s := s.modPhase ph fun x => { x with checking := false, trim := 0, ramp := 32 }
          (s.reinterleave (s.groupOf ph)).writePmax (s.groupOf ph))) ∧
    (s.on R.CNV_STATUS.STAGE_EN → ¬ (s.on R.CNV_STATUS.VDRV_UV) → exec .vdrvUv s = .next (
        let s := (s.set R.CNV_STATUS.VDRV_UV 1).set R.CNV_STATUS.VDRV_OK 0
        let s := s.eachPort allPorts fun s p => s.stopSource p 800
        let s := (s.vdrvBus 0).vdrvBus 1
        s.raiseFault 0x02 0x1 0xFF 0)) ∧
    (s.on R.CNV_STATUS.VDRV_UV → exec .vdrvRecover s = .next (
        let s := (s.set R.CNV_STATUS.VDRV_UV 0).set R.CNV_STATUS.VDRV_OK 1
        let s := (s.vdrvBack 0).vdrvBack 1
        (s.raiseFault 0x02 0x2 0xFF 0).autoSelect))

/-- Power path: bus moves, the BATFET, input drops, over-voltage, sourcing. Where the conditions that the chapter sets for it
hold (on the state and the operands alone), each of these commands completes with exactly the next state written here:
PAIR_TURN_ON_DONE, BUS_MOVE_RAMP_DONE, BUS_MOVE_BUS_SETTLED, V_EXP_SETTLE, BATFET_TO_SWITCH, BATFET_TO_LINEAR,
BATFET_FAST_ON, BATFET_REVERSE_OFF, BATFET_LINEAR_RESUME, SINK_DROP, SINK_OVP, SINK_OVP_RECLOSE, SINK_REVERSE,
SINK_REV_RECONNECT, SOURCE_BUS_READY, SOURCE_OVERLOAD, SOURCE_SHORT, SOURCE_REVERSE. -/
def Obligations.PathMoves : Prop :=
  ∀ s : State, s.power = .on →
    (∀ (b : Fin 2) p fast, (s.path.buses.get b).move = .closing p fast → exec (.pairTurnOnDone b) s = .next (
        if s.busSources b then s.sourceClosed b p else s.sinkClosed b p)) ∧
    (∀ (b : Fin 2) t (vin : Nat) (vbus : Nat), (s.path.buses.get b).move = .ramp t → s.freeToClose b t →
     exec (.busMoveRampDone b vin vbus) s = .next (s.rampDone b t vin vbus)) ∧
    (∀ (b : Fin 2) p, (s.path.buses.get b).move = .settle p → exec (.busMoveBusSettled b) s = .next (
        (s.groupStop b).modBus b fun x => { x with move := .closing p true })) ∧
    (∀ (p : Fin 4), (s.path.ports.get p).trans.isSome → ¬ (s.isSrc p) → s.peState p ≠ 3 → exec (.vExpSettle p) s = .next (
        s.modPath p fun x => { x with trans := none })) ∧
    (∀ (vbat : Nat), s.bat = batLinear → vbat ≥ s.get R.MOD_VSYS_CFG.VSYS_MIN → exec (.batfetToSwitch vbat) s = .next (
        { (s.setSat R.MOD_BAT_MEAS.VBAT vbat).set R.MOD_BATFET_STATUS.STATE batSwitch with
            path := { s.path with fastOn := false } })) ∧
    (∀ (vbat : Nat), s.bat = batSwitch → s.anySink → vbat + 200 < s.get R.MOD_VSYS_CFG.VSYS_MIN →
     exec (.batfetToLinear vbat) s = .next ((s.setSat R.MOD_BAT_MEAS.VBAT vbat).set R.MOD_BATFET_STATUS.STATE batLinear)) ∧
    ((s.bat = batLinear || s.bat = batIdeal) → exec .batfetFastOn s = .next (
        let s := { s.set R.MOD_BATFET_STATUS.FASTON 1 with path := { s.path with fastOn := true } }
        if s.chg.probe.isSome then s.probePassed else s)) ∧
    (s.bat = batIdeal → s.path.fastOn → exec .batfetReverseOff s = .next
        ({ s with path := { s.path with fastOn := false } })) ∧
    (s.bat = batLinear → s.path.fastOn → exec .batfetLinearResume s = .next (
        { s with path := { s.path with fastOn := false } })) ∧
    (∀ (b : Fin 2) (vin : Nat),
     ((s.sinkConn b && vin < s.dropTh b (s.busPort b)) || (!s.sinkConn b && s.parDrop b vin)) = true →
     exec (.sinkDrop b vin) s = .next (
        if !s.sinkConn b then ((s.setSat (R.MOD_IN_MEAS.VIN b) vin).set (R.MOD_IN_STATE.DROP b) 1).parStop
        else
        let p := s.busPort b
        let s := (s.setSat (R.MOD_IN_MEAS.VIN b) vin).set (R.MOD_IN_STATE.DROP b) 1
        let s := s.setBit R.MOD_MATRIX_STATUS.SNK p false
        let s := s.pathFault 0x1 p b
        (s.loseSink b).abortSelect.autoSelect)) ∧
    (∀ (b : Fin 2) (vin : Nat),
     ((s.sinkConn b && vin > s.ovpTh (s.busPort b)) || (!s.sinkConn b && s.parOvp b vin)) = true →
     exec (.sinkOvp b vin) s = .next (
        if !s.sinkConn b then ((s.setSat (R.MOD_IN_MEAS.VIN b) vin).set (R.MOD_IN_STATE.OVP b) 1).parStop
        else
        let p := s.busPort b
        let trips := s.ovpRecent p
        let s := (s.setSat (R.MOD_IN_MEAS.VIN b) vin).set (R.MOD_IN_STATE.OVP b) 1
        let s := s.modPath p fun x => { x with ovpTrips := trips }
        let s := s.pathFault 0x2 p b
        if trips.length ≥ 3 then
          let s := (s.setBit R.MOD_PP_EVENT.OVP_LOCK p true).pathFault 0x7 p b
          (s.loseSink b).abortSelect.autoSelect
        else (s.openHeld b p .ovp).abortSelect)) ∧
    (∀ (b : Fin 2) p, (s.path.buses.get b).held = some (p, .ovp) → exec (.sinkOvpReclose b) s = .next (s.reclose b)) ∧
    (∀ (b : Fin 2) (iin : Int), s.sinkConn b → iin < -1000 → exec (.sinkReverse b iin) s = .next (
        let p := s.busPort b
        let s := (s.seti (R.MOD_IN_MEAS.IIN b) (iin / 2)).set (R.MOD_IN_STATE.REV b) 1
        let s := s.pathFault 0x3 p b
        (s.openHeld b p .rev).abortSelect)) ∧
    (∀ (b : Fin 2) p, (s.path.buses.get b).held = some (p, .rev) → exec (.sinkRevReconnect b) s = .next (s.reclose b)) ∧
    (∀ (p : Fin 4) b, (s.path.ports.get p).src = .raising → (s.path.ports.get p).srcBus = some b →
     exec (.sourceBusReady p) s = .next (
        (s.modPath p fun x => { x with src := .closing }).modBus b fun x => { x with move := .closing p true })) ∧
    (∀ (p : Fin 4), s.sourcing p → s.get (R.PD_PE_STATUS.CONTRACT p) ≠ 2 → exec (.sourceOverload p) s = .next (
        (s.setBit R.MOD_PP_EVENT.SRC_OVL p true).sourceFault p 0x4)) ∧
    (∀ (p : Fin 4), s.sourcing p → exec (.sourceShort p) s = .next (
        (s.setBit R.MOD_PP_EVENT.SRC_SHORT p true).sourceFault p 0x5)) ∧
    (∀ (p : Fin 4), s.sourcing p → exec (.sourceReverse p) s = .next (
        (s.setBit R.MOD_PP_EVENT.SRC_REV p true).sourceFault p 0x6))

/-- Charger: taps, pack presence, the evaluation. Where the conditions that the chapter sets for it hold (on the state and
the operands alone), each of these commands completes with exactly the next state written here: TAP_DETECT, TAP_FAULT,
PACK_NTC_OPEN, PACK_PROBE_IDLE_START, PACK_PROBE_DONE, PACK_ABSENT_POLL, PACK_INSERT, PACK_INSERT_CONNECT, CHARGER_EVAL,
PRBS_STEP, ESTIMATOR_UPDATE. -/
def Obligations.PackPresence : Prop :=
  ∀ s : State, s.power = .on →
    (s.packPresent → exec .tapDetect s = .next (s.set R.CHG_STATUS.TAPS 1)) ∧
    (s.tapsUsed → s.get R.CHG_STATUS.PHASE ≠ 9 → exec .tapFault s = .next (s.chgFault 4)) ∧
    (s.packPresent → s.on R.CHG_TEMP_CFG.PRES_NTC → exec .packNtcOpen s = .next (s.packAbsent)) ∧
    (∀ (vbat : Nat), s.packPresent → s.chg.probe.isNone → 3 ≤ s.get R.CHG_STATUS.PHASE → s.get R.CHG_STATUS.PHASE ≤ 5 →
     exec (.packProbeIdleStart vbat) s = .next ((s.setSat R.MOD_BAT_MEAS.VBAT vbat).startProbe vbat false)) ∧
    (∀ (vbat : Nat), s.chg.probe.isSome → exec (.packProbeDone vbat) s = .next (
        if s.chg.probe.getD 0 < vbat + 200 then s.probePassed else s.packAbsent)) ∧
    (∀ (vbat : Nat), ¬ s.packPresent → s.bat = batOff → exec (.packAbsentPoll vbat) s = .next (
        s.setSat R.MOD_BAT_MEAS.VBAT vbat)) ∧
    (∀ (vbat : Nat) (ntcOpen : Bool), ¬ s.packPresent → s.bat = batOff → vbat ≥ 1000 → ¬ ntcOpen →
     s.get R.CHG_STATUS.PHASE ≠ 0 → exec (.packInsert vbat ntcOpen) s = .next (
        let s := ((s.setSat R.MOD_BAT_MEAS.VBAT vbat).set R.CHG_PACK_STATUS.PRESENT 1).fillCredit
        { s with chg := { s.chg with inserting := true } }.chgEvent 2 0x05)) ∧
    (∀ (vsys : Nat) (vbat : Nat), s.chg.inserting → within vsys vbat 100 → exec (.packInsertConnect vsys vbat) s = .next (
        let s := (s.setSat R.MOD_BAT_MEAS.VBAT vbat).setSat R.MOD_VSYS_STATUS.VSYS vsys
        let s := { s with chg := { s.chg with inserting := false } }
        s.restoreBat.startCycle)) ∧
    (∀ (v : ChargeSample), exec (.chargerEval v) s = .next ((((s.evalMeas
        v).evalProfile).evalZone).evalCurrent.evalTimers)) ∧
    (s.perturbs → exec .prbsStep s = .next (
        { s with chg := { s.chg with plus := bitAt s.chg.prbs 10, prbs := prbsNext s.chg.prbs } })) ∧
    (∀ (f : FitSample), s.pmEn → s.fwRuns → s.chg.est.state ≠ 0 → exec (.estimatorUpdate f) s = .next (
        let n := if s.tapsUsed then s.cells else 1
        let old := s.chg.est
        let go (e : Estimator × Option Int) (k : Fin 5) : Estimator × Option Int :=
          if k.val ≥ n then e
          else
            let c := fitCell f k
            let r := s.cellPlate (old.cells.get k) (f.vcell.getD k 0) f.cur c
            ({ e.1 with cells := e.1.cells.set k { c with margin := r.1 },
                        margin := if k = 0 then r.1 else min e.1.margin r.1 },
              match e.2, r.2 with
              | none, x => x
              | some a, none => some a
              | some a, some b => some (min a b))
        let r := [(0 : Fin 5), 1, 2, 3, 4].foldl go (old, none)
        let e := { r.1 with
          iPlate := nextPlate old.iPlate r.2,
          var := f.var,
          dataS := if f.perturb then min 4095 (old.dataS + 1) else old.dataS,
          highS := if f.var > 150 then old.highS + 1 else 0,
          agreeS := if f.perturb && f.agree then 10 else 0 }
        let e := if old.state = estHold && !f.perturb then { e with iPlate := old.iPlate } else e
        { s with chg := { s.chg with est := { e with state := old.state } } }.setEst (e.nextState f.perturb)))

/-- Charger: phases, termination, timers and faults. Where the conditions that the chapter sets for it hold (on the state and
the operands alone), each of these commands completes with exactly the next state written here: CHG_TRICKLE_TO_PRECHARGE,
CHG_PRECHARGE_TO_CC, CHG_CC_TO_PRECHARGE, CHG_STEP_ADVANCE, CHG_CC_TO_CV, CHG_TERMINATE, CHG_RECHARGE, CHG_NO_INPUT_END,
CELL_OV_TRIP, CELL_OV_CLEAR, FAST_TIMER_EXPIRY, PRE_TIMER_EXPIRY, CHG_OVERCURRENT, PACK_OV_SUSPEND, PACK_OV_CLEAR. -/
def Obligations.ChargePhases : Prop :=
  ∀ s : State, s.power = .on →
    (s.get R.CHG_STATUS.PHASE = 3 → s.chg.vLo ≥ 2200 → exec .chgTrickleToPrecharge s = .next (s.setChgPhase 4)) ∧
    (s.get R.CHG_STATUS.PHASE = 4 → s.chg.vLo ≥ s.prof16 0x12 → exec .chgPrechargeToCc s = .next (
        (s.set R.CHG_STATUS.STEP (max (s.get R.CHG_STATUS.STEP) s.pickStep)).setChgPhase 5)) ∧
    (s.get R.CHG_STATUS.PHASE = 5 → s.chg.vLo + 100 < s.prof16 0x12 → exec .chgCcToPrecharge s = .next (s.setChgPhase 4)) ∧
    (s.get R.CHG_STATUS.PHASE = 5 → s.chg.vHi ≥ s.stepV (s.get R.CHG_STATUS.STEP) →
     s.get R.CHG_STATUS.STEP + 1 < s.nSteps → exec .chgStepAdvance s = .next (
        s.set R.CHG_STATUS.STEP (s.get R.CHG_STATUS.STEP + 1))) ∧
    (s.get R.CHG_STATUS.PHASE = 5 → s.vchgBinds → exec .chgCcToCv s = .next (s.setChgPhase 6)) ∧
    (s.get R.CHG_STATUS.PHASE = 6 → s.chg.cvMs ≥ s.prof16 0x1A * 60000 → s.geti R.MOD_BAT_MEAS.IBAT * 2 < s.prof16 0x16 →
     s.vchgBinds → exec .chgTerminate s = .next (s.endCycle.zeroCharge.chgEvent 7 0x06)) ∧
    (s.get R.CHG_STATUS.PHASE = 7 → s.chg.vHi + s.prof16 0x18 < s.zoneVolt → exec .chgRecharge s = .next (s.startCycle)) ∧
    (¬ s.anySink → s.on R.CHG_STATUS.CYCLE → exec .chgNoInputEnd s = .next (s.endCycle.set R.CHG_STATUS.STEP 0)) ∧
    (∀ (cells : Fin 32), cells.val ≠ 0 → exec (.cellOvTrip cells) s = .next (
        let mask := if s.tapsUsed then cells.val else 1
        let first := s.get R.CHG_COV_STATUS.ACTIVE = 0
        let s := s.set R.CHG_COV_STATUS.ACTIVE (s.get R.CHG_COV_STATUS.ACTIVE ||| mask)
        let s := s.set R.CHG_COV_STATUS.SEEN (s.get R.CHG_COV_STATUS.SEEN ||| mask)
        let s := s.setBit R.CHG_STATUS.SUSP 2 true
        let s := if first then { s with chg := { s.chg with trips := (s.ts :: s.recentTrips).take 3 } } else s
        let s := s.set R.CHG_FAULT.COV_TRIPS s.recentTrips.length
        let s := if s.anySink && s.bat != batOff then s.restoreBat else s
        let s := s.zeroCharge
        let s := if s.charging then s.chgEvent 8 0x02 else s.raiseCharge 0x02 (s.get R.CHG_STATUS.PHASE)
        if first then s.covLatch else s)) ∧
    (s.get R.CHG_COV_STATUS.ACTIVE ≠ 0 → exec .cellOvClear s = .next (
        let s := (s.set R.CHG_COV_STATUS.ACTIVE 0).setBit R.CHG_STATUS.SUSP 2 false
        let s := if s.bat = batIdeal && s.chg.probe.isNone then s.restoreBat else s
        let s := s.raiseCharge 0x03 (s.get R.CHG_STATUS.PHASE)
        if s.get R.CHG_STATUS.PHASE = 8 && !s.suspended && s.on R.CHG_STATUS.CYCLE && s.anySink then s.pickPhase else s)) ∧
    (s.chg.fastMs ≥ s.prof16 0x1E * 60000 → s.on R.CHG_STATUS.CYCLE → exec .fastTimerExpiry s = .next (s.chgFault 1)) ∧
    (s.chg.preMs ≥ s.prof16 0x1C * 60000 → s.on R.CHG_STATUS.CYCLE → exec .preTimerExpiry s = .next (s.chgFault 2)) ∧
    (s.charging → s.geti R.MOD_BAT_MEAS.IBAT * 2 * 10 > s.geti R.CHG_CURRENT.I_SET * 2 * 12 + 5000 →
     exec .chgOvercurrent s = .next (s.chgFault 5)) ∧
    (∀ (vbat : Nat), s.charging → vbat > s.cells * s.zoneVolt + 100 → exec (.packOvSuspend vbat) s = .next (
        let s := (s.setSat R.MOD_BAT_MEAS.VBAT vbat).setBit R.CHG_STATUS.SUSP 1 true
        (s.setChgPhase 8).zeroCharge)) ∧
    (∀ (vbat : Nat), s.bit R.CHG_STATUS.SUSP 1 → vbat < s.cells * s.zoneVolt → exec (.packOvClear vbat) s = .next (
        let s := (s.setSat R.MOD_BAT_MEAS.VBAT vbat).setBit R.CHG_STATUS.SUSP 1 false
        if s.get R.CHG_STATUS.PHASE = 8 && !s.suspended && s.on R.CHG_STATUS.CYCLE && s.anySink then s.pickPhase else s))

/-- Thermal: samples, sampling rate, shutdown vote; budget: computation, windows, shed, SYS_THROT#, intents. Where the
conditions that the chapter sets for it hold (on the state and the operands alone), each of these commands completes with
exactly the next state written here: THERMAL_SAMPLE, SAMPLE_RATE_SLOW, THERMAL_SHUTDOWN_TRIP, PUPPETEER_COMPUTE,
OVL_GRANT_END, OVL_WINDOW_END, LOCAL_ARBITER_EVAL, LOCAL_ARBITER_PMAX_UPDATE, CHG_SHED_DEADLINE, SHED_T_EXPIRY,
SHED_HARD_RESET, SOURCE_RESTORE, THROT_DEASSERT, INTENT_ACTIVATE, INTENT_EXPIRE. -/
def Obligations.ThermalAndBudgetRows : Prop :=
  ∀ s : State, s.power = .on →
    (∀ (die : List Int) (ntc : List NtcReading), s.powered → exec (.thermalSample die ntc) s = .next (
        s.thermSample (fun (n : Nat) => die.getD n 0) (fun (n : Nat) => (ntc.getD n
            { ratio := 32768, temp := 400 }).temp) ntc)) ∧
    (s.powered → s.on R.THM_STATUS.FAST → ¬ (s.nearLimit 12) → exec .sampleRateSlow s = .next (s.setFast false)) ∧
    (∀ (sensors : Fin 4096) (marks : Fin 4096), (pairVote sensors marks || loneVote sensors marks) = true →
     exec (.thermalShutdownTrip sensors marks) s = .next (
        s.thermTrip (sensors &&& (4095 - marks.val)) (!pairVote sensors marks))) ∧
    (∀ (v : BudgetSample), s.get R.BGT_STATUS.SOURCE ≠ 1 → exec (.puppeteerCompute v) s = .next (s.compute v)) ∧
    (∀ (p : Fin 4) (usedUs : Nat) w, (s.bgt.ports.get p).window = some w → w.granting →
     exec (.ovlGrantEnd p usedUs) s = .next ((s.setGrant p (some { w with usedUs := usedUs, granting := false })).putIn)) ∧
    (∀ (p : Fin 4), (s.bgt.ports.get p).window.isSome → exec (.ovlWindowEnd p) s = .next ((s.setGrant p none).putIn)) ∧
    (∀ (v : BudgetSample), exec (.localArbiterEval v) s = .next (
        let m := s.measure v
        let a := s.strCandidate 0 v
        let b := s.strCandidate 1 v
        let s := { s with bgt := { s.bgt with strCand := (s.bgt.strCand.set 0 a).set 1 b, pAux := m.2.1, drw := m.2.2 } }
        if m.1 + m.2.1 + m.2.2 > s.get R.BGT_THROT_CEIL.P then s.assertThrot.updRelief else s)) ∧
    (exec .localArbiterPmaxUpdate s = .next ((s.writePmax 0).writePmax 1)) ∧
    (∀ (power : Nat), power > s.get R.BGT_STR_CHG.P + max (s.get R.BGT_STR_CHG.P / 50) 1000 →
     exec (.chgShedDeadline power) s = .next (
        let s := { s.seti R.CHG_CURRENT.I_SET 0 with chg := { s.chg with forcedZero := true } }
        (s.set R.BGT_EVENT.CHG_OVERRUN 1).raiseBudget 0x04 0xFF)) ∧
    (∀ (p : Fin 4) sh, (s.bgt.ports.get p).shed = some sh → ¬ sh.taken → exec (.shedTExpiry p) s = .next (
        (s.modPb p fun x => { x with shed := some { sh with taken := true } }).set (R.BGT_STR_SRC.P p) sh.cut)) ∧
    (∀ (p : Fin 4) sh, (s.bgt.ports.get p).shed = some sh → sh.taken → exec (.shedHardReset p) s = .next (
        let s := (s.setBit R.BGT_EVENT.SRC_HR p true).endShed p 0x09
        (s.sendHardReset p).modPb p fun x => { x with bound := some sh.cut })) ∧
    (∀ (p : Fin 4), s.mayRestore p → exec (.sourceRestore p) s = .next (
        let r := (s.bgt.ports.get p).restore
        (s.modPb p fun x => { x with bound := r, restore := none }).startSeq p .sourceCaps)) ∧
    (s.on R.BGT_STATUS.THROT → ¬ s.inSafe → s.bgt.overNow ≤ -(s.get R.BGT_THROT_CFG.HYST * 1000 : Int) →
     exec .throtDeassert s = .next (((s.set R.BGT_STATUS.THROT 0).raiseBudget 0x03 0xFF).updRelief)) ∧
    (∀ (slot : Fin 8), (s.bgt.intents.any fun i => i.slot = slot && !i.active) → exec (.intentActivate slot) s = .next (
        (s.modIntent slot fun i => { i with active := true }).armSupplement)) ∧
    (∀ (slot : Fin 8), (s.bgt.intents.any fun i => i.slot = slot) → exec (.intentExpire slot) s = .next (
        s.dropIntents fun i => i.slot = slot))

/-- Type-C: attach and detach, accessories, Try states. Where the conditions that the chapter sets for it hold (on the state
and the operands alone), each of these commands completes with exactly the next state written here: CC_RP_DETECT,
ATTACH_WAIT_CC_OPEN, SINK_ATTACH, SOURCE_ATTACH, RP_CHANGE, SINK_DETACH, SOURCE_DETACH, ACCESSORY_ATTACH, ACCESSORY_DETACH,
DRP_TOGGLE, TRY_TIMEOUT, ERROR_RECOVERY_END, RP_LEVEL_RAISE. -/
def Obligations.PortAttach : Prop :=
  ∀ s : State, s.power = .on →
    (∀ (p : Fin 4) (src : Bool) (cc2 : Bool) (ra : Bool) (level : Fin 3),
     (if src then s.tcState p = 5 && (s.tc p).term != .open_ && !s.wet p else s.tcState p = 2) →
     exec (.ccRpDetect p src cc2 ra level) s = .next (
        let s := s.setb (R.PD_CC_STATUS.POLARITY p) cc2
        let s := s.set (R.PD_CC_STATUS.PARTNER p) (if src then 4 else level + 1)
        let s := s.modTc p fun x => { x with ra := ra }
        (s.setTc p (if src then 6 else 3)).attachTest p)) ∧
    (∀ (p : Fin 4), (s.tcState p = 3 || s.tcState p = 6) → exec (.attachWaitCcOpen p) s = .next (
        let s := (s.set (R.PD_CC_STATUS.PARTNER p) 0).modTc p fun x =>
          { x with moistHold := false, moistPins := none, moistRe := false }
        s.setTc p (if s.tcState p = 3 then 2 else 5))) ∧
    (∀ (p : Fin 4) (vbus : Nat), (s.tcState p = 3 || s.tcState p = 9 || s.tcState p = 0xA) → vbus ≥ 4000 →
     s.attachFree p → exec (.sinkAttach p vbus) s = .next (
        let s := s.setSat (R.PD_VBUS_MEAS.VBUS p) vbus
        if s.triesSource p then (s.setTerm p (.rp (s.rpLevel p))).setTc p 8 else s.attachSink p)) ∧
    (∀ (p : Fin 4) (vbus : Nat), (s.tcState p = 6 || s.tcState p = 8 || s.tcState p = 0xB) → vbus < 800 →
     s.attachFree p → s.srcAvail p → exec (.sourceAttach p vbus) s = .next (
        let s := s.setSat (R.PD_VBUS_MEAS.VBUS p) vbus
        if s.triesSink p then (s.setTerm p .rd).setTc p 0xA else s.attachSource p)) ∧
    (∀ (p : Fin 4) (level : Fin 3), s.tcState p = 4 → exec (.rpChange p level) s = .next (
        let s := s.set (R.PD_CC_STATUS.PARTNER p) (level + 1)
        s.when (s.on (R.PD_PE_STATUS.EXPLICIT p) && s.get (R.PD_PRL_STATUS.PARTNER_REV p) = 2) fun s =>
          s.set (R.PD_CC_STATUS.SINK_TX p) (if level = 2 then 1 else 2))) ∧
    (∀ (p : Fin 4) (vbus : Nat), s.tcState p = 4 → vbus < 3670 → ¬ (s.vbusMayFall p) → exec (.sinkDetach p vbus) s =
        .next (
        (s.setSat (R.PD_VBUS_MEAS.VBUS p) vbus).unattach p)) ∧
    (∀ (p : Fin 4), s.tcState p = 7 → exec (.sourceDetach p) s = .next (s.unattach p)) ∧
    (∀ (p : Fin 4) (kind : Fin 3) (l1 : Fin 3) (l2 : Fin 3), s.on (R.PD_TC_CFG.ACC_EN p) → ¬ (s.wet p) →
     (if kind = 2 then s.tcState p = 2 || s.tcState p = 3 else (s.tcState p = 5 || s.tcState p = 6) && s.srcAvail p) →
     exec (.accessoryAttach p kind l1 l2) s = .next (
        let s := s.set (R.PD_CC_STATUS.PARTNER p) (5 + kind)
        let s := s.modTc p fun x => { x with accLvl := min l1.val l2.val, moistPins := none, moistHold := false }
        let s := (s.set (R.PD_EVENT.ATTACH p) 1).abandonKa
        if kind = 0 then (s.setTc p 0xC).accEvent p
        else if kind = 1 then (((s.set (R.PD_CC_STATUS.POWER_ROLE p) 2).setTc p 0xE).startSource p).accEvent p
        else
          let s := (s.setb (R.PD_CC_STATUS.POLARITY p) (l2 > l1)).set (R.PD_CC_STATUS.POWER_ROLE p) 1
          (((s.setTc p 0xD).setContract p 0 0 5000 (rpMa (min l1.val l2.val)) true).autoSelect).accEvent p)) ∧
    (∀ (p : Fin 4), (s.tcState p = 0xC || s.tcState p = 0xD || s.tcState p = 0xE) → exec (.accessoryDetach p) s = .next (
        (s.unattach p).accEvent p)) ∧
    (∀ (p : Fin 4), s.get (R.PD_TC_CFG.ROLE p) = 2 → (s.tcState p = 2 || s.tcState p = 5) →
     ¬ (s.on (R.PD_CTRL.DISABLE p)) → ¬ s.md.standAlone → ¬ (s.wet p) → exec (.drpToggle p) s = .next (
        if s.tcState p = 2 && s.srcAvail p then (s.setTerm p (.rp (s.rpLevel p))).setTc p 5
        else (s.setTerm p .rd).setTc p 2)) ∧
    (∀ (p : Fin 4), 8 ≤ s.tcState p → s.tcState p ≤ 0xB → exec (.tryTimeout p) s = .next (
        if s.tcState p = 8 then (s.setTerm p .rd).setTc p 9
        else if s.tcState p = 0xA then
          (s.setTerm p (if s.srcAvail p then .rp (s.rpLevel p) else .rd)).setTc p 0xB
        else (s.setTerm p .rd).setTc p 2)) ∧
    (∀ (p : Fin 4), s.tcState p = 1 → exec (.errorRecoveryEnd p) s = .next (
        let s := ((s.set (R.PD_CTRL.ERR_RECOVERY p) 0).setTerm p (s.restTerm p)).setPe p 0x00
        s.setTc p (if s.on (R.PD_CTRL.DISABLE p) then 0 else s.unattachedOf p))) ∧
    (∀ (p : Fin 4) l, s.isSrc p → ¬ (s.on (R.PD_PE_STATUS.EXPLICIT p)) → (s.tc p).term = .rp l → (s.rpLevel p > l) →
     exec (.rpLevelRaise p) s = .next (s.setTerm p (.rp (s.rpLevel p))))

/-- Type-C and the PD link: VCONN, VBUS, moisture, the protocol layer, resets. Where the conditions that the chapter sets for
it hold (on the state and the operands alone), each of these commands completes with exactly the next state written here:
VCONN_OCP, VCONN_REVERSE, VBUS_DISCHARGE_DONE, MOIST_SCAN, MOIST_TEST_DONE, MOIST_RETEST, MOIST_TEST_ABORT, PD_TX_RETRY,
GOODCRC_RX, CHUNK_TIMEOUT, DISCOVER_IDENTITY_RETRY, CABLE_IDENTITY_RX, BIST_RX, BIST_CARRIER_END, HARD_RESET_RX,
SOFT_RESET_RX. -/
def Obligations.PortLink : Prop :=
  ∀ s : State, s.power = .on →
    (∀ (p : Fin 4), s.on (R.PD_VCONN.ON p) → exec (.vconnOcp p) s = .next (
        let s := ((s.vconnOff p).set (R.PD_VCONN.OCP p) 1).modTc p fun x => { x with vconnLock := true }
        let s := s.set (R.PD_EVENT.VCONN_FAULT p) 1
        (s.raiseFault 0x07 0x1 p 0).stopDiscover p)) ∧
    (∀ (p : Fin 4), s.on (R.PD_VCONN.ON p) → exec (.vconnReverse p) s = .next (
        let s := (s.set (R.PD_VCONN.ON p) 0).set (R.PD_VCONN.REV p) 1
        let s := s.set (R.PD_EVENT.VCONN_FAULT p) 1
        (s.raiseFault 0x07 0x2 p 0).stopDiscover p)) ∧
    (∀ (p : Fin 4) (vbus : Nat), (s.tc p).discharge.isSome → vbus ≤ (s.tc p).discharge.getD 0 →
     exec (.vbusDischargeDone p vbus) s = .next (
        (s.setSat (R.PD_VBUS_MEAS.VBUS p) vbus).modTc p fun x => { x with discharge := none })) ∧
    (∀ (p : Fin 4), s.on (R.PD_TC_CFG.MOIST_EN p) → s.noTest → s.mode ≠ 0 →
     (if s.wet p then true else s.detached p && s.mode != 1) → exec (.moistScan p) s = .next (
        s.modTc p fun x =>
          { x with moistPins := some (if s.detached p then 0xF else 0xC), moistAll := false, moistAtt := false, moistRe := false })) ∧
    (∀ (p : Fin 4) (z : List Nat) (ocv : List Int), (s.tc p).moistPins.isSome → exec (.moistTestDone p z ocv) s = .next (
        let pins := (s.tc p).moistPins.getD 0
        let r := s.badPins p pins z ocv
        let s := (s.modTc p fun x => { x with moistPins := none }).moistZ p pins z
        if s.wet p then s.wetResult p (r.1 = 0) else s.dryResult p r.1 r.2)) ∧
    (∀ (p : Fin 4), (s.tc p).moistRe → s.noTest → exec (.moistRetest p) s = .next (
        s.modTc p fun x => { x with moistPins := some (if x.moistAtt then 0xC else 0xF) })) ∧
    (∀ (p : Fin 4), (s.tc p).moistPins.isSome → exec (.moistTestAbort p) s = .next (
        s.modTc p fun x => { x with moistPins := none, moistHold := false })) ∧
    (∀ (p : Fin 4) m, (s.tc p).tx.isSome → (s.tc p).tx = some m → exec (.pdTxRetry p) s = .next (
        if m.retries < s.retryMax p then
          (s.modTc p fun x => { x with tx := some { m with retries := m.retries + 1 } }).emit
            (.pd p { sop := m.sop, kind := m.kind, objs := m.objs })
        else
          let s := (s.modTc p fun x => { x with tx := none, chunk := none }).bump (R.PD_PRL_STATUS.TX_FAIL p)
          (s.set (R.PD_EVENT.TX_FAIL p) 1).txFailed p m)) ∧
    (∀ (p : Fin 4) m, (s.tc p).tx.isSome → (s.tc p).tx = some m → exec (.goodcrcRx p) s = .next (
        let s := s.modTc p fun x =>
          { x with tx := none, txId0 := if m.sop = 0 then (x.txId0 + 1) % 8 else x.txId0,
                   txId1 := if m.sop = 0 then x.txId1 else (x.txId1 + 1) % 8 }
        s.txDone p m)) ∧
    (∀ (p : Fin 4), (s.tc p).chunk.isSome → exec (.chunkTimeout p) s = .next (
        let sending := match (s.tc p).chunk with | some c => c.sending | none => false
        let s := s.modTc p fun x => { x with chunk := none, tx := none }
        if sending && (s.pe p).seq = .hostMsg then (s.finishFor p .hostMsg { status := 0x32 }).endSeq p else s)) ∧
    (∀ (p : Fin 4), (s.tc p).discover.isSome → exec (.discoverIdentityRetry p) s = .next (
        let n := (s.tc p).discover.getD 0
        if n < 20 then (s.modTc p fun x => { x with discover := some (n + 1) }).send p 1 .discoverIdentity []
        else s.endDiscover p)) ∧
    (∀ (p : Fin 4) (amps5 : Bool) (epr : Bool) (active : Bool) (rev2 : Bool) (vmax : Fin 4) (vid : Fin 65536),
     (s.tc p).discover.isSome → exec (.cableIdentityRx p amps5 epr active rev2 vmax vid) s = .next (
        let s := ((s.set (R.PD_CABLE.VALID p) 1).setb (R.PD_CABLE.EPR p) epr).set (R.PD_CABLE.VMAX p) vmax
        let s := ((s.set (R.PD_CABLE.IMAX p) (if amps5 then 2 else 1)).setb (R.PD_CABLE.ACTIVE p) active).set
          (R.PD_CABLE.CABLE_VID p) vid
        (s.set (R.PD_PRL_STATUS.CABLE_REV p) (if rev2 then 1 else 2)).endDiscover p)) ∧
    (∀ (p : Fin 4) (bistMode : Fin 3) (vbus : Nat), s.talks p → 4750 ≤ vbus → vbus ≤ 5500 → bistMode ≠ 2 →
     exec (.bistRx p bistMode vbus) s = .next (
        let s := s.modPe p fun x => { x with back := s.peState p }
        (s.modTc p fun x => { x with bist := bistMode + 1 }).setPe p 0x30)) ∧
    (∀ (p : Fin 4), (s.tc p).bist = 1 → exec (.bistCarrierEnd p) s = .next (
        (s.modTc p fun x => { x with bist := 0 }).setPe p (s.pe p).back)) ∧
    (∀ (p : Fin 4), s.talks p → (s.tcState p = 4 || s.tcState p = 7) → exec (.hardResetRx p) s = .next (s.hardReset p)) ∧
    (∀ (p : Fin 4), s.talks p → (s.tc p).bist ≠ 2 → exec (.softResetRx p) s = .next (
        let s := s.modTc p fun x => { x with tx := none, chunk := none, txId0 := 0, rxId0 := none }
        let s := s.finishCmd p { status := 0x31, diagCode := 1 }
        let s := (s.modPe p fun x =>
            { x with held := .none, later := [], heldMsg := none, kaPending := false, next := none }).endSeq p
        let s := (s.modPe p fun x => { x with capsCount := 0 }).setPe p 0x26
        (s.send p 0 .accept []).setPe p (s.softState p)))

/-- Policy engine: contracts as sink, PPS and EPR. Where the conditions that the chapter sets for it hold (on the state and
the operands alone), each of these commands completes with exactly the next state written here: SRC_CAPS_RX, ACCEPT_RX,
PS_RDY_RX_SINK, REJECT_RX, WAIT_RX, SINK_REQUEST_RETRY, SENDER_RESPONSE_TIMEOUT, PS_TRANSITION_TIMEOUT,
SINK_WAIT_CAP_TIMEOUT, PPS_KEEPALIVE, EPR_ENTRY_START, EPR_MODE_RX, EPR_ENTER_TIMEOUT, EPR_KEEPALIVE, EPR_KEEPALIVE_ACK_RX,
SINK_CAPS_RX, SINK_TX_OK, SINK_TX_WAIT_DROP. -/
def Obligations.PolicySink : Prop :=
  ∀ s : State, s.power = .on →
    (∀ (p : Fin 4) (epr : Bool) (rev2 : Bool) (vbus : Nat) (objs : List Nat), s.listens p → s.takesCaps p vbus →
     exec (.srcCapsRx p epr rev2 vbus objs) s = .next (
        ((s.setSat (R.PD_VBUS_MEAS.VBUS p) vbus).noteRev p rev2).takeCaps p epr objs)) ∧
    (∀ (p : Fin 4), s.awaitsReply p → exec (.acceptRx p) s = .next (
        let old := s.vExp p
        let new := match (s.pe p).next with | some c => c.mv | none => old
        let s := s.modPath p fun x => { x with trans := some (old, new) }
        ((s.modPe p fun x => { x with await := .none, waits := 0 }).setPe p 0x03))) ∧
    (∀ (p : Fin 4), s.listens p → s.peState p = 0x03 → exec (.psRdyRxSink p) s = .next (
        let c := (s.pe p).next.getD (s.nowContract p)
        let leave : Bool := (s.pe p).eprLeave && c.pos ≤ 7
        let s := s.sinkContract p c
        let s := if (s.pe p).held = .request then s else s.finishFor p .request { status := 0x00 }
        let s := s.endSeq p
        (if leave then s.startSeq p .eprExit else s).autoSelect)) ∧
    (∀ (p : Fin 4), s.awaitsReply p → exec (.rejectRx p) s = .next (
        let held := (s.pe p).hold.isSome
        let s := s.modPe p fun x => { x with hold := none, await := .none, next := none, eprLeave := false }
        let s := (s.peEvent p (R.PD_PE_EVENT.MISMATCH p) 0x0A).finishFor p .request { status := 0x40 }
        if held then s.request p (s.chooseOffer p) else (s.setPe p (s.readyState p)).endSeq p)) ∧
    (∀ (p : Fin 4), s.awaitsReply p → exec (.waitRx p) s = .next (
        let n := (s.pe p).waits + 1
        let s := s.modPe p fun x => { x with await := .none, waits := n }
        if n ≥ 3 then s.finishFor p .request { status := 0x41 } else s)) ∧
    (∀ (p : Fin 4), s.waitsRetry p → exec (.sinkRequestRetry p) s = .next (
        if s.mustHold p then s.modPe p fun x => x.withLine (.request :: x.line.filter fun q => q != .request) else
            s.resend p)) ∧
    (∀ (p : Fin 4), (s.pe p).await ≠ .none → exec (.senderResponseTimeout p) s = .next (
        match (s.pe p).await with
        | .eprEnter => if (s.pe p).eprStage = 1 then s.eprFail p else s.resetLink p
        | .softReset =>
          if s.supplyOnly p then (s.setPe p (s.readyState p)).endSeq p else s.sendHardReset p
        | .frSwap => s.errorRecovery p
        | .prSwap => (s.finishFor p .prSwap { status := 0x32 }).endSeq p
        | .vconnSwap => (s.finishFor p .vconnSwap { status := 0x32 }).endSeq p
        | .drSwap => ((s.setPe p (s.readyState p)).finishFor p .drSwap { status := 0x32 }).endSeq p
        | .getSourceCap => s.endSeq p
        | .getSinkCap => s.endSeq p
        | .getStatus => s.endSeq p
        | _ => s.resetLink p)) ∧
    (∀ (p : Fin 4), s.peState p = 0x03 → exec (.psTransitionTimeout p) s = .next (s.resetLink p)) ∧
    (∀ (p : Fin 4), s.peState p = 0x01 → s.tcState p = 4 → exec (.sinkWaitCapTimeout p) s = .next (
        if s.supplyOnly p || (s.pe p).capHr ≥ 2 then s.goImplicit p
        else (s.modPe p fun x => { x with capHr := x.capHr + 1 }).sendHardReset p)) ∧
    (∀ (p : Fin 4), s.listens p → s.on (R.PD_PE_STATUS.EXPLICIT p) → s.get (R.PD_PE_STATUS.CONTRACT p) = 2 →
     ¬ (s.isSrc p) → exec (.ppsKeepalive p) s = .next (s.kaDue p .request)) ∧
    (∀ (p : Fin 4), s.listens p → s.peState p = 0x04 → s.eprMay p → exec (.eprEntryStart p) s = .next (
        s.startSeq p .eprEnter)) ∧
    (∀ (p : Fin 4) (action : Fin 4), s.listens p → exec (.eprModeRx p action) s = .next (
        let stage := (s.pe p).eprStage
        if action = 3 then s.endEpr p
        else if s.peState p != 0x06 then s
        else if action = 0 && stage = 1 then s.modPe p fun x => { x with eprStage := 2, await := .none }
        else if action = 1 && stage = 2 then
          ((s.set (R.PD_PE_STATUS.EPR_MODE p) 1).modPe p fun x => { x with eprStage := 3 }).awaits p .eprEnter
        else if action = 2 && stage != 3 then s.eprFail p
        else s)) ∧
    (∀ (p : Fin 4), s.peState p = 0x06 → (s.pe p).eprStage = 2 → exec (.eprEnterTimeout p) s = .next (s.eprFail p)) ∧
    (∀ (p : Fin 4), s.listens p → s.on (R.PD_PE_STATUS.EPR_MODE p) → ¬ (s.isSrc p) → exec (.eprKeepalive p) s = .next (
        s.kaDue p .keepAlive)) ∧
    (∀ (p : Fin 4), s.listens p → (s.pe p).await = .keepAlive → exec (.eprKeepaliveAckRx p) s = .next (s.endSeq p)) ∧
    (∀ (p : Fin 4) (objs : List Nat), s.listens p → (s.tcState p = 4 || s.tcState p = 7) →
     exec (.sinkCapsRx p objs) s = .next (
        let s := s.putTable (R.PD_PARTNER_SNK_PDO.W p) 0 11 objs
        if (s.pe p).await = .getSinkCap then s.endSeq p else s)) ∧
    (∀ (p : Fin 4), s.listens p → ¬ (s.isSrc p) → s.tcState p = 4 → s.on (R.PD_PE_STATUS.EXPLICIT p) →
     s.get (R.PD_PRL_STATUS.PARTNER_REV p) = 2 → exec (.sinkTxOk p) s = .next (
        let s := (s.set (R.PD_CC_STATUS.SINK_TX p) 1).set (R.PD_CC_STATUS.PARTNER p) 3
        if (s.pe p).seq = .none || (s.waitsRetry p && (s.pe p).held = .request) then s.runHeld p else s)) ∧
    (∀ (p : Fin 4), ¬ (s.isSrc p) → (s.pe p).seq = .none → ((s.pe p).line.any fun q => s.mayDrop p q) →
     exec (.sinkTxWaitDrop p) s = .next (
        let q := ((s.pe p).line.find? fun q => s.mayDrop p q).getD .none
        let due := (s.pe p).kaPending
        let k := s.kaSeq p
        let s := s.finishFor p q { status := 0x30 }
        let s := s.modTc p fun x => { x with chunk := if q = .hostMsg then none else x.chunk }
        s.modPe p fun x =>
          { x.withLine ((if due then [k] else []) ++ x.line.filter fun r => r != q) with
            kaPending := false, heldMsg := if q = .hostMsg then none else x.heldMsg }))

/-- Policy engine: contracts as source, answers, chunks, host-routed messages. Where the conditions that the chapter sets for
it hold (on the state and the operands alone), each of these commands completes with exactly the next state written here:
SOURCE_CAPS_SEND, REQUEST_RX, SRC_TRANSITION_START, SRC_PS_RDY, PPS_SOURCE_TIMEOUT, TSINKTX_EXPIRY, HOST_ROUTED_RX,
DR_SWAP_RX, HOST_REPLY_TIMEOUT, TABLE_REQUEST_RX, CHUNK_RX. -/
def Obligations.PolicySource : Prop :=
  ∀ s : State, s.power = .on →
    (∀ (p : Fin 4), s.listens p → s.sendsCaps p → exec (.sourceCapsSend p) s = .next (
        if (s.pe p).capsCount ≥ 50 then
          let s := (s.clearContract p).modPe p fun x => { x with seq := .none, await := .none }
          (s.setTerm p (.rp (s.rpLevel p))).setPe p 0x14
        else s.sendSrcCaps p)) ∧
    (∀ (p : Fin 4) (rdo : Nat) (rev2 : Bool), s.takesRequest p → exec (.requestRx p rdo rev2) s = .next (
        let s := ((s.noteRev p rev2).set (R.PD_RDO_RECEIVED.W p) rdo).setPe p 0x11
        let s := s.awaits p .none
        match requestOf (s.offerAt p rdo) rdo with
        | none => s.rejectRequest p false
        | some (kind, v, i) =>
          if v * i / 1000 > s.requestLimit p then s.rejectRequest p true
          else s.acceptRequest p { pos := objBits rdo 28 4, kind := kind, mv := v, ma := i, rdo := rdo })) ∧
    (∀ (p : Fin 4), s.peState p = 0x12 → (s.path.ports.get p).trans.isNone → exec (.srcTransitionStart p) s = .next (
        let old := if s.on (R.PD_PE_STATUS.EXPLICIT p) then s.get (R.PD_PE_CONTRACT.VOLTAGE p) else 5000
        match (s.pe p).next with
        | none => s
        | some c => s.modPath p fun x => { x with trans := some (old, c.mv) })) ∧
    (∀ (p : Fin 4) (vbus : Nat) c, s.peState p = 0x12 → (s.path.ports.get p).trans.isSome → (s.pe p).next = some c →
     within3 vbus c.mv → exec (.srcPsRdy p vbus) s = .next (
        let s := (s.setSat (R.PD_VBUS_MEAS.VBUS p) vbus).sourceContract p c
        (s.endSeq p).startSeq p .getSinkCap)) ∧
    (∀ (p : Fin 4), s.listens p → s.isSrc p → s.on (R.PD_PE_STATUS.EXPLICIT p) → s.get (R.PD_PE_STATUS.CONTRACT p) = 2 →
     exec (.ppsSourceTimeout p) s = .next (s.resetLink p)) ∧
    (∀ (p : Fin 4), s.listens p → s.isSrc p → (s.pe p).held ≠ .none → (s.pe p).seq = .none →
     exec (.tsinktxExpiry p) s = .next (s.runHeld p)) ∧
    (∀ (p : Fin 4) (sop1 : Bool) (needs : Bool) (kind : MsgKind) (hdr : Fin 65536) (ext : Fin 65536) (data : List Byte),
     s.listens p → hostKind kind → exec (.hostRoutedRx p sop1 needs kind hdr ext data) s = .next (
        s.hostRouted p sop1 needs kind hdr ext data)) ∧
    (∀ (p : Fin 4) (hdr : Fin 65536), s.listens p → s.inReady p → exec (.drSwapRx p hdr) s = .next (
        if !s.on (R.PD_PE_CFG.HOST_DRS p) || s.md.standAlone then s.send p 0 .reject []
        else if s.on R.HIF_EVQ_CFG.EN then
          (((s.breakOff p).modPe p fun x => { x with seq := .drSwap }).setPe p 0x23).askHost p false .drSwap hdr 0 []
        else s.askHost p false .drSwap hdr 0 [])) ∧
    (∀ (p : Fin 4), s.on (R.PD_PE_STATUS.HOST_WAIT p) → exec (.hostReplyTimeout p) s = .next (
        let kind := (s.pe p).hostMsg
        let s := match kind with | some k => s.autoReply p k | none => s
        let s := (s.set (R.PD_PE_STATUS.HOST_WAIT p) 0).modPe p fun x => { x with hostMsg := none, hostLate := true }
        (s.peEvent p (R.PD_PE_EVENT.HOST_TIMEOUT p) 0x09).drsOver p kind)) ∧
    (∀ (p : Fin 4) (kind : MsgKind), s.listens p → exec (.tableRequestRx p kind) s = .next (s.tableAnswer p kind)) ∧
    (∀ (p : Fin 4) (sop1 : Bool) (kind : MsgKind) (hdr : Fin 65536) (ext : Fin 65536) (bytes : List Byte), s.listens p →
     exec (.chunkRx p sop1 kind hdr ext bytes) s = .next (
        if !bitAt ext 15 then s.send p 0 .notSupported []
        else if bitAt ext 10 then
          match (s.tc p).chunk with
          | some x => if x.sending then s.sendChunk p (objBits ext 11 4) x else s
          | none => s
        else s.takeChunk p sop1 kind hdr ext bytes))

/-- Policy engine: swaps, Fast Role Swap, Hard Reset and Soft_Reset. Where the conditions that the chapter sets for it hold
(on the state and the operands alone), each of these commands completes with exactly the next state written here: PR_SWAP_RX,
PR_SWAP_SOURCE_OFF, PR_SWAP_VBUS_LOW, PS_RDY_RX_SWAP, SWAP_PS_RDY_TIMEOUT, VCONN_SWAP_RX, VCONN_SOURCE_TIMEOUT,
SWAP_REPLY_RX, FRS_SIGNAL_DETECT, FR_SWAP_RX, FRS_SOURCE_WAIT_EXPIRY, HR_SINK_ALLOWANCE_END, HR_SINK_VBUS_RETURN,
HR_SOURCE_VBUS_OFF, HR_SOURCE_RECOVER, SOFT_RESET_ACCEPT_RX. -/
def Obligations.PolicySwaps : Prop :=
  ∀ s : State, s.power = .on →
    (∀ (p : Fin 4), s.listens p → s.inReady p → exec (.prSwapRx p) s = .next (
        let s := s.dropOwnPrs p
        if s.prsRefused p then s.send p 0 .reject []
        else if s.busMoving p then s.send p 0 .wait []
        else ((s.breakOff p).send p 0 .accept []).prsStart p)) ∧
    (∀ (p : Fin 4), s.peState p = 0x20 → (s.pe p).swapStage = 2 → exec (.prSwapSourceOff p) s = .next (
        (s.stopSource p 800).clearContract p)) ∧
    (∀ (p : Fin 4) (vbus : Nat), s.peState p = 0x20 → (s.pe p).swapStage = 2 → (s.path.ports.get p).srcBus.isNone →
     vbus < 800 → exec (.prSwapVbusLow p vbus) s = .next (
        let s := (s.setSat (R.PD_VBUS_MEAS.VBUS p) vbus).setTerm p .rd
        let s := (s.set (R.PD_CC_STATUS.POWER_ROLE p) 1).modTc p fun x => { x with discharge := none }
        (s.send p 0 .psRdy []).modPe p fun x => { x with swapStage := 3 })) ∧
    (∀ (p : Fin 4), s.listens p → exec (.psRdyRxSwap p) s = .next (
        let st := s.peState p
        let stage := (s.pe p).swapStage
        if st = 0x20 && stage = 3 then s.becomeSink p
        else if st = 0x21 && stage = 2 && (s.busOf p).isNone then s.becomeSource p
        else if st = 0x22 && stage = 2 then s.giveVconn p
        else if st = 0x24 && stage = 2 then s.frsNewSource p
        else if st = 0x25 && stage = 3 then s.becomeSink p
        else s)) ∧
    (∀ (p : Fin 4), s.awaitsSwapRdy p → exec (.swapPsRdyTimeout p) s = .next (s.errorRecovery p)) ∧
    (∀ (p : Fin 4), s.listens p → s.inReady p → exec (.vconnSwapRx p) s = .next (
        if s.vcsRefused p then s.send p 0 .reject []
        else if s.on (R.PD_PE_STATUS.VCONN_SRC p) && (s.tc p).discover.isSome then s.send p 0 .wait []
        else ((s.breakOff p).send p 0 .accept []).vcsStart p)) ∧
    (∀ (p : Fin 4), s.peState p = 0x22 → (s.pe p).swapStage = 2 → s.on (R.PD_PE_STATUS.VCONN_SRC p) →
     exec (.vconnSourceTimeout p) s = .next (s.resetLink p)) ∧
    (∀ (p : Fin 4) (reply : Fin 3), s.listens p → exec (.swapReplyRx p reply) s = .next (
        let q := (s.pe p).await
        if q = .frSwap then
          if reply = 0 then s.modPe p fun x => { x with await := .none, swapStage := 2 } else s.errorRecovery p
        else if q != .prSwap && q != .vconnSwap && q != .drSwap then s
        else if reply = 0 then
          if q = .prSwap then s.prsStart p else if q = .vconnSwap then s.vcsStart p else s.drSwapped p
        else
          let s := if q = .drSwap then s.setPe p (s.readyState p) else s
          (s.finishFor p q { status := if reply = 1 then 0x40 else 0x41 }).endSeq p)) ∧
    (∀ (p : Fin 4), s.listens p → s.tcState p = 4 → s.frsArmed p → ¬ (s.isSrc p) → exec (.frsSignalDetect p) s = .next (
        let s := s.finishCmd p { status := 0x31, diagCode := 1 }
        let s := s.modPe p fun x =>
            { x with frsCur := true, next := none, held := .none, later := [], kaPending := false }
        let s := match s.busOf p with | some b => s.frsTurn p b | none => s
        let s := (s.peEvent p (R.PD_PE_EVENT.FRS p) 0x08).setPe p 0x24
        s.runSeq p .frSwap)) ∧
    (∀ (p : Fin 4), s.listens p → s.peState p = 0x25 → (s.pe p).swapStage = 0 → exec (.frSwapRx p) s = .next (
        let s := ((s.send p 0 .accept []).setTerm p .rd).set (R.PD_CC_STATUS.POWER_ROLE p) 1
        let s := (s.clearContract p).modTc p fun x => { x with discharge := none }
        (s.send p 0 .psRdy []).modPe p fun x => { x with swapStage := 3, seq := .frSwap })) ∧
    (∀ (p : Fin 4), s.peState p = 0x25 → (s.pe p).swapStage = 0 → exec (.frsSourceWaitExpiry p) s = .next (
        (s.errorRecovery p).discharge p 800)) ∧
    (∀ (p : Fin 4) (vbus : Nat), s.peState p = 0x07 → exec (.hrSinkAllowanceEnd p vbus) s = .next (
        let s := s.setSat (R.PD_VBUS_MEAS.VBUS p) vbus
        if vSafe5V vbus then s.setPe p 0x01 else if vbus < 3670 then s.unattach p else s)) ∧
    (∀ (p : Fin 4) (vbus : Nat), s.peState p = 0x07 → vSafe5V vbus → exec (.hrSinkVbusReturn p vbus) s = .next (
        (s.setSat (R.PD_VBUS_MEAS.VBUS p) vbus).setPe p 0x01)) ∧
    (∀ (p : Fin 4), s.peState p = 0x15 → exec (.hrSourceVbusOff p) s = .next ((s.stopSource p 800).vconnOff p)) ∧
    (∀ (p : Fin 4), s.peState p = 0x15 → (s.path.ports.get p).srcBus.isNone → exec (.hrSourceRecover p) s = .next (
        s.startSource p)) ∧
    (∀ (p : Fin 4), s.listens p → s.peState p = 0x26 → (s.pe p).await = .softReset → exec (.softResetAcceptRx p) s =
        .next (
        (s.setPe p (s.softState p)).endSeq p))

/-- Rails: states, faults, latched requests, AUX bucks. Where the conditions that the chapter sets for it hold (on the state
and the operands alone), each of these commands completes with exactly the next state written here: RAIL_ENABLE, RAIL_GOOD,
RAIL_PG_TIMEOUT, RAIL_LOSS_OF_GOOD, RAIL_DISABLE, RAIL_OFF, RAIL_STUCK, LATCHED_POWER_UP, AUX_OVERLOAD, AUX_UVLO. -/
def Obligations.RailMoves : Prop :=
  ∀ s : State, s.power = .on →
    (∀ (n : Fin 12), s.rail n = railWait → (s.depsOf n &&& s.railsIn railGood = s.depsOf n) → exec (.railEnable n) s =
        .next (
        s.setRail n railRamp)) ∧
    (∀ (n : Fin 12), s.rail n = railRamp → exec (.railGood n) s = .next (((s.setRail n railGood).railEvent n
        0x01).finishUps)) ∧
    (∀ (n : Fin 12), s.rail n = railRamp → exec (.railPgTimeout n) s = .next (s.faultRail n R.SEQ_FAULT.TIMEOUT 0x03)) ∧
    (∀ (n : Fin 12), s.rail n = railGood → exec (.railLossOfGood n) s = .next (
        (s.ifDo (4 ≤ n.val) fun s => s.wakeUp false false).faultRail n R.SEQ_FAULT.LOST 0x04)) ∧
    (∀ (n : Fin 12), s.rail n = railHold → (allRails.all fun d => !bitAt (s.depsOf d) n || s.letsGo d) →
     exec (.railDisable n) s = .next (s.setRail n railFall)) ∧
    (∀ (n : Fin 12), (s.rail n = railFall || s.rail n = railStuck) → exec (.railOff n) s = .next (
        (((s.setRail n railOff).railEvent n 0x02).syncUnused n |>.applyR48 n).finishDowns)) ∧
    (∀ (n : Fin 12), s.rail n = railFall → (s.depsOf n &&& s.railsIn railHold != 0) → exec (.railStuck n) s = .next (
        (((s.setRail n railStuck).setBit R.SEQ_STUCK.STUCK n true).railEvent n 0x05).finishDowns)) ∧
    (¬ s.downRuns → ¬ s.seq.latch.isEmpty → exec .latchedPowerUp s = .next (
        let l := s.seq.latch
        let s := (s.modSeq fun q => { q with latch := [] }).set R.SEQ_STATUS.LATCHED_ON 0
        l.foldl State.startUp s)) ∧
    (∀ (n : Fin 4), s.bit R.SEQ_STATUS.ENABLED (n.castLE (by decide) : Fin 12) → exec (.auxOverload n) s = .next (
        let s := (s.setBit R.SEQ_AUX_STATUS.OCP n true).railEvent (n.castLE (by decide) : Fin 12) 0x06
        if s.rail (n.castLE (by decide) : Fin 12) = railHold then s.setRail (n.castLE (by decide) : Fin 12) railFall
            else s.faultRail (n.castLE (by decide) : Fin 12) R.SEQ_FAULT.LOST 0x04)) ∧
    (∀ (vsys : Nat), vsys ≤ 2781 → exec (.auxUvlo vsys) s = .next (
        let s := s.setSat R.MOD_VSYS_STATUS.VSYS vsys
        let m := (s.railsIn railRamp + s.railsIn railGood) % 16
        let s := s.eachRail (s.railsIn railHold % 16) fun s n => s.setRail n railFall
        let s := s.eachRail m fun s n => s.markFault n R.SEQ_FAULT.LOST 0x04
        s.eachRail m State.faultAction))

/-- Capture: triggers, blocks, write-out, pressure; host rings: doorbells, fetches, interrupts, the link. Where the
conditions that the chapter sets for it hold (on the state and the operands alone), each of these commands completes with
exactly the next state written here: THRESHOLD_FIRE, CAPTURE_TRIGGER, CAPTURE_BLOCK_CLOSE, WRITE_OUT_START, PRESSURE_RESTORE,
SLOW_RATE_APPLY, ONESHOT_DONE, DOORBELL_POLL, DOORBELL_FETCH_DONE, FULL_HEAD_FETCH, ENTRY_FETCH_DONE, IRQ_ITIME_EXPIRY,
SQ_DRAIN_DONE, FUNCTION_LEVEL_RESET, BUS_MASTER_DISABLE, BUS_MASTER_ENABLE, LINK_L1_ENTRY, PERST_DEASSERT. -/
def Obligations.CaptureAndRingRows : Prop :=
  ∀ s : State, s.power = .on →
    (∀ (n : Fin 4) (before : Int) (after : Int) (frame : Nat), s.on (R.CAP_TH_CFG.EN n) → s.crossing n before after →
     exec (.thresholdFire n before after frame) s = .next (s.trigAll 1 n frame)) ∧
    (∀ (c : Fin 8) (src : Nat) (idx : Nat) (frame : Nat), s.ring c = capArmed → (s.stream c).matches src idx →
     exec (.captureTrigger c src idx frame) s = .next (s.trigStream c src idx frame)) ∧
    (∀ (c : Fin 8) (run : FrameRun) (lost : Nat) (forming : Nat), s.ringOn c → ¬ ((s.stream c).ended) →
     exec (.captureBlockClose c run lost forming) s = .next (s.closeBlock c run lost forming false)) ∧
    (∀ (corr : Nat) (bad : Nat), s.canDma → (allRings.any fun (c : Fin 8) => !(s.stream c).due.isEmpty) →
     exec (.writeOutStart corr bad) s = .next ((s.capEcc corr bad).writeOut)) ∧
    (∀ (forming : Nat), s.get R.CAP_STATUS.LEVEL ≠ 0 → s.capFill + forming - s.cap.forming < 65536 →
     exec (.pressureRestore forming) s = .next (
        ({ s with cap := { s.cap with forming := forming } }).setLevel (s.get R.CAP_STATUS.LEVEL - 1) |>.capRefresh)) ∧
    (s.cap.slowWait → exec .slowRateApply s = .next (
        { s with cap := { s.cap with slowRate := s.get R.CAP_CFG.SLOW_RATE, slowWait := false } })) ∧
    (∀ (mean : Int), s.on R.CAP_ONESHOT_RES.BUSY → exec (.oneshotDone mean) s = .next (
        ((s.set R.CAP_ONESHOT_RES.BUSY 0).set R.CAP_ONESHOT_RES.STALE 0).set R.CAP_ONESHOT_RES.VALUE (mean %
            65536).toNat)) ∧
    (s.get R.HIF_CTRL.POLL_US ≠ 0 → s.on R.HIF_STATUS.L0 → s.on R.HIF_STATUS.RUNNING → ¬ (s.on R.HIF_STATUS.FETCHING) →
     exec .doorbellPoll s = .next (s.requestFetch)) ∧
    (∀ (err : Nat) (page : List Byte), s.on R.HIF_STATUS.FETCHING → exec (.doorbellFetchDone err page) s = .next (
        let s := s.set R.HIF_STATUS.FETCHING 0
        let s := if err = 0 then s.applyDoorbell page else s.dbFail err
        s.nextFetch.fetchTurns)) ∧
    (∀ (c : Fin 8) (err : Nat) (page : List Byte), (s.stream c).heading → exec (.fullHeadFetch c err page) s = .next (
        let s := s.modStream c fun st => { st with heading := false }
        if err != 0 then s.dbFail err
        else
          let s := s.applyDoorbell page
          (if s.ring c = capRunning then (s.drain true c).publish else s).fetchTurns)) ∧
    (∀ (q : Fin 8) (err : Nat) (data : List Byte) f, (s.hif.fetches.any fun (x : EntryFetch) => x.ring = q) →
     (s.hif.fetches.find? fun (x : EntryFetch) => x.ring = q) = some f → exec (.entryFetchDone q err data) s = .next (
        let s := { s with hif := { s.hif with fetches := s.hif.fetches.filter fun (g : EntryFetch) => g.ring != q } }
        if err = 0 then s.fetchGood f data else s.fetchFail f err)) ∧
    (∀ (ring : Fin 9), exec (.irqItimeExpiry ring) s = .next (
        if ring = 8 then
          if s.get R.HIF_EVQ_CFG.ITIME != 0 && s.hif.evCount != 0 then
            ({ s with hif := { s.hif with evCount := 0 } }).fire (s.get R.HIF_EVQ_CFG.VEC)
          else s
        else
          let q : Fin 8 := Fin.ofNat 8 ring
          if s.get (R.HIF_CQ_CFG.ITIME q) != 0 && s.hif.cqCount.get q != 0 then
            ({ s with hif := { s.hif with cqCount := s.hif.cqCount.set q 0 } }).fire (s.get (R.HIF_CQ_CFG.VEC q))
          else s)) ∧
    (∀ (q : Fin 8), exec (.sqDrainDone q) s = .next (s.drained q)) ∧
    (∀ (kind : Fin 3), exec (.functionLevelReset kind) s = .next (
        if kind = 0 then s.hostReset.toL0 else (s.linkDown (kind = 1)).hostReset)) ∧
    (∀ (d3 : Bool), s.hif.linkUp → exec (.busMasterDisable d3) s = .next (
        if d3 then { s with hif := { s.hif with d3 := true } } else s.set R.HIF_STATUS.BME 0)) ∧
    (∀ (d0 : Bool), s.hif.linkUp → exec (.busMasterEnable d0) s = .next (
        (if d0 then { s with hif := { s.hif with d3 := false } } else s.set R.HIF_STATUS.BME 1).dmaResume)) ∧
    (s.hif.linkUp → s.on R.HIF_STATUS.L0 → ¬ (s.on R.HIF_STATUS.FETCHING) → s.hif.fetches.isEmpty →
     exec .linkL1Entry s = .next ({ s.set R.HIF_STATUS.L0 0 with hif := { s.hif with l1 := true } })) ∧
    (∀ (trained : Bool), s.hif.perst → s.powered → exec (.perstDeassert trained) s = .next (
        let s := { s with hif := { s.hif with perst := false, linkUp := trained, l1 := false } }
        s.setb R.HIF_STATUS.L0 trained))

/-- Continuity and firmware: Jack's period, resets of the cores, fallback, log, activation, boot ROM. Where the conditions
that the chapter sets for it hold (on the state and the operands alone), each of these commands completes with exactly the
next state written here: JACK_PERIOD_START, CORE_FAULT_RESET, FALLBACK_EXPIRY, LOG_ENTRY_WRITE, LOG_WRITE_ABANDON,
FW_ACTIVATE_WAIT_TIMEOUT, ACTIVATION_TIMEOUT, PROBATION_END, BOOT_ROM_VERIFY. -/
def Obligations.JackAndFirmwareRows : Prop :=
  ∀ s : State, s.power = .on →
    (s.get R.WDG_STATUS.STATE = 0 → exec .jackPeriodStart s = .next (if s.jk.due then s.nextPeriod else s.closePeriod)) ∧
    (∀ (ecc : Bool) (app : Bool), bitAt (s.get R.GLB_CLK_STATUS.RUN) 3 → s.get R.HIF_STATUS.FW ≠ 3 →
     exec (.coreFaultReset ecc app) s = .next (
        match s.fw.gap with
        | some g => s.failGap g (if app then 1 else 2)
        | none => s.warmReset (if ecc then 3 else 2))) ∧
    (∀ (cur : List FrameRun), s.on R.WDG_FALLBACK.ARMED → s.fw.gap.isNone → exec (.fallbackExpiry cur) s = .next (
        if s.get R.HIF_STATUS.FW = 3 then (s.set R.WDG_FALLBACK.ARMED 0).set R.WDG_FALLBACK.LEFT 0 else s.fallBack cur)) ∧
    (∀ e q, s.fwRuns → s.fw.logQ = e :: q → exec .logEntryWrite s = .next (
        ({ s with fw := { s.fw with logQ := q } }).writeLog e)) ∧
    (∀ (vsys : Nat) u0 q, s.fwRuns → vsys < 2900 → s.fw.logQ = u0 :: q → exec (.logWriteAbandon vsys) s = .next (
        s.abandonLog q)) ∧
    (∀ h, s.fw.gap.isNone → s.fw.actWait = some h → exec .fwActivateWaitTimeout s = .next (
        ({ s with fw := { s.fw with actWait := none } }).complete h { status := 0x30 })) ∧
    (∀ (supervisor : Bool) g, s.fw.gap = some g → ¬ g.back → exec (.activationTimeout supervisor) s = .next (
        s.failGap g (if supervisor then 2 else 1))) ∧
    (∀ (fuseOk : Bool), s.fw.record.trial → s.fw.gap.isNone → exec (.probationEnd fuseOk) s = .next (
        let b := s.fw.record.bank
        ((s.setRecord b false).advance fuseOk).raiseFw 0x05 b (s.bank b).svn)) ∧
    (∀ (img0 : ImageCheck) (img1 : ImageCheck) (fuseOk : Bool), s.md.boot = .clocked →
     exec (.bootRomVerify img0 img1 fuseOk) s = .next (
        let s := ((s.setBank 0 (s.bankOf img0)).setBank 1 (s.bankOf img1)).endTrial
        if (s.bank s.fw.record.bank).valid then s.startBank fuseOk
        else if (s.bank s.otherBank).valid then
          ((s.setRecord s.otherBank false).raiseFault 0x0B 0x1 0xFF 0).startBank fuseOk
        else s.enterRecovery))

/-- Timers, the debugger's halt and the GPIOs. Where the conditions that the chapter sets for it hold (on the state and the
operands alone), each of these commands completes with exactly the next state written here: AON_CMP_FIRE, FT_COMPARE_MATCH,
FT_WRAP, FT_CAPTURE_EDGE, DEBUG_HALT, DEBUG_RESUME, GPIO_EDGE. -/
def Obligations.TimerMoves : Prop :=
  ∀ s : State, s.power = .on →
    (∀ (n : Fin 8) (frame : Nat), exec (.aonCmpFire n frame) s = .next (s.cmpCheck n frame)) ∧
    (∀ (n : Fin 16) (k : Fin 2) (up : Bool) (frame : Nat), s.ftRuns n →
     (s.get (cmpVal n k)) ≤ (s.get (R.TMR_FT_TOP.TOP n)) → s.dirAllowed n k up →
     ((s.get (R.TMR_FT_CFG.MODE n)) = 2 || up = ((s.get (R.TMR_FT_CFG.MODE n)) = 0)) →
     exec (.ftCompareMatch n k up frame) s = .next (
        let down : Bool := (s.get (R.TMR_FT_CFG.MODE n)) = 1 || ((s.get (R.TMR_FT_CFG.MODE n)) = 2 && ((s.get (cmpVal n
            k)) = (s.get (R.TMR_FT_TOP.TOP n)) || (!up && (s.get (cmpVal n k)) != 0)))
        ((s.set (R.TMR_FT_CNT.CNT n) (s.get (cmpVal n k))).setb (R.TMR_FT_STATUS.DIR n) down).ftMatch n k frame)) ∧
    (∀ (n : Fin 16), s.ftRuns n → exec (.ftWrap n) s = .next (
        let high : Bool := (s.get (R.TMR_FT_CFG.MODE n)) = 1 || ((s.get (R.TMR_FT_CFG.MODE n)) = 2 && (s.get
            (R.TMR_FT_TOP.TOP n)) < s.get (R.TMR_FT_CNT.CNT n))
        ((s.set (R.TMR_FT_CNT.CNT n) (if high then (s.get (R.TMR_FT_TOP.TOP n)) else 0)).setb (R.TMR_FT_STATUS.DIR n)
            high).set (R.TMR_FT_STATUS.WRAP n) 1)) ∧
    (∀ (n : Fin 16) (rise : Bool) (count : Nat) (up : Bool),
     ((s.get (R.TMR_FT_CFG.CAP_EDGE n)) = 3 || (if rise then (s.get (R.TMR_FT_CFG.CAP_EDGE n)) = 1 else (s.get
         (R.TMR_FT_CFG.CAP_EDGE n)) = 2)) →
     exec (.ftCaptureEdge n rise count up) s = .next ((s.ftSync n count up).ftCapture n)) ∧
    (∀ (counts : List (Nat × Bool)), s.on R.SEC_DBG_CTRL.DBG_EN → ¬ s.tmr.halted → exec (.debugHalt counts) s = .next (
        let s := (List.range 16).foldl (fun (acc : State) (n : Nat) =>
          let c := counts.getD n (0, true)
          if acc.on (R.TMR_FT_CFG.DBG_FREEZE n) then acc.ftSync n c.1 c.2 else acc) s
        { s with tmr := { s.tmr with halted := true } })) ∧
    (s.tmr.halted → exec .debugResume s = .next ({ s with tmr := { s.tmr with halted := false } })) ∧
    (∀ (n : Fin 8) (rise : Bool) (frame : Nat), exec (.gpioEdge n rise frame) s = .next (
        let f := s.get (R.PIN_GPIO_CFG.FUNC n)
        let s := s.setBit R.PIN_GPIO_IN.IN n rise
        let s := if rise then s.setBit R.PIN_GPIO_EVENT.RISE n true else s.setBit R.PIN_GPIO_EVENT.FALL n true
        let s := if f = 4 && s.inKa && rise != s.on (R.PIN_GPIO_CFG.WAKE_EDGE n) then s.wakeUp true false else s
        if f = 1 then s.trigAll 6 (if rise then n.val else n.val + 8) frame else s))

/-- Register writes that have a row: each is the checked write of its register with the row's effect. Where the conditions
that the chapter sets for it hold (on the state and the operands alone), each of these commands completes with exactly the
next state written here: REGISTER_WRITE, ACC_ERR_CLEAR, HALF_PERIOD_WRITE, PORT_DISABLE_WRITE, PORT_ERR_RECOVERY, HIF_ENABLE,
KICK, SQ_ENABLE, SQ_DISABLE, CQ_ENABLE, CQ_DISABLE, EVQ_ENABLE, EVQ_DISABLE, ONESHOT_GO, JACK_ANSWER, JACK_CHECKIN, JACK_KEY,
JACK_DISABLE, JACK_ENABLE, JACK_LOCK, H2U_PUSH, U2H_ACK_WRITE, UNIT_ACK_WRITE, U2EC_SEND, LOCK_WRITE, FT_ENABLE, FT_DISABLE,
FT_CAPTURE_NOW, FT_CNT_WRITE, FT_TOP_WRITE, FT_CMP_WRITE, GPIO_CFG_WRITE. -/
def Obligations.RegisterWrites : Prop :=
  ∀ s : State, s.power = .on →
    (∀ (ini : Initiator) (addr : Nat) (data : Word) (full : Bool), s.reaches ini →
     exec (.registerWrite ini addr data full) s = .next (s.busWrite ini addr data full)) ∧
    (∀ (ini : Initiator), s.reaches ini → exec (.accErrClear ini) s = .next (
        s.busWrite ini A.GLB_ACC_ERR_INFO 0x80000000 true)) ∧
    (∀ (ini : Initiator) (g : Fin 2) (data : Word) (full : Bool), s.reaches ini →
     exec (.halfPeriodWrite ini g data full) s = .next (s.busWrite ini (A.CNV_GRP_CFG g) data full)) ∧
    (∀ (ini : Initiator) (p : Fin 4) (data : Word) (full : Bool), s.reaches ini →
     exec (.portDisableWrite ini p data full) s = .next (s.busWrite ini (A.PD_CTRL p) data full)) ∧
    (∀ (ini : Initiator) (p : Fin 4) (data : Word) (full : Bool), s.reaches ini → getBits data 30 1 = 1 →
     getBits data 31 1 = s.get (R.PD_CTRL.DISABLE p) → exec (.portErrRecovery ini p data full) s = .next (
        s.busWrite ini (A.PD_CTRL p) data full)) ∧
    (∀ (ini : Initiator) (data : Word) (full : Bool), s.reaches ini → exec (.hifEnable ini data full) s = .next (
        s.busWrite ini A.HIF_CTRL data full)) ∧
    (∀ (ini : Initiator) (data : Word) (full : Bool), s.reaches ini → exec (.kick ini data full) s = .next (
        s.busWrite ini A.HIF_KICK data full)) ∧
    (∀ (ini : Initiator) (q : Fin 8) (data : Word) (full : Bool), s.reaches ini →
     getBits data (R.HIF_SQ_CFG.EN q).lo 1 = 1 → exec (.sqEnable ini q data full) s = .next (
        s.busWrite ini (A.HIF_SQ_CFG q) data full)) ∧
    (∀ (ini : Initiator) (q : Fin 8) (data : Word) (full : Bool), s.reaches ini →
     getBits data (R.HIF_SQ_CFG.EN q).lo 1 = 0 → exec (.sqDisable ini q data full) s = .next (
        s.busWrite ini (A.HIF_SQ_CFG q) data full)) ∧
    (∀ (ini : Initiator) (q : Fin 8) (data : Word) (full : Bool), s.reaches ini →
     getBits data (R.HIF_CQ_CFG.EN q).lo 1 = 1 → exec (.cqEnable ini q data full) s = .next (
        s.busWrite ini (A.HIF_CQ_CFG q) data full)) ∧
    (∀ (ini : Initiator) (q : Fin 8) (data : Word) (full : Bool), s.reaches ini →
     getBits data (R.HIF_CQ_CFG.EN q).lo 1 = 0 → exec (.cqDisable ini q data full) s = .next (
        s.busWrite ini (A.HIF_CQ_CFG q) data full)) ∧
    (∀ (ini : Initiator) (data : Word) (full : Bool), s.reaches ini → getBits data R.HIF_EVQ_CFG.EN.lo 1 = 1 →
     exec (.evqEnable ini data full) s = .next (s.busWrite ini A.HIF_EVQ_CFG data full)) ∧
    (∀ (ini : Initiator) (data : Word) (full : Bool), s.reaches ini → getBits data R.HIF_EVQ_CFG.EN.lo 1 = 0 →
     exec (.evqDisable ini data full) s = .next (s.busWrite ini A.HIF_EVQ_CFG data full)) ∧
    (∀ (ini : Initiator) (data : Word) (full : Bool), s.reaches ini → getBits data 31 1 = 1 →
     exec (.oneshotGo ini data full) s = .next (s.busWrite ini A.CAP_ONESHOT data full)) ∧
    (∀ (ini : Initiator) (data : Word) (full : Bool) (tick : Nat), s.reaches ini →
     exec (.jackAnswer ini data full tick) s = .next (
        s.rowWrite ini A.WDG_ANSWER data full fun _ s => s.keyBreak.jackAnswer (getBits data 0 16) tick)) ∧
    (∀ (ini : Initiator) (data : Word) (full : Bool), s.reaches ini → exec (.jackCheckin ini data full) s = .next (
        s.rowWrite ini A.WDG_CHECKIN data full fun was s => s.checkinWritten was data)) ∧
    (∀ (ini : Initiator) (data : Word) (full : Bool) (late : Bool), s.reaches ini →
     exec (.jackKey ini data full late) s = .next (
        s.rowWrite ini A.WDG_KEY data full fun _ s => s.jackKey (getBits data 0 16) late)) ∧
    (∀ (ini : Initiator) (data : Word) (full : Bool) (late : Bool), s.reaches ini → getBits data 31 1 = 1 →
     exec (.jackDisable ini data full late) s = .next (
        s.rowWrite ini A.WDG_CTRL data full fun was s => s.wdgCtrl was data late)) ∧
    (∀ (ini : Initiator) (data : Word) (full : Bool), s.reaches ini → getBits data 31 1 = 0 →
     exec (.jackEnable ini data full) s = .next (
        s.rowWrite ini A.WDG_CTRL data full fun was s => s.wdgCtrl was data false)) ∧
    (∀ (ini : Initiator) (data : Word) (full : Bool), s.reaches ini → getBits data 30 1 = 1 → getBits data 31 1 = 0 →
     exec (.jackLock ini data full) s = .next (s.rowWrite ini A.WDG_CTRL data full fun was s => s.wdgCtrl was data false)) ∧
    (∀ (ini : Initiator) (data : Word) (full : Bool), s.reaches ini → exec (.h2uPush ini data full) s = .next (
        s.rowWrite ini A.MBX_H2U_DATA data full fun _ s => if ini = .host then s.pushH2u data else s)) ∧
    (∀ (ini : Initiator) (data : Word) (full : Bool), s.reaches ini → exec (.u2hAckWrite ini data full) s = .next (
        s.rowWrite ini A.MBX_U2H_ACK data full fun was s => s.ackU2h ini was data)) ∧
    (∀ (ini : Initiator) (data : Word) (full : Bool), s.reaches ini → exec (.unitAckWrite ini data full) s = .next (
        s.rowWrite ini A.MBX_EC_STATUS data full fun was s => s.ecBoxWrite ini A.MBX_EC_STATUS was data)) ∧
    (∀ (ini : Initiator) (data : Word) (full : Bool), s.reaches ini → exec (.u2ecSend ini data full) s = .next (
        s.rowWrite ini A.MBX_U2EC data full fun was s => s.ecBoxWrite ini A.MBX_U2EC was data)) ∧
    (∀ (ini : Initiator) (n : Fin 16) (data : Word) (full : Bool), s.reaches ini →
     exec (.lockWrite ini n data full) s = .next (
        s.rowWrite ini (A.MBX_LOCK n) data full fun was s => s.lockWrite ini n was data)) ∧
    (∀ (ini : Initiator) (n : Fin 16) (data : Word) (full : Bool), s.reaches ini → getBits data 31 1 = 1 →
     ¬ (s.on (R.TMR_FT_CFG.EN n)) → exec (.ftEnable ini n data full) s = .next (
        s.rowWrite ini (A.TMR_FT_CFG n) data full fun was s => s.ftCfg n was data 0 true)) ∧
    (∀ (ini : Initiator) (n : Fin 16) (data : Word) (full : Bool) (count : Nat) (up : Bool), s.reaches ini →
     getBits data 31 1 = 0 → s.on (R.TMR_FT_CFG.EN n) → exec (.ftDisable ini n data full count up) s = .next (
        s.rowWrite ini (A.TMR_FT_CFG n) data full fun was s => s.ftCfg n was data count up)) ∧
    (∀ (ini : Initiator) (n : Fin 16) (data : Word) (full : Bool) (count : Nat) (up : Bool), s.reaches ini →
     getBits data 14 1 = 1 → getBits data 31 1 = s.get (R.TMR_FT_CFG.EN n) →
     exec (.ftCaptureNow ini n data full count up) s = .next (
        s.rowWrite ini (A.TMR_FT_CFG n) data full fun was s => s.ftCfg n was data count up)) ∧
    (∀ (ini : Initiator) (n : Fin 16) (data : Word) (full : Bool) (up : Bool), s.reaches ini →
     exec (.ftCntWrite ini n data full up) s = .next (
        s.rowWrite ini (A.TMR_FT_CNT n) data full fun _ s => s.cntWritten n up)) ∧
    (∀ (ini : Initiator) (n : Fin 16) (data : Word) (full : Bool) (count : Nat) (up : Bool), s.reaches ini →
     exec (.ftTopWrite ini n data full count up) s = .next (
        s.rowWrite ini (A.TMR_FT_TOP n) data full fun _ s => s.ftSync n count up)) ∧
    (∀ (ini : Initiator) (n : Fin 16) (k : Fin 2) (data : Word) (full : Bool) (count : Nat) (up : Bool) (frame : Nat),
     s.reaches ini → exec (.ftCmpWrite ini n k data full count up frame) s = .next (
        s.rowWrite ini (cmpVal n k).addr data full fun _ s => s.cmpWritten n k count up frame)) ∧
    (∀ (ini : Initiator) (n : Fin 8) (data : Word) (full : Bool), s.reaches ini →
     exec (.gpioCfgWrite ini n data full) s = .next (s.rowWrite ini (A.PIN_GPIO_CFG n) data full fun _ s => s))

/-- Register reads that have a row, and the crossing of posted writes. Where the conditions that the chapter sets for it hold
(on the state and the operands alone), each of these commands completes with exactly the next state written here: TS_LO_READ,
FT_CAPT_READ, H2U_ACK_READ, U2H_POP, LOCK_READ, EC2U_TAKE, AON_WRITE_CROSSED, AON_CMP_APPLY. -/
def Obligations.RegisterReads : Prop :=
  ∀ s : State, s.power = .on →
    (∀ (ini : Initiator), s.reaches ini → exec (.tsLoRead ini) s = .next (s.rowRead ini A.TMR_TS_LO)) ∧
    (∀ (ini : Initiator) (n : Fin 16), s.reaches ini → exec (.ftCaptRead ini n) s = .next (s.rowRead ini (A.TMR_FT_CAPT
        n))) ∧
    (∀ (ini : Initiator), s.reaches ini → exec (.h2uAckRead ini) s = .next (s.rowRead ini A.MBX_H2U_ACK)) ∧
    (∀ (ini : Initiator), s.reaches ini → exec (.u2hPop ini) s = .next (s.rowRead ini A.MBX_U2H_DATA)) ∧
    (∀ (ini : Initiator) (n : Fin 16), s.reaches ini → exec (.lockRead ini n) s = .next (s.rowRead ini (A.MBX_LOCK n))) ∧
    (s.reaches .application → exec .ec2uTake s = .next (s.rowRead .application A.MBX_EC2U)) ∧
    (∀ (frame : Nat), ¬ ((List.range 8).any fun (n : Nat) => s.aonFront = some (A.TMR_CMP_HI n)) →
     exec (.aonWriteCrossed frame) s = .next (s.crossAon frame)) ∧
    (∀ (n : Fin 8) (frame : Nat), s.aonFront = some (A.TMR_CMP_HI n) → exec (.aonCmpApply n frame) s = .next (
        s.crossAon frame))

/-- The host mailbox: each service takes its message and answers it. Where the conditions that the chapter sets for it hold
(on the state and the operands alone), each of these commands completes with exactly the next state written here:
MBX_MESSAGE_SERVE, ECHO, FW_INFO, LOG_ENTRY, DBG_UNLOCK, DBG_LOCK, RECOVER_WRITE, RECOVER_BOOT. -/
def Obligations.MailboxServices : Prop :=
  ∀ s : State, s.power = .on →
    ((s.fwRuns || s.fw.recovery) = true → exec .mbxMessageServe s = .next (
        match s.mbx.reply with
        | some r => s.answer r
        | none =>
          match s.message with
          | none => s
          | some m =>
            if !s.mayTake then s
            else if 15 < m.len then (s.setH2u []).answer { tag := m.tag, status := 0x12, words := [] }
            else if s.offered m.svc then s
            else (s.setH2u (s.mbx.h2u.drop (1 + m.len))).answer { tag := m.tag, status := 0x10, words := [] })) ∧
    (∀ (m : MbxMsg), s.message = some m → s.mayTake → s.offered 0x01 → m.svc = 0x01 → m.len ≤ 15 → exec .echo s = .next (
        let t := s.setH2u (s.mbx.h2u.drop (1 + m.len))
        t.answer { tag := m.tag, status := 0x00, words := replyWords 0x01 m.tag m.pay })) ∧
    (∀ (m : MbxMsg), s.message = some m → s.mayTake → s.offered 0x10 → m.svc = 0x10 → m.len = 0 → exec .fwInfo s = .next (
        let t := s.setH2u (s.mbx.h2u.drop (1 + m.len))
        let pay := [t.view A.SEC_FW_STATUS, t.view A.SEC_FW_VER0, t.view A.SEC_FW_VER1, t.view A.SEC_RB, t.view
            A.LOG_STATUS]
        t.answer { tag := m.tag, status := 0x00, words := replyWords 0x10 m.tag pay })) ∧
    (∀ (m : MbxMsg) (e : LogEntry), s.message = some m → s.mayTake → s.offered 0x11 → m.svc = 0x11 → m.len = 2 →
     (s.fw.log.find? fun (x : LogEntry) => x.lseq = (m.pay.getD 0 0).toNat) = some e → (m.pay.getD 1 0).toNat ≤ 1 →
     exec .logEntry s = .next (
        let t := s.setH2u (s.mbx.h2u.drop (1 + m.len))
        t.answer { tag := m.tag, status := 0x00, words := replyWords 0x11 m.tag (bytesWords e.bytes (32 * (m.pay.getD 1 0).toNat) 8) })) ∧
    (∀ (verifies : Bool) (m : MbxMsg), s.message = some m → s.mayTake → s.offered 0x12 → m.svc = 0x12 → m.len = 13 →
     (m.pay.getD 0 0).toNat ≤ 1 → exec (.dbgUnlock verifies) s = .next (
        let t := s.setH2u (s.mbx.h2u.drop (1 + m.len))
        if (m.pay.getD 0 0).toNat = 0 then
          { t with fw := { t.fw with unlock0 := true } }.answer { tag := m.tag, status := 0x00, words := [] }
        else
          let u := { t with fw := { t.fw with unlock0 := false } }.newNonce
          if s.fw.unlock0 && verifies && !s.fw.dbgFuse then
            ((u.set R.SEC_DBG_CTRL.DBG_EN 1).raiseFw 0x08 u.fw.record.bank (u.bank u.fw.record.bank).svn).answer
              { tag := m.tag, status := 0x00, words := [] }
          else u.answer { tag := m.tag, status := 0x50, words := [] })) ∧
    (∀ (m : MbxMsg), s.message = some m → s.mayTake → s.offered 0x13 → m.svc = 0x13 → m.len = 0 → exec .dbgLock s =
        .next (
        let t := s.setH2u (s.mbx.h2u.drop (1 + m.len))
        t.debugOff.answer { tag := m.tag, status := 0x00, words := [] })) ∧
    (∀ (m : MbxMsg), s.message = some m → s.mayTake → s.offered 0x30 → m.svc = 0x30 → m.len = 15 → s.fw.recovery →
     (m.pay.getD 0 0).toNat % 56 = 0 → (m.pay.getD 0 0).toNat < 786432 → exec .recoverWrite s = .next (
        let t := s.setH2u (s.mbx.h2u.drop (1 + m.len))
        (t.setBank 0 {}).answer { tag := m.tag, status := 0x00, words := [] })) ∧
    (∀ (img : ImageCheck) (m : MbxMsg), s.message = some m → s.mayTake → s.offered 0x31 → m.svc = 0x31 → m.len = 0 →
     s.fw.recovery → exec (.recoverBoot img) s = .next (
        let t := s.setH2u (s.mbx.h2u.drop (1 + m.len))
        let b := t.setBank 0 (t.bankOf img)
        if (b.bank 0).valid then b.leaveRecovery.answer { tag := m.tag, status := 0x00, words := [] }
        else b.answer { tag := m.tag, status := 0x50, words := [] }))

/-- Two-wire bus: ARP, addresses, alerts, notifications, time-outs. Where the conditions that the chapter sets for it hold
(on the state and the operands alone), each of these commands completes with exactly the next state written here:
ARP_PREPARE, ARP_RESET_DEVICE, ARP_GET_UDID, ARP_GET_UDID_DIRECTED, ARP_ASSIGN_ADDRESS, MASTER_ASSIGN_START, ASSIGN_RETRY,
SELF_ASSIGN, TWB_KA_ADDRESS_MATCH, TWB_WRITE_APPLIED, ALERT_RESPONSE, HOST_NOTIFY, HOST_NOTIFY_RETRY, SCL_TIMEOUT,
SDA_TIMEOUT, SDA_STUCK. -/
def Obligations.TwoWireArp : Prop :=
  ∀ s : State, s.power = .on →
    (∀ (pec : Pec), s.sysRuns → exec (.arpPrepare pec) s = .next (s.arp pec fun s => s.set R.TWB_ADDR.AR 0)) ∧
    (∀ (directed : Option (Fin 128)) (pec : Pec), s.sysRuns → exec (.arpResetDevice directed pec) s = .next (
        s.arp pec fun s =>
          match directed with
          | none => s.set R.TWB_ADDR.AR 0
          | some a => if s.native a then s.set R.TWB_ADDR.AR 0 else s)) ∧
    (∀ (won : Bool), s.sysRuns → exec (.arpGetUdid won) s = .next (
        let s := s.set R.TWB_ADDR.EC_ARP 1
        if won && !s.on R.TWB_ADDR.AR then s.emit (.reply (s.udid ++ leBytes 1 s.addrByte)) else s)) ∧
    (∀ (addr : Fin 128), s.sysRuns → exec (.arpGetUdidDirected addr) s = .next (
        let s := s.set R.TWB_ADDR.EC_ARP 1
        if s.native addr then s.emit (.reply (s.udid ++ leBytes 1 s.addrByte)) else s)) ∧
    (∀ (udid : List Byte) (addr : Fin 128) (pec : Pec) (otherCompat : Bool), s.sysRuns →
     exec (.arpAssignAddress udid addr pec otherCompat) s = .next (
        s.arp pec fun s =>
          if udid != s.udid then s
          else if reservedAddr addr (s.on R.MOD_STRAP.COMPAT || otherCompat) then
            ((s.set R.TWB_ADDR.AR 1).set R.TWB_EVENT.ADDR_REJECT 1).raiseFault 0x09 0x5 0xFF 0
          else s.takeAddr addr 2)) ∧
    (s.md.boot = .ready → s.assigns → ¬ (s.on R.TWB_ADDR.EC_ARP) → s.on R.TWB_CFG.ARP_AUTO → s.sysRuns →
     exec .masterAssignStart s = .next (
        let s := s.takeAddr 0x6A 1
        let s := { s with twb := { s.twb with assigning := true, tries := Vector.replicate 4 0 } }
        ((s.sendAssign 1).sendAssign 2).sendAssign 3)) ∧
    (∀ (u : Fin 4), s.mayAssign → s.twb.tries.get u < 3 → exec (.assignRetry u) s = .next (
        { s with twb := { s.twb with tries := s.twb.tries.set u (s.twb.tries.get u + 1) } }.sendAssign u)) ∧
    (s.isFollower → s.md.boot = .ready → ¬ (s.on R.TWB_ADDR.AV) → s.get R.CSC_STATUS.STATE ≠ 2 →
     ¬ (s.on R.TWB_ADDR.EC_ARP) → exec .selfAssign s = .next (s.takeAddr (s.addrOf (s.get R.MOD_STRAP.IDX)) 3)) ∧
    (∀ (addr : Fin 128), s.inKa → s.recognises addr → exec (.twbKaAddressMatch addr) s = .next (
        let refused : Bool := s.native addr || (addr = 0x6B && s.on R.TWB_ADDR.COMPAT)
        (s.ifDo refused fun s => s.bump R.TWB_STATS.NACK_BUSY).wakeUp true false)) ∧
    (exec .twbWriteApplied s = .next ({ s with twb := { s.twb with applying := false } })) ∧
    (∀ (won : Bool), s.on R.TWB_STATUS.ALERT → s.on R.TWB_ADDR.AV → s.sysRuns → won → exec (.alertResponse won) s =
        .next (
        let s := s.emit (.reply (leBytes 1 (2 * s.get R.TWB_ADDR.ADDR)))
        { s with twb := { s.twb with released := true } }.refreshAlert)) ∧
    (∀ (r : NotifyEnd), s.mayNotify → s.twb.notifyTry = 0 → exec (.hostNotify r) s = .next (s.notifyTry r)) ∧
    (∀ (r : NotifyEnd), s.mayNotify → s.twb.notifyTry ≠ 0 → exec (.hostNotifyRetry r) s = .next (s.notifyTry r)) ∧
    (∀ (inNotify : Bool), s.sysRuns → exec (.sclTimeout inNotify) s = .next (
        let s := (s.set R.TWB_EVENT.SCL_TO 1).raiseFault 0x09 0x1 0xFF 0
        if inNotify && s.twb.notifyDue then s.notifyFailed else s)) ∧
    (s.sysRuns → exec .sdaTimeout s = .next ((s.set R.TWB_EVENT.SDA_TO 1).raiseFault 0x09 0x2 0xFF 0)) ∧
    (s.sysRuns → exec .sdaStuck s = .next (
        { (s.set R.TWB_EVENT.STUCK 1) with twb := { s.twb with clockOut := true } }.raiseFault 0x09 0x3 0xFF 0))

/-- Two-wire bus: the native command codes and the compatibility file. Where the conditions that the chapter sets for it hold
(on the state and the operands alone), each of these commands completes with exactly the next state written here: TWB_STATUS,
EVENT_SUMMARY, EVENT_ACK, LAST_RESULT, LAST_EVENT, REG_READ, REG_WRITE, CMD_SUBMIT, CPL_READ, CPL_POP, RESULT_LO, RESULT_HI,
MBX_READ, MBX_WRITE, MBX_ACK_WRITE, MBX_ACK_READ, COMPAT_WRITE, COMPAT_READ. -/
def Obligations.TwoWireCodes : Prop :=
  ∀ s : State, s.power = .on →
    (s.on R.TWB_ADDR.AV → s.sysRuns → ¬ s.busyNack → exec .twbStatus s = .next (s.emit (.reply (leBytes 2 s.statusWord)))) ∧
    (s.on R.TWB_ADDR.AV → s.sysRuns → ¬ s.busyNack → exec .eventSummary s = .next (
        s.emit (.reply (leBytes 2 (s.get R.TWB_STATUS.PENDING))))) ∧
    (∀ (w : TwiWrite), s.on R.TWB_ADDR.AV → s.sysRuns → (¬ s.busyNack ∨ w.lost) → s.writeFlaw false 2 w = none →
     exec (.eventAck w) s = .next (
        let r : Nat × State := ((0x00, s.clearPending (ofLe w.data % 16384)))
        let t := r.2.setLast 0x02 r.1
        { t with twb := { t.twb with applying := true } })) ∧
    (s.on R.TWB_ADDR.AV → s.sysRuns → ¬ s.busyNack → exec .lastResult s = .next (
        s.emit (.reply (leBytes 1 (s.get R.TWB_LAST.RESULT) ++ leBytes 1 (s.get R.TWB_LAST.CODE))))) ∧
    (∀ (typ : Nat), s.on R.TWB_ADDR.AV → s.sysRuns → ¬ s.busyNack → exec (.lastEvent 1 typ) s = .next (
        s.emit (.reply (s.lastEvent typ)))) ∧
    (∀ (addr : Nat), s.on R.TWB_ADDR.AV → s.sysRuns → ¬ s.busyNack → exec (.regRead 2 addr) s = .next (
        let st := match s.refusal .ec (busAddr .ec addr) false true with
          | none => 0x00
          | some _ => 0x11
        let r := s.read .ec addr
        r.2.emit (.reply (leBytes 1 st ++ leBytes 4 r.1.toNat)))) ∧
    (∀ (w : TwiWrite), s.on R.TWB_ADDR.AV → s.sysRuns → (¬ s.busyNack ∨ w.lost) → s.writeFlaw true 6 w = none →
     exec (.regWrite w) s = .next (
        let r : Nat × State := (
            let r := s.access .ec (leAt w.data 0 2) (BitVec.ofNat 32 (leAt w.data 2 4)) 0xFFFFFFFF
            (writeStatus r.1, r.2))
        let t := r.2.setLast 0x09 r.1
        { t with twb := { t.twb with applying := true } })) ∧
    (∀ (w : TwiWrite), s.on R.TWB_ADDR.AV → s.sysRuns → (¬ s.busyNack ∨ w.lost) → s.writeFlaw true 64 w = none →
     exec (.cmdSubmit w) s = .next (
        let r : Nat × State := (s.submitEc w.data)
        let t := r.2.setLast 0x10 r.1
        { t with twb := { t.twb with applying := true } })) ∧
    (s.on R.TWB_ADDR.AV → s.sysRuns → ¬ s.busyNack → exec .cplRead s = .next (
        s.emit (.reply (match s.twb.cpls with
          | [] => List.replicate 16 0xFF
          | c :: _ => c.cpl)))) ∧
    (∀ (w : TwiWrite), s.on R.TWB_ADDR.AV → s.sysRuns → (¬ s.busyNack ∨ w.lost) → s.writeFlaw false 0 w = none →
     exec (.cplPop w) s = .next (
        let r : Nat × State := ((0x00, s.popEc))
        let t := r.2.setLast 0x12 r.1
        { t with twb := { t.twb with applying := false } })) ∧
    (s.on R.TWB_ADDR.AV → s.sysRuns → ¬ s.busyNack → exec .resultLo s = .next (
        let r := s.resultPart 0
        r.2.emit (.reply r.1))) ∧
    (s.on R.TWB_ADDR.AV → s.sysRuns → ¬ s.busyNack → exec .resultHi s = .next (
        let r := s.resultPart 128
        r.2.emit (.reply r.1))) ∧
    (s.on R.TWB_ADDR.AV → s.sysRuns → ¬ s.busyNack → exec .mbxRead s = .next (
        s.ecTakes.emit (.reply (leBytes 4 s.ecWord.toNat)))) ∧
    (∀ (w : TwiWrite), s.on R.TWB_ADDR.AV → s.sysRuns → (¬ s.busyNack ∨ w.lost) → s.writeFlaw true 4 w = none →
     exec (.mbxWrite w) s = .next (
        let r : Nat × State := (
            let r := s.ecSends (BitVec.ofNat 32 (ofLe w.data))
            (if r.2 then 0x00 else 0x30, r.1))
        let t := r.2.setLast 0x19 r.1
        { t with twb := { t.twb with applying := true } })) ∧
    (∀ (w : TwiWrite), s.on R.TWB_ADDR.AV → s.sysRuns → (¬ s.busyNack ∨ w.lost) → s.writeFlaw false 1 w = none →
     exec (.mbxAckWrite w) s = .next (
        let r : Nat × State := ((0x00, s.ecAcks (ofLe w.data)))
        let t := r.2.setLast 0x1A r.1
        { t with twb := { t.twb with applying := true } })) ∧
    (s.on R.TWB_ADDR.AV → s.sysRuns → ¬ s.busyNack → exec .mbxAckRead s = .next (
        s.emit (.reply (leBytes 1 (s.get R.MBX_EC_STATUS.UNIT_ACK))))) ∧
    (∀ (data : List Byte) (lost : Bool), s.on R.TWB_ADDR.COMPAT → s.sysRuns → (¬ s.busyNack ∨ lost) →
     exec (.compatWrite data lost) s = .next (
        match data with
        | [] => s
        | b :: bs => if lost then s else { s with twb := { s.twb with ptr := b.toNat % 64 } }.compatBytes none bs)) ∧
    (∀ (n : Nat), s.on R.TWB_ADDR.COMPAT → s.sysRuns → ¬ s.busyNack → exec (.compatRead n) s = .next (
        let file := s.compatFile
        let p := s.twb.ptr
        let bs := (List.range n).map fun (k : Nat) => file.getD ((p + k) % 64) 0
        { s with twb := { s.twb with ptr := (p + n) % 64 } }.emit (.reply bs)))

/-- Cascade: members, frames, clashes, synchronization, sleep. Where the conditions that the chapter sets for it hold (on the
state and the operands alone), each of these commands completes with exactly the next state written here: FOLLOWER_REMOVE,
FOLLOWER_READMIT, LOCAL_FALLBACK_ENTER, LOCAL_FALLBACK_LEAVE, CSC_FRAME_START, CSC_DISCOVERY_END, CSC_SLOT_RX, TWO_MASTERS,
INDEX_CLASH, SYNC_LOCK, SYNC_LOST, PAR_CFG_APPLY, CSC_SLEEP_ENTER, CSC_WAKE_BURST, CSC_WAKE_NO_MASTER, TUNNEL_TIMEOUT. -/
def Obligations.CascadeMoves : Prop :=
  ∀ s : State, s.power = .on →
    (∀ (u : Fin 4), s.member u → 3 ≤ (s.peer u).silent → ¬ s.quietOk → exec (.followerRemove u) s = .next
        (s.removeMember u)) ∧
    (∀ (u : Fin 4) (addressed : Bool), s.get R.CSC_STATUS.STATE = 1 → u ≠ 0 → ¬ (s.member u) → 16 ≤ (s.peer u).good →
     (s.bit R.CSC_CFG.EXPECT u || s.on R.CSC_STATUS.DISCOVERY) → ¬ (s.bit R.CSC_STATUS.EXCLUDED u) →
     exec (.followerReadmit u addressed) s = .next (
        let s := (s.setBit R.BGT_STATUS.MEMBERS u true).raiseCascade u 0x01
        if addressed then s else s.sendAssign u)) ∧
    (s.isFollower → s.on R.CSC_CFG.LINK_EN → s.sysRuns → s.md.boot = .ready → ¬ s.quietOk →
     (s.get R.CSC_STATUS.STATE = 0 || (s.follows && 3 ≤ (s.peer 0).silent)) → exec .localFallbackEnter s = .next (
        s.enterFallback)) ∧
    (s.get R.CSC_STATUS.STATE = 3 → ¬ s.csc.barred → 16 ≤ (s.peer 0).good → exec .localFallbackLeave s = .next (
        s.joinMaster.raiseCascade s.idx 0x04)) ∧
    (∀ (own : Nat × Nat × Nat), s.isMaster → s.md.boot = .ready → s.sysRuns → ¬ s.csc.barred →
     exec (.cscFrameStart own) s = .next (
        if !s.linkWanted then s.ifDo (s.get R.CSC_STATUS.STATE = 1) State.stopLink
        else
          let s := (s.set R.CSC_STATUS.STATE 1).setCscClock true
          let s := (s.setFrame (s.get R.CSC_STATUS.FRAME + 1)).ageTunnel
          let s := s.modCsc fun c => { c with sleepN := c.sleepN.map (· + 1), waking := c.waking - 1 }
          (s.ownSummary own).sendSlot (some s.masterPart) none)) ∧
    (s.on R.CSC_STATUS.DISCOVERY → exec .cscDiscoveryEnd s = .next (
        let s := s.set R.CSC_STATUS.DISCOVERY 0
        let s := if s.get R.CSC_CFG.EXPECT = 0 then s.set R.CSC_CFG.EXPECT (setBitAt s.csc.heardWin 0) else s
        let s := s.raiseCascade s.idx 0x08
        if s.get R.CSC_CFG.EXPECT = 1 then s.stopLink else s)) ∧
    (∀ (u : Fin 4) (x : SlotIn) (own : Nat × Nat × Nat), s.cscRuns → u ≠ s.idx →
     (s.isFollower || s.get R.CSC_STATUS.STATE = 1) → exec (.cscSlotRx u x own) s = .next (
        if !s.on R.CSC_CFG.LINK_EN then (if s.isFollower && u = 0 then s.agentOff else s)
        else
          let s := s.ifDo (s.isFollower && u = 0) fun s => s.ageTunnel
          match x with
          | .silent => s.slotMissed u false false
          | .bad e => s.slotMissed u true e
          | .good y => s.slotGood u y own)) ∧
    (s.isMaster → s.get R.CSC_STATUS.STATE = 1 → exec .twoMasters s = .next (
        let s := (s.modCsc fun c => { c with barred := true }).stopLink
        (s.set R.CSC_EVENT.TWO_MASTERS 1).raiseFault 0x0A 0x1 s.idx 0)) ∧
    (∀ (u : Fin 4), s.get R.CSC_STATUS.STATE = 1 → u ≠ 0 → 3 ≤ (s.peer u).clash → ¬ (s.bit R.CSC_STATUS.EXCLUDED u) →
     exec (.indexClash u) s = .next (
        let s := ((s.setBit R.CSC_STATUS.EXCLUDED u true).set R.CSC_EVENT.INDEX_CLASH 1).raiseFault 0x0A 0x2 u 0
        (s.dropMember u).voidTunnel u)) ∧
    (∀ (half : Nat), s.locks → ¬ (s.on R.CSC_STATUS.SYNC_LOCK) → s.sysRuns → exec (.syncLock half) s = .next (
        let s := s.modCsc fun c => { c with syncHalf := half }
        (s.set R.CSC_STATUS.SYNC_LOCK 1).raiseCascade s.idx 0x05)) ∧
    (s.locks → s.on R.CSC_STATUS.SYNC_LOCK → exec .syncLost s = .next (
        let s := (s.set R.CSC_STATUS.SYNC_LOCK 0).set R.CSC_EVENT.SYNC_LOST 1
        (s.raiseFault 0x0A 0x3 s.idx 0).raiseCascade s.idx 0x06)) ∧
    (∀ w, s.csc.parHeld = some w → exec .parCfgApply s = .next (
        if s.parEmpty (s.word A.CSC_PAR_CFG) && s.parEmpty w then
          (s.setWord A.CSC_PAR_CFG w).modCsc fun c => { c with parHeld := none, parN := 0 }
        else s)) ∧
    (∀ n, s.csc.sleepN = some n → 3 ≤ n → exec .cscSleepEnter s = .next (
        if s.csc.refused then
          if s.isFollower then s.modCsc fun c => { c with sleepN := none, refused := false } else s.abandonKa
        else if s.isFollower then s.ifDo s.kaOk fun s => s.enterKa 0x00
        else if s.kaOk then s.enterKa s.md.kaCause
        else s.abandonKa)) ∧
    (s.inKa → s.multi → exec .cscWakeBurst s = .next (s.wakeUp true true)) ∧
    (s.follows → ¬ s.inKa → s.csc.waking ≠ 0 → exec .cscWakeNoMaster s = .next (s.enterFallback)) ∧
    (∀ q, (s.csc.queue.find? fun (x : TunReq) => 5 ≤ x.sent.getD 0) = some q → exec .tunnelTimeout s = .next (
        ((s.modQueue fun qs => qs.filter fun (x : TunReq) => x.handle != q.handle).set R.CSC_EVENT.TUN_TO 1).complete
            q.handle
          { status := 0x32 }))

/-- Clocks and the boot sequence. Where the conditions that the chapter sets for it hold (on the state and the operands
alone), each of these commands completes with exactly the next state written here: XTAL_SWITCH_OVER, XTAL_FAIL, FLL_LOCK,
PLL_LOCK, PLL_UNLOCK, PLL_LOCK_RETRY, REFCLK_LOSS, STRAP_LATCH, CONFIG_IMAGE_APPLY, POWER_STAGE_ENABLE, BAR0_READY,
DB_ATTACH, VSYS_MIN_REACHED. -/
def Obligations.ClocksAndBoot : Prop :=
  ∀ s : State, s.power = .on →
    (¬ s.xtalBad → exec .xtalSwitchOver s = .next (s.set R.GLB_CLK_STATUS.XTAL_ACTIVE 1)) ∧
    (s.on R.GLB_CLK_STATUS.XTAL_ACTIVE → exec .xtalFail s = .next (
        let s := { s.set R.GLB_CLK_STATUS.XTAL_ACTIVE 0 with xtalBad := true }
        (s.set R.GLB_CLK_EVENT.XTAL_FAIL 1).raiseFault 0x05 0x1 0xFF 0)) ∧
    (bitAt (s.get R.GLB_CLK_STATUS.RUN) 2 → exec .fllLock s = .next (s.set R.GLB_CLK_STATUS.FLL_LOCK 1)) ∧
    (s.md.boot = .strapped → exec .pllLock s = .next (
        let s := { s with md := { s.md with boot := .clocked } }.set R.GLB_CLK_STATUS.PLL_LOCK 1
        let s := s.set R.GLB_CLK_STATUS.RUN (s.get R.GLB_CLK_STATUS.RUN ||| (if s.csc.barred then 0x108 else 0x308))
        s.eachPort allPorts fun s p => s.setTerm p .rd)) ∧
    (s.on R.GLB_CLK_STATUS.PLL_LOCK → exec .pllUnlock s = .next (
        let s := (s.set R.GLB_CLK_STATUS.PLL_LOCK 0).set R.GLB_CLK_STATUS.PLL_HOLDOVER 1
        (s.set R.GLB_CLK_EVENT.PLL_UNLOCK 1).raiseFault 0x05 0x2 0xFF 0)) ∧
    (∀ (locked : Bool), s.on R.GLB_CLK_STATUS.PLL_HOLDOVER → locked → exec (.pllLockRetry locked) s = .next (
        (s.set R.GLB_CLK_STATUS.PLL_LOCK 1).set R.GLB_CLK_STATUS.PLL_HOLDOVER 0)) ∧
    (s.hif.linkUp → s.on R.HIF_STATUS.L0 → exec .refclkLoss s = .next (
        ((s.linkDown false).hostReset.set R.GLB_CLK_EVENT.REFCLK_LOSS 1).raiseFault 0x05 0x3 0xFF 0)) ∧
    (∀ (r : StrapReading), s.md.boot = .released → exec (.strapLatch r) s = .next (
        let s := { s with md := { s.md with boot := .strapped } }.set R.GLB_CLK_STATUS.RUN 7
        let s := (s.showStraps r).loadStraps.packAtBoot.phaseAtBoot
        let s := s.eachPort allPorts fun s p => if s.bit R.MOD_STRAP.DB p then s.setTerm p .rd else s
        if s.on R.MOD_STRAP.STRAP_ERR then s.raiseFault 0x06 0x1 0xFF 0 else s)) ∧
    (s.md.boot = .running → exec .configImageApply s = .next (
        let s := { s with md := { s.md with boot := .configured } }
        let slot := s.cfgSlot s.fw.record.slot
        if slot.valid then (s.set R.SEC_CFG_STATUS.VALID 1).applyRecords 0 slot.records
        else s.goAlone.raiseFault 0x06 0x2 0xFF 0)) ∧
    (s.md.boot = .configured → exec .powerStageEnable s = .next (
        let s := { s with md := { s.md with boot := .staged } }.set R.CNV_STATUS.STAGE_EN 1
        let s := s.takeRoles
        let s := match s.md.dbPort with
          | some p => s.dbConnect p
          | none => s
        let s := s.autoSelect
        if s.md.dbHold || s.md.lowBoot then s else s.bootGroup)) ∧
    (s.md.boot = .staged → exec .bar0Ready s = .next
        ({ s with md := { s.md with boot := .ready, bar0 := true } }.cscBoot)) ∧
    (∀ (p : Fin 4) (cc2 : Bool) (level : Fin 3), s.on R.MOD_MODE_STATUS.DB_START → s.md.dbPort.isNone → s.pdRuns →
     s.bit R.MOD_STRAP.DB p → 4000 ≤ s.get (R.PD_VBUS_MEAS.VBUS p) → (s.tcState p = 2 || s.tcState p = 3) →
     exec (.dbAttach p cc2 level) s = .next (
        let s := { s with md := { s.md with dbPort := some p } }
        let s := (s.setb (R.PD_CC_STATUS.POLARITY p) cc2).set (R.PD_CC_STATUS.PARTNER p) (level + 1)
        let s := s.attachSink p
        if s.on R.CNV_STATUS.STAGE_EN then s.dbConnect p else s)) ∧
    (∀ (vsys : Nat), (s.md.dbHold || s.md.lowBoot) → s.anySink → s.get R.MOD_VSYS_CFG.VSYS_MIN ≤ vsys →
     exec (.vsysMinReached vsys) s = .next (
        let s := { s.setSat R.MOD_VSYS_STATUS.VSYS vsys with md := { s.md with dbHold := false, lowBoot := false } }
        s.restoreBat.startCycle.bootGroup))

/-- Modes, KEEP-ALIVE and SAFE. Where the conditions that the chapter sets for it hold (on the state and the operands alone),
each of these commands completes with exactly the next state written here: MODE_EVALUATE, HYB_DWELL_EXPIRY,
KA_ENTRY_DELAY_EXPIRY, KA_WAKE, KA_IDLE_EXPIRY, KA_SCAN, KA_VBAT_CHECK, VSYS_OVP_TRIP, PAIR_STUCK_ON, BATFET_STUCK_ON. -/
def Obligations.ModesAndSafe : Prop :=
  ∀ s : State, s.power = .on →
    (∀ (ibat : Int), s.powered → s.on R.CNV_STATUS.STAGE_EN → exec (.modeEvaluate ibat) s = .next (
        let s := s.seti R.MOD_BAT_MEAS.IBAT (ibat / 2)
        if s.inSafe then s
        else
          let neg : Bool := ibat < 0
          let m := s.pathMode neg
          let s := { s with md := { s.md with dwell := m = 4 && !neg, packLow := s.md.packLow && m = 2 } }
          s.setMode m 0x00)) ∧
    (s.mode = 4 → s.md.dwell → exec .hybDwellExpiry s = .next ({ s with md := { s.md with dwell := false } }.setMode 3
        0x00)) ∧
    (s.md.entry = .ka → s.csc.sleepN.isNone → exec .kaEntryDelayExpiry s = .next (s.kaGo s.md.kaCause)) ∧
    (∀ (src : WakeSource), exec (.kaWake src) s = .next (s.wakeUp (wakeReturns src) (src = .burst))) ∧
    (s.md.kaReturn → ¬ s.isFollower → s.md.entry = .none → s.kaOk → exec .kaIdleExpiry s = .next (s.kaGo 0x00)) ∧
    (∀ (p : Fin 4) (found : Bool), s.inKa → found → s.get (R.PD_TC_CFG.ROLE p) ≠ 0 → ¬ (s.on (R.PD_CTRL.DISABLE p)) →
     exec (.kaScan p found) s = .next (s.wakeUp false false)) ∧
    (∀ (vbat : Nat), s.inKa → exec (.kaVbatCheck vbat) s = .next (
        let s := s.setSat R.MOD_BAT_MEAS.VBAT vbat
        if vbat < s.cutoff then (s.wakeUp false false).packGoesLow else s)) ∧
    (∀ (vsys : Nat), s.powered → s.get R.MOD_SAFE_CFG.VSYS_OVP < vsys → ¬ (s.safeHas 3) → exec (.vsysOvpTrip vsys) s =
        .next (
        (s.setSat R.MOD_VSYS_STATUS.VSYS vsys).safeEnter 3)) ∧
    (s.powered → (s.pairsOpen 0 || s.pairsOpen 1) → ¬ (s.safeHas 4) → exec .pairStuckOn s = .next (s.safeEnter 4)) ∧
    (∀ (ibat : Int), s.powered → s.bat = batOff → 200 ≤ ibat.natAbs → ¬ (s.safeHas 5) → exec (.batfetStuckOn ibat) s =
        .next (
        (s.seti R.MOD_BAT_MEAS.IBAT (ibat / 2)).safeEnter 5))

/-- SHIP, the pack's cutoff and the power button. Where the conditions that the chapter sets for it hold (on the state and
the operands alone), each of these commands completes with exactly the next state written here: SHIP_DELAY_EXPIRY,
SHIP_RAILS_OFF, SHIP_ENTER, SHIP_ABANDON, PACK_LOW, PACK_CUTOFF_EXPIRY, PWRBTN_SHORT_PRESS, PWRBTN_ARM, LONG_PRESS,
LONG_PRESS_STAGE_OFF, LONG_PRESS_POR. -/
def Obligations.ShipAndButtons : Prop :=
  ∀ s : State, s.power = .on →
    (s.md.entry = .ship → exec .shipDelayExpiry s = .next (s.shipDown)) ∧
    (s.md.entry = .shipDown → ¬ s.downRuns → exec .shipRailsOff s = .next (
        let s := s.pend .shipOff
        if s.fwRuns then s.writeLog { typ := 0x80, seq := 0, ts := s.tsNow, payload := s.retained } else s)) ∧
    (s.md.entry = .shipOff → exec .shipEnter s = .next (
        let straps := s.word A.MOD_STRAP
        { (s.porReset.setWord A.MOD_STRAP straps).set R.MOD_MODE_STATUS.MODE 0 with power := .off })) ∧
    (∀ (p : Fin 4), (s.md.entry = .ship || s.md.entry = .shipDown || s.md.entry = .shipOff) →
     exec (.shipAbandon p) s = .next (
        let s := { s with md := { s.md with entry := .none } }.set R.MOD_MODE_STATUS.ENTRY_PENDING 0
        let s := s.setSat (R.PD_VBUS_MEAS.VBUS p) (max 4000 (s.get (R.PD_VBUS_MEAS.VBUS p)))
        s.keepRails.raiseMode s.mode s.mode 0x02)) ∧
    (∀ (vbat : Nat), s.mode = 2 → s.md.boot = .ready → exec (.packLow vbat) s = .next (
        let s := s.setSat R.MOD_BAT_MEAS.VBAT vbat
        if vbat < s.cutoff then s.packGoesLow else { s with md := { s.md with packLow := false } })) ∧
    (∀ (vbat : Nat), s.mode = 2 → s.md.packLow → ¬ s.anyAttached → s.md.longPress = 0 →
     (s.md.entry = .none || s.md.entry = .ka) → exec (.packCutoffExpiry vbat) s = .next (
        let s := s.setSat R.MOD_BAT_MEAS.VBAT vbat
        if vbat < s.cutoff then (s.abandonKa.raiseMode 2 0 0x03).shipDown
        else { s with md := { s.md with packLow := false } })) ∧
    (s.md.btnArmed → s.md.longPress = 0 → exec .pwrbtnShortPress s = .next (
        let s := s.wakeUp false false
        if s.pressActs then s.platformOn [] else s.setPending 0)) ∧
    (exec .pwrbtnArm s = .next ({ s with md := { s.md with btnArmed := true } })) ∧
    (s.md.btnArmed → exec .longPress s = .next ((s.wakeUp false false).longPressStart)) ∧
    (s.md.longPress = 1 → exec .longPressStageOff s = .next (
        let s := ((s.openBus 0).openBus 1).modCsc fun c => { c with parRun := false }
        let s := s.endCycle.zeroCharge
        let s := if s.charging || s.get R.CHG_STATUS.PHASE = 8 then s.setChgPhase 2 else s
        { s.set R.MOD_BATFET_STATUS.STATE batOff with md := { s.md with longPress := 2 }, path := { s.path with fastOn := false } })) ∧
    (s.md.longPress = 2 → exec .longPressPor s = .next (s.porReset))

/-- Budget commands. Where the conditions that the chapter sets for it hold (on the state and the operands alone), each of
these commands completes with exactly the next state written here: BUDGET_INTENT, BUDGET_SET_POLICY. -/
def Obligations.BudgetCommands : Prop :=
  ∀ s : State, s.power = .on →
    (∀ (c : Cmd) k, s.nextCmd = some c → c.opcode = 0x10 →
     (if c.num 4 8 = 0 then s.ts else c.num 4 8) ≤ s.ts + tsSec 60 →
     s.ts < (if c.num 4 8 = 0 then s.ts else c.num 4 8) + tsUs (clampTo 10 10000000 (c.num 12 4)).1 → ¬ s.noMaster →
     s.freeSlot = some k → exec .budgetIntent s = .next (
        let dP := (clampTo 1000 500000 (c.num 0 4)).1
        let dur := (clampTo 10 10000000 (c.num 12 4)).1
        let t0 := if c.num 4 8 = 0 then s.ts else c.num 4 8
        let r := (s.markStarted c.handle).addIntent (Fin.ofNat 8 k) dP t0 (t0 + tsUs dur) (s.get R.MOD_STRAP.IDX)
        let csc := { r.2.csc with forward := r.2.csc.forward ++ [{ dP := dP, start := t0, dur := dur }] }
        let t := if r.2.follows then { r.2 with csc := csc } else r.2
        t.complete c.handle (clampReply (clamps [(0, c.num 0 4, 1000, 500000), (12, c.num 12 4, 10, 10000000)]) r.1))) ∧
    (∀ (c : Cmd), s.nextCmd = some c → c.opcode = 0x12 → exec .budgetSetPolicy s = .next (
        let u := s.markStarted c.handle
        let w := ({ u with bgt := { u.bgt with policies := u.bgt.policies ++ [(c.handle, c.params)] } } : State)
        w.settle w.cmds.length))

/-- Charger and path commands. Where the conditions that the chapter sets for it hold (on the state and the operands alone),
each of these commands completes with exactly the next state written here: CHARGE_PROFILE_LOAD, CHARGE_START, CHARGE_STOP,
CHARGE_RESTART_AFTER_FAULT, ESTIMATOR_READ, ESTIMATOR_RESET, INPUT_SELECT, PHASE_MAP_SET, SENSOR_REINSTATE, SELF_TEST. -/
def Obligations.ChargerCommands : Prop :=
  ∀ s : State, s.power = .on →
    (∀ (c : Cmd), s.nextCmd = some c → c.opcode = 0x20 → ¬ bitAt (c.byte 1) 0 → exec .chargeProfileLoad s = .next (
        let u := s.markStarted c.handle
        let old := if c.src = .ec then s.chg.bufEc else s.chg.bufHost
        let buf : ProfileBuf := if c.byte 0 = 0 then {} else old
        let b := sliceBytes buf.bytes 0 (32 * c.byte 0) ++ sliceBytes c.params 4 32 ++ buf.bytes.drop (32 * c.byte 0 + 32)
        let buf : ProfileBuf := { bytes := b, sections := setBitAt buf.sections (c.byte 0) }
        let t := if c.src = .ec then { u with chg := { u.chg with bufEc := buf } } else
            { u with chg := { u.chg with bufHost := buf } }
        t.complete c.handle { status := 0x00 })) ∧
    (∀ (c : Cmd), s.nextCmd = some c → c.opcode = 0x21 → s.get R.CHG_STATUS.PHASE ≠ 9 → s.get R.CHG_STATUS.PHASE ≠ 0 →
     s.get R.CHG_STATUS.PHASE ≠ 1 → exec .chargeStart s = .next (
        (((s.markStarted c.handle).set R.CHG_STATUS.STOPPED 0).startCycle).complete c.handle { status := 0x00 })) ∧
    (∀ (c : Cmd), s.nextCmd = some c → c.opcode = 0x22 → exec .chargeStop s = .next (
        let t := ((s.markStarted c.handle).set R.CHG_STATUS.STOPPED 1).endCycle.zeroCharge
        (if t.charging ∨ t.get R.CHG_STATUS.PHASE = 8 ∨ t.get R.CHG_STATUS.PHASE = 7 then t.setChgPhase 2 else
            t).complete c.handle { status := 0x00 })) ∧
    (∀ (c : Cmd), s.nextCmd = some c → c.opcode = 0x23 → s.get R.CHG_STATUS.PHASE = 9 → ¬ s.on R.CHG_COV_STATUS.LATCH →
     s.get R.CHG_STATUS.FAULT ≠ 4 → exec .chargeRestartAfterFault s = .next (
        (((((s.markStarted c.handle).set R.CHG_STATUS.FAULT 0).set R.CHG_FAULT.RUN_LIM 0).setChgPhase
            2).startCycle).complete c.handle { status := 0x00 })) ∧
    (∀ (c : Cmd), s.nextCmd = some c → c.opcode = 0x24 → exec .estimatorRead s = .next (
        let e := s.chg.est
        let a := (((s.markStarted c.handle).set R.CHG_EST_STATUS.STATE e.state).setSat R.CHG_EST_STATUS.DATA_S
            e.dataS).setSat R.CHG_EST_STATUS.VAR e.var
        let b := (a.seti R.CHG_EST_LIMIT.I_PLATE (e.iPlate.getD 0 / 2)).seti R.CHG_EST_LIMIT.MARGIN e.margin
        let n := if b.tapsUsed then b.cells else 1
        let t := [(0 : Fin 5), 1, 2, 3, 4].foldl (fun (x : State) k => if k.val < n then x.snapCell k else x) b
        let q := (t.get R.CHG_EST_STATUS.SNAP_SEQ + 1) % 256
        (t.set R.CHG_EST_STATUS.SNAP_SEQ q).complete c.handle { status := 0x00, result := q })) ∧
    (∀ (c : Cmd), s.nextCmd = some c → c.opcode = 0x25 → s.pmEn → exec .estimatorReset s = .next (
        ((s.markStarted c.handle).discardEst).complete c.handle { status := 0x00 })) ∧
    (∀ (c : Cmd), s.nextCmd = some c → c.opcode = 0x62 → s.path.inputSel = none → ¬ s.selUnfitted 0 (c.byte 0) →
     ¬ s.selUnfitted 1 (c.byte 1) → (((namedPort (c.byte 0)).isSome → namedPort (c.byte 0) ≠ namedPort (c.byte 1))) →
     ¬ s.selWrongPort 0 (c.byte 0) → ¬ s.selWrongPort 1 (c.byte 1) → ¬ s.selNoPhase 0 (c.byte 0) →
     ¬ s.selNoPhase 1 (c.byte 1) → s.bat ≠ batOff → exec .inputSelect s = .next (
        let v := (s.markStarted c.handle).selBus 0 (c.byte 0) (s.busConn 0 && namedPort (c.byte 1) = some (s.busPort 0))
        let t := v.selBus 1 (c.byte 1) (s.busConn 1 && namedPort (c.byte 0) = some (s.busPort 1))
        let begun := (t.path.buses.get 0).selMove || (t.path.buses.get 1).selMove
        let sel := some { handle := some c.handle, begun := begun }
        let w := ({ t with path := { t.path with inputSel := sel } } : State).autoSelect.finishSelect
        w.settle w.cmds.length)) ∧
    (∀ (c : Cmd), s.nextCmd = some c → c.opcode = 0x61 → s.stage.mapChange = none → s.mapBad c = none →
     (allPhases.all fun ph => !(s.reinstates c ph && s.reinst ph ≥ 3)) → s.mapLeaves c 0 → s.mapLeaves c 1 → ¬ s.inSafe →
     exec .phaseMapSet s = .next (
        let u := s.markStarted c.handle
        let v := ({ u with stage := { u.stage with mapChange := some { handle := some c.handle, target := mapOfCmd c } } } : State)
        let t := ((v.eachPhase allPhases fun s ph => s.mapPhase c ph).writePmax 0).writePmax 1
        if t.inSafe then t.complete c.handle { status := 0x00, result := t.mapResult } else t.settle t.cmds.length)) ∧
    (∀ (c : Cmd), s.nextCmd = some c → c.opcode = 0x82 →
     (List.range 8).all (fun n => !(bitAt (c.byte 2) n && (s.on (R.THM_NTC_TEMP.OPEN n) || s.on (R.THM_NTC_TEMP.SHORT
         n)))) →
     exec .sensorReinstate s = .next (
        ((s.markStarted c.handle).reinstate (c.num 0 2) (c.byte 2)).complete c.handle { status := 0x00 })) ∧
    (∀ (r : SelfTestOutcome) (c : Cmd), s.nextCmd = some c → c.opcode = 0x83 → c.byte 0 ≠ 0 →
     (¬ bitAt (c.byte 0) 0 ∨ ¬ (s.markStarted c.handle).fwBusy) → exec (.selfTest r) s = .next (
        let u := s.markStarted c.handle
        let t := if bitAt (c.byte 0) 0 then u.mramRead r.corr r.uncorr else u
        t.complete c.handle { status := 0x00, buf := selfTestBytes (c.byte 0) r }))

/-- Type-C and PD commands. Where the conditions that the chapter sets for it hold (on the state and the operands alone),
each of these commands completes with exactly the next state written here: PD_SET_PORT_POLICY, PD_SET_SOURCE_CAPS,
PD_SET_SINK_CAPS, PD_REQUEST, PD_SEND_MSG, PD_SWAP_PR, PD_SWAP_VCONN, PD_SWAP_DR, PD_HARD_RESET, PD_PORT_DISABLE. -/
def Obligations.PortCommands : Prop :=
  ∀ s : State, s.power = .on →
    (∀ (c : Cmd), s.nextCmd = some c → c.opcode = 0x30 → (¬ s.reevals c.port c ∨ ¬ s.portBusy c.port) →
     exec .pdSetPortPolicy s = .next (
        let t := (((s.markStarted c.handle).putPolicyFlags c.port (c.byte 1) (c.byte 2) (c.byte 3)).putPolicyNums
            c.port c).eprCleared c.port
        let t := if s.reevals c.port c then (t.modPe c.port fun x => { x with eprTried := false }).startSeq c.port
            .getSourceCap else t
        t.complete c.handle (clampReply (clamps (policyNums c)) 0))) ∧
    (∀ (c : Cmd), s.nextCmd = some c → c.opcode = 0x31 → restNonZero (cmdPdos c) (clampTo 1 7 (c.byte 1)).1 = none →
     firstIs5V ((cmdPdos c).getD 0 0) → srcOrder 0 false ((cmdPdos c).take (clampTo 1 7 (c.byte 1)).1) →
     exec .pdSetSourceCaps s = .next (
        (((s.markStarted c.handle).putTable (R.PD_SRC_PDO.W c.port) 0 7 (cmdPdos c)).sourceTableChanged
            c.port).complete c.handle ((clampReply (clamps [(1, c.byte 1, 1, 7)]) 0)))) ∧
    (∀ (c : Cmd), s.nextCmd = some c → c.opcode = 0x32 → ¬ (c.byte 1 = 0 ∧ c.byte 2 = 0) →
     restNonZero (cmdPdos c) (min (if c.byte 1 = 0 then 7 else 4) (c.byte 2)) = none →
     ((c.byte 1 = 0 → firstIs5V ((cmdPdos c).getD 0 0) ∧ ((cmdPdos c).take (min 7 (c.byte 2))).all isSpr)) →
     ((c.byte 1 ≠ 0 → ((cmdPdos c).take (min 4 (c.byte 2))).all isEpr)) → exec .pdSetSinkCaps s = .next (
        let top := if c.byte 1 = 0 then 7 else 4
        let t := (s.markStarted c.handle).putTable (fun k => R.PD_SNK_PDO.W c.port (k + if c.byte 1 = 0 then 0 else 7))
            0 top (cmdPdos c)
        t.complete c.handle (clampReply (clamps [(2, c.byte 2, 0, top)]) 0))) ∧
    (∀ (c : Cmd), s.nextCmd = some c → c.opcode = 0x33 → c.byte 1 = 0 → exec .pdRequest s = .next (
        ((s.markStarted c.handle).modPe c.port fun x => { x with hold := none }).complete c.handle { status := 0x00 })) ∧
    (∀ (c : Cmd), s.nextCmd = some c → c.opcode = 0x33 → c.byte 1 ≠ 0 → ¬ s.portBusy c.port →
     (s.peState c.port = 4 ∨ s.peState c.port = 5) → (c.byte 1 ≤ 7 ∨ s.on (R.PD_PE_STATUS.EPR_MODE c.port)) →
     c.byte 1 ≤ 11 → s.get (R.PD_PARTNER_SRC_PDO.W c.port (c.byte 1 - 1)) ≠ 0 →
     reqVoltOk (s.get (R.PD_PARTNER_SRC_PDO.W c.port (c.byte 1 - 1))) (c.num 4 2) → exec .pdRequest s = .next (
        let t := (s.markStarted c.handle).modPe c.port fun x =>
            { x with hold := some { pos := c.byte 1, mv := c.num 4 2, ma := c.num 8 4 } }
        let w := t.cmdSeq c.port c.handle .request
        w.settle w.cmds.length)) ∧
    (∀ (data : List Byte) (c : Cmd) k, s.nextCmd = some c → c.opcode = 0x34 → ¬ (bitAt (c.byte 2) 1 ∧ c.src = .ec) →
     (if bitAt (c.byte 2) 0 then replyKind (c.num 4 2) (min 7 (c.byte 3)) else hostCmdKind (c.num 4 2) (min 7 (c.byte
         3))) = some k →
     s.sendRefusal c.port (bitAt (c.byte 2) 0) = none → exec (.pdSendMsg data) s = .next (
        let reply := bitAt (c.byte 2) 0
        let len := (clampTo 1 260 (c.num 16 2)).1
        let objs := (List.range (min 7 (c.byte 3))).map fun j => c.num (8 + 4 * j) 4
        let u := s.markStarted c.handle
        let t := if bitAt (c.byte 2) 1 then (u.emit (.hostRead (c.num 8 8) len)).hostSend c.port c.handle (c.byte 1)
            reply k objs (some (sliceBytes data 0 len)) else u.hostSend c.port c.handle (c.byte 1) reply k objs none
        let nums := if bitAt (c.byte 2) 1 then [(16, c.num 16 2, 1, 260)] else [(3, c.byte 3, 0, 7)]
        let w := t.modPe c.port fun x => { x with cmdClamp := clamps nums }
        w.settle w.cmds.length)) ∧
    (∀ (c : Cmd), s.nextCmd = some c → c.opcode = 0x35 → c.byte 1 = 0 → ¬ s.portBusy c.port → ¬ s.prsRefused c.port →
     ¬ s.busMoving c.port → s.maySwap c.port → exec .pdSwapPr s = .next (
        let w := (s.markStarted c.handle).cmdSeq c.port c.handle .prSwap
        w.settle w.cmds.length)) ∧
    (∀ (c : Cmd), s.nextCmd = some c → c.opcode = 0x35 → c.byte 1 = 1 → ¬ s.portBusy c.port → ¬ s.vcsRefused c.port →
     ¬ (s.on (R.PD_PE_STATUS.VCONN_SRC c.port) ∧ (s.tc c.port).discover.isSome) → s.maySwap c.port →
     exec .pdSwapVconn s = .next (
        let w := (s.markStarted c.handle).cmdSeq c.port c.handle .vconnSwap
        w.settle w.cmds.length)) ∧
    (∀ (c : Cmd), s.nextCmd = some c → c.opcode = 0x35 → c.byte 1 = 2 → ¬ s.portBusy c.port →
     s.on (R.PD_PE_CFG.HOST_DRS c.port) → ¬ s.md.standAlone → s.maySwap c.port → exec .pdSwapDr s = .next (
        let w := (s.markStarted c.handle).cmdSeq c.port c.handle .drSwap
        w.settle w.cmds.length)) ∧
    (∀ (c : Cmd), s.nextCmd = some c → c.opcode = 0x36 → (s.tcState c.port = 4 ∨ s.tcState c.port = 7) → s.talks c.port →
     ¬ s.supplyOnly c.port → exec .pdHardReset s = .next (
        ((s.markStarted c.handle).sendHardReset c.port).complete c.handle { status := 0x00 })) ∧
    (∀ (c : Cmd), s.nextCmd = some c → c.opcode = 0x37 → ¬ s.disableIgnored c.port (c.byte 1 = 1) →
     exec .pdPortDisable s = .next (
        ((s.markStarted c.handle).setDisable c.port (c.byte 1 = 1)).complete c.handle { status := 0x00 }))

/-- Rail commands. Where the conditions that the chapter sets for it hold (on the state and the operands alone), each of
these commands completes with exactly the next state written here: RAIL_CONFIG, RAIL_ON, RAIL_OFF_CMD, SEQ_PLATFORM_ON,
SEQ_PLATFORM_OFF. -/
def Obligations.RailCommands : Prop :=
  ∀ s : State, s.power = .on →
    (∀ (c : Cmd), s.nextCmd = some c → c.opcode = 0x50 → (s.seq.runs.all fun r => !bitAt r.rails c.railNo) →
     (s.rail c.railNo = railOff ∨ s.rail c.railNo = railFault ∨ s.rail c.railNo = railUnused) →
     (c.railNo = 3 ∨ c.num 12 2 = 0) → ¬ s.depsCycle c.railNo (c.num 2 2) → exec .railConfig s = .next (
        ((s.markStarted c.handle).configRail c.railNo c).complete c.handle ((clampReply (railClamps c) 0)))) ∧
    (∀ (c : Cmd), s.nextCmd = some c → c.opcode = 0x51 → ¬ s.railsBarred → s.rail c.railNo ≠ railUnused →
     ¬ s.depMissing c.railNo → exec .railOn s = .next (
        let w := (s.markStarted c.handle).requestOn (s.railRun true c.railNo [c.handle])
        w.settle w.cmds.length)) ∧
    (∀ (c : Cmd), s.nextCmd = some c → c.opcode = 0x52 → ¬ s.railsBarred → exec .railOffCmd s = .next (
        let w := (s.markStarted c.handle).requestOff (s.railRun false c.railNo [c.handle]) false
        w.settle w.cmds.length)) ∧
    (∀ (c : Cmd), s.nextCmd = some c → c.opcode = 0x53 → ¬ s.railsBarred → exec .seqPlatformOn s = .next (
        let w := (s.markStarted c.handle).platformOn [c.handle]
        w.settle w.cmds.length)) ∧
    (∀ (c : Cmd), s.nextCmd = some c → c.opcode = 0x54 → ¬ s.railsBarred → exec .seqPlatformOff s = .next (
        let w := (s.markStarted c.handle).requestOff (s.groupDown 1 true [c.handle]) false
        w.settle w.cmds.length))

/-- Capture commands. Where the conditions that the chapter sets for it hold (on the state and the operands alone), each of
these commands completes with exactly the next state written here: CAPTURE_CONFIG, CAPTURE_ARM, CAPTURE_STOP,
CAPTURE_RING_ATTACH, CAPTURE_RING_DETACH. -/
def Obligations.CaptureCommands : Prop :=
  ∀ s : State, s.power = .on →
    (∀ (c : Cmd), s.nextCmd = some c → c.opcode = 0x40 → (c.byte 1 = 4 ∨ c.num 6 2 = 0) → ¬ s.ringOn c.ring →
     configBad c = none → s.preTotal - (s.stream c.ring).pre + c.byte 10 ≤ 16 →
     s.rateWith c.ring ((s.stream c.ring).configure c) ≤ 10240000000 → exec .captureConfig s = .next (
        ((s.markStarted c.handle).configStream c.ring c).complete c.handle ((clampReply (clamps [(16, c.num 16 2, 1,
            1000), (18, c.num 18 2, 1, 4096)]) 0)))) ∧
    (∀ (frame : Nat) (c : Cmd), s.nextCmd = some c → c.opcode = 0x41 →
     ((maskRings (c.byte 0)).all fun r => s.ring r != capDetached && s.ring r != capError && (s.stream r).conf) →
     ((maskRings (c.byte 0)).all fun r => s.ringOn r || (s.stream r).mode != 0 || (s.stream r).pre + (s.stream r).len ≤
         s.capFree r) →
     (bitAt (c.byte 1) 0 ∨ (maskRings (c.byte 0)).all fun r => !s.ringOn r) → exec (.captureArm frame) s = .next (
        let t := (maskRings (c.byte 0)).foldl (fun (acc : State) (r : Fin 8) => if acc.ringOn r then acc else
            acc.armRing r) (s.markStarted c.handle)
        ((maskRings (c.byte 0)).foldl (fun (acc : State) (r : Fin 8) => acc.armTrigger (bitAt (c.byte 1) 0) frame r)
            t).complete c.handle { status := 0x00 })) ∧
    (∀ (cur : List FrameRun) (c : Cmd), s.nextCmd = some c → c.opcode = 0x42 → exec (.captureStop cur) s = .next (
        let t := (s.markStarted c.handle).stopRings 0x05 (c.byte 0) cur
        let w := { t with cap := { t.cap with stops := t.cap.stops ++ [(c.handle, c.byte 0)] } }
        if (maskRings (c.byte 0)).any fun r => t.ringOn r then w.settle w.cmds.length else t.complete c.handle
            { status := 0x00 })) ∧
    (∀ (c : Cmd), s.nextCmd = some c → c.opcode = 0x43 → ¬ bitAt (c.byte 1) 0 → ¬ s.ringOn c.ring →
     s.on R.HIF_CTRL.ENABLE → c.num 4 8 ≠ 0 → c.num 4 8 % 4096 = 0 → c.num 12 4 ≠ 0 → c.num 12 4 ≤ 1048576 →
     s.sizeWith c.ring (c.num 12 4) ≤ 4194304 → exec .captureRingAttach s = .next (
        ((s.markStarted c.handle).attachRing c.ring c).complete c.handle { status := 0x00 })) ∧
    (∀ (c : Cmd), s.nextCmd = some c → c.opcode = 0x43 → bitAt (c.byte 1) 0 → ¬ s.ringOn c.ring →
     s.on R.HIF_CTRL.ENABLE → c.num 4 8 = 0 → c.num 12 4 = 0 → exec .captureRingDetach s = .next (
        ((s.markStarted c.handle).detachRing c.ring).complete c.handle { status := 0x00 }))

/-- Host, register, mode and cascade commands. Where the conditions that the chapter sets for it hold (on the state and the
operands alone), each of these commands completes with exactly the next state written here: NOP, GET_STATUS_BLOCK,
SET_EVENT_MASK, SET_PARAM, GET_PARAM, MODE_REQUEST_KEEP_ALIVE, MODE_REQUEST_SHIP, MODE_REQUEST_CLEAR_SAFE, CASCADE_STATUS,
CASCADE_REMOTE_READ, CASCADE_REMOTE_WRITE. -/
def Obligations.HostCommands : Prop :=
  ∀ s : State, s.power = .on →
    (∀ (c : Cmd), s.nextCmd = some c → c.opcode = 0x00 → exec .nop s = .next (
        (s.markStarted c.handle).complete c.handle { status := 0x00, result := s.tsNow })) ∧
    (∀ (c : Cmd), s.nextCmd = some c → c.opcode = 0x03 → exec .getStatusBlock s = .next (
        let u := s.markStarted c.handle
        u.complete c.handle { status := 0x00, buf := u.statusBlock })) ∧
    (∀ (c : Cmd), s.nextCmd = some c → c.opcode = 0x04 → exec .setEventMask s = .next (
        let u := s.markStarted c.handle
        (if c.src = .ec then u.set R.TWB_ALERT_MASK.TYPES (c.num 0 2 / 2 % 8192) else u.set R.HIF_EVQ_MASK.MASK (c.num
            0 2 / 2 % 8192)).complete c.handle { status := 0x00 })) ∧
    (∀ (c : Cmd), s.nextCmd = some c → c.opcode = 0x01 → RegMap.mapped (c.num 0 2) → c.num 0 2 % 4 = 0 →
     BitVec.ofNat 32 (c.num 8 4) ≠ 0 → exec .setParam s = .next (
        let r := (s.markStarted c.handle).maskedWrite .application (c.num 0 2) (BitVec.ofNat 32 (c.num 4 4))
            (BitVec.ofNat 32 (c.num 8 4)) 0 4
        r.2.complete c.handle (r.1))) ∧
    (∀ (c : Cmd), s.nextCmd = some c → c.opcode = 0x02 → s.refusal .application (c.num 0 2) false true = none →
     exec .getParam s = .next (
        let r := (s.markStarted c.handle).read .application (c.num 0 2)
        r.2.complete c.handle { status := 0x00, result := r.1.toNat })) ∧
    (∀ (c : Cmd), s.nextCmd = some c → c.opcode = 0x60 → c.byte 0 = 1 → s.md.longPress = 0 → s.md.entry = .none →
     ¬ s.isFollower → s.mode = 2 → (s.markStarted c.handle).kaOk → exec .modeRequestKeepAlive s = .next (
        let u := s.markStarted c.handle
        (({ u with md := { u.md with kaCause := 1 } } : State).pend .ka).complete c.handle ((clampReply (clamps [(2,
            c.num 2 2, 0, 60000)]) 0)))) ∧
    (∀ (c : Cmd), s.nextCmd = some c → c.opcode = 0x60 → c.byte 0 = 2 → s.md.longPress = 0 → s.md.entry = .none →
     s.mode = 2 → ¬ s.anyAttached → exec .modeRequestShip s = .next (
        (((s.markStarted c.handle).pend .ship).raiseMode 2 0 0x03).complete c.handle ((clampReply (clamps [(2, c.num 2
            2, 0, 60000)]) 0)))) ∧
    (∀ (vsys : Nat) (pairsOff : Bool) (batOff : Bool) (c : Cmd), s.nextCmd = some c → c.opcode = 0x60 → c.byte 0 = 3 →
     s.md.longPress = 0 → s.inSafe → ¬ s.safeStays vsys pairsOff batOff →
     exec (.modeRequestClearSafe vsys pairsOff batOff) s = .next (
        ((s.markStarted c.handle).leaveSafe).complete c.handle { status := 0x00 })) ∧
    (∀ (c : Cmd), s.nextCmd = some c → c.opcode = 0x90 → exec .cascadeStatus s = .next (
        let u := s.markStarted c.handle
        u.complete c.handle { status := 0x00, buf := if c.byte 0 = 0xFF then allUnits.flatMap (fun v => u.cascadeEntry v) else u.cascadeEntry (Fin.ofNat 4 (c.byte 0)) })) ∧
    (∀ (c : Cmd), s.nextCmd = some c → c.opcode = 0x91 → c.byte 1 = 0 → remoteBad c = none →
     (Fin.ofNat 4 (c.byte 0)) ≠ s.idx → s.reachable (Fin.ofNat 4 (c.byte 0)) → s.csc.queue.length < 8 →
     exec .cascadeRemoteRead s = .next (
        let w := (s.markStarted c.handle).modQueue fun qs => qs ++
            [{ handle := c.handle, target := Fin.ofNat 4 (c.byte 0), isWrite := false, addr := c.num 2 2, value := BitVec.ofNat 32 (c.num 4 4), mask := BitVec.ofNat 32 (c.num 8 4), sent := none }]
        w.settle w.cmds.length)) ∧
    (∀ (c : Cmd), s.nextCmd = some c → c.opcode = 0x91 → c.byte 1 = 1 → remoteBad c = none →
     (Fin.ofNat 4 (c.byte 0)) ≠ s.idx → s.reachable (Fin.ofNat 4 (c.byte 0)) → s.csc.queue.length < 8 →
     exec .cascadeRemoteWrite s = .next (
        let w := (s.markStarted c.handle).modQueue fun qs => qs ++
            [{ handle := c.handle, target := Fin.ofNat 4 (c.byte 0), isWrite := true, addr := c.num 2 2, value := BitVec.ofNat 32 (c.num 4 4), mask := BitVec.ofNat 32 (c.num 8 4), sent := none }]
        w.settle w.cmds.length))

/-- Firmware and log commands. Where the conditions that the chapter sets for it hold (on the state and the operands alone),
each of these commands completes with exactly the next state written here: LOG_READ, LOG_CLEAR, FW_STAGE, FW_ACTIVATE,
FW_ABORT, CONFIG_COMMIT_IMAGE, CONFIG_COMMIT_SWAP. -/
def Obligations.FirmwareCommands : Prop :=
  ∀ s : State, s.power = .on →
    (∀ (c : Cmd), s.nextCmd = some c → c.opcode = 0x80 → exec .logRead s = .next (
        (s.markStarted c.handle).complete c.handle
            { clampReply (clamps [(4, c.num 4 2, 1, 4096)]) 0 with buf := ((s.fw.log.filter fun e => c.num 0 4 = 0xFFFFFFFF || c.num 0 4 ≤ e.lseq).take (clampTo 1 4096 (c.num 4 2)).1).flatMap LogEntry.bytes })) ∧
    (∀ (c : Cmd), s.nextCmd = some c → c.opcode = 0x81 → c.num 0 2 = 0x4C43 → exec .logClear s = .next (
        let u := s.markStarted c.handle
        let t := ({ u with fw := { u.fw with log := [] } } : State).writeLog
            { typ := 0x81, seq := 0, ts := s.tsNow, payload := [] }
        (t.raiseFw 0x07 t.fw.record.bank (t.bank t.fw.record.bank).svn).complete c.handle { status := 0x00 })) ∧
    (∀ (readOk : Bool) (storeOk : Bool) (img : ImageCheck) (c : Cmd), s.nextCmd = some c → c.opcode = 0x70 →
     (clampTo 4 65536 (c.num 8 4)).1 % 4 = 0 → c.num 12 8 % 4 = 0 → ¬ (s.markStarted c.handle).activating →
     ¬ s.fw.record.trial → (if bitAt (c.byte 0) 0 then c.num 4 4 = 0 else s.fw.staged = some (c.num 4 4)) →
     c.num 4 4 + (clampTo 4 65536 (c.num 8 4)).1 ≤ 786432 → readOk = true → storeOk = true → ¬ bitAt (c.byte 0) 1 →
     exec (.fwStage readOk storeOk img) s = .next (
        let len := (clampTo 4 65536 (c.num 8 4)).1
        let u := s.markStarted c.handle
        let u := if bitAt (c.byte 0) 0 then { u.dropStaging with fw := { u.dropStaging.fw with staged := some 0 } } else u
        let t := u.emit (.hostRead (c.num 12 8) len)
        (({ t with fw := { t.fw with staged := some (c.num 4 4 + len) } } : State)).complete c.handle (clampReply
            (clamps [(8, c.num 8 4, 4, 65536)]) 0))) ∧
    (∀ (c : Cmd), s.nextCmd = some c → c.opcode = 0x71 → s.on R.SEC_FW_STATUS.STAGED →
     ¬ (s.markStarted c.handle).activating → exec .fwActivate s = .next (
        let u := s.markStarted c.handle
        let w := ({ u with fw := { u.fw with actWait := some c.handle } } : State)
        (w.settle w.cmds.length).tryGap)) ∧
    (∀ (c : Cmd), s.nextCmd = some c → c.opcode = 0x72 → s.fw.record.trial = false → s.fw.staged.isSome →
     s.fw.actWait = none → exec .fwAbort s = .next (
        let u := s.markStarted c.handle
        (({ u.dropStaging with fw := { u.dropStaging.fw with actWait := none } } : State).complete c.handle
            { status := 0x00 }).tryGap)) ∧
    (∀ (readOk : Bool) (storeOk : Bool) (image : List Byte) (c : Cmd) rs, s.nextCmd = some c → c.opcode = 0x73 →
     c.byte 0 = 1 → c.src ≠ .ec → ¬ (s.markStarted c.handle).activating → readOk = true → storeOk = true →
     parseImage (image.take (c.num 12 4)) = some rs → exec (.configCommitImage readOk storeOk image) s = .next (
        let t := (s.markStarted c.handle).emit (.hostRead (c.num 4 8) (c.num 12 4))
        ((t.setCfgSlot (1 - t.fw.record.slot) { valid := true, records := rs }).swapSlot).complete c.handle
            { status := 0x00 })) ∧
    (∀ (storeOk : Bool) (c : Cmd), s.nextCmd = some c → c.opcode = 0x73 → c.byte 0 ≠ 1 → c.num 4 8 = 0 → c.num 12 4 = 0 →
     ¬ (s.markStarted c.handle).activating → (s.cfgSlot (1 - s.fw.record.slot)).valid → storeOk = true →
     exec (.configCommitSwap storeOk) s = .next (((s.markStarted c.handle).swapSlot).complete c.handle
         { status := 0x00 }))
end

