-- ==== Sys2Proof/Laws/Regs.lean ====
section
/-! SUPPORT. The register space as data: a read after a write, and that every operation keeps the canonical form. -/

set_option Elab.async false

namespace Sys2Proof.Machine

theorem regsOk_nil : RegsOk [] := ⟨List.Pairwise.nil, by simp⟩

/-- The tail of a register space in canonical form is in canonical form. -/
theorem RegsOk.tail {p : Nat × Word} {t : List (Nat × Word)} (h : RegsOk (p :: t)) : RegsOk t :=
  ⟨(List.pairwise_cons.1 h.1).2, fun q hq => h.2 q (List.mem_cons_of_mem _ hq)⟩

/-- What `regInsert` lists: the pair put in, and pairs that were listed. -/
theorem mem_regInsert {q : Nat × Word} {rf : List (Nat × Word)} {a : Nat} {w : Word} (h : q ∈ regInsert rf a w) :
    q = (a, w) ∨ q ∈ rf := by
  induction rf with
  | nil => simp [regInsert] at h; simp [h]
  | cons p t ih =>
    obtain ⟨b, v⟩ := p
    simp only [regInsert] at h
    split at h
    · simpa using h
    · split at h
      · rcases List.mem_cons.1 h with h | h <;> simp [h]
      · rcases List.mem_cons.1 h with h | h
        · simp [h]
        · rcases ih h with h | h <;> simp [h]

theorem mem_regErase {q : Nat × Word} {rf : List (Nat × Word)} {a : Nat} (h : q ∈ regErase rf a) : q ∈ rf := by
  induction rf with
  | nil => simp [regErase] at h
  | cons p t ih =>
    obtain ⟨b, v⟩ := p
    simp only [regErase] at h
    split at h
    · exact List.mem_cons_of_mem _ h
    · rcases List.mem_cons.1 h with h | h
      · simp [h]
      · exact List.mem_cons_of_mem _ (ih h)

/-- Inserting keeps the addresses strictly rising. -/
theorem regInsert_sorted {rf : List (Nat × Word)} (a : Nat) (w : Word) (h : rf.Pairwise (fun p q => p.1 < q.1)) :
    (regInsert rf a w).Pairwise (fun p q => p.1 < q.1) := by
  induction rf with
  | nil => simp [regInsert]
  | cons p t ih =>
    obtain ⟨b, v⟩ := p
    obtain ⟨hb, ht⟩ := List.pairwise_cons.1 h
    simp only [regInsert]
    split
    · refine List.pairwise_cons.2 ⟨fun q hq => ?_, h⟩
      rcases List.mem_cons.1 hq with rfl | hq
      · assumption
      · exact Nat.lt_trans ‹_› (hb q hq)
    · split
      · exact List.pairwise_cons.2 ⟨fun q hq => by have := hb q hq; simp_all, ht⟩
      · refine List.pairwise_cons.2 ⟨fun q hq => ?_, ih ht⟩
        rcases mem_regInsert hq with rfl | hq
        · simp only; omega
        · exact hb q hq

theorem regErase_sorted {rf : List (Nat × Word)} (a : Nat) (h : rf.Pairwise (fun p q => p.1 < q.1)) :
    (regErase rf a).Pairwise (fun p q => p.1 < q.1) := by
  induction rf with
  | nil => simp [regErase]
  | cons p t ih =>
    obtain ⟨b, v⟩ := p
    obtain ⟨hb, ht⟩ := List.pairwise_cons.1 h
    simp only [regErase]
    split
    · exact ht
    · exact List.pairwise_cons.2 ⟨fun q hq => hb q (mem_regErase hq), ih ht⟩

/-- Writing a word keeps the canonical form (R441). -/
theorem regWrite_ok {rf : List (Nat × Word)} (a : Nat) (w : Word) (h : RegsOk rf) : RegsOk (regWrite rf a w) := by
  unfold regWrite
  split
  · exact ⟨regErase_sorted a h.1, fun p hp => h.2 p (mem_regErase hp)⟩
  · refine ⟨regInsert_sorted a _ h.1, fun p hp => ?_⟩
    rcases mem_regInsert hp with rfl | hp
    · exact ⟨‹_›, by simp [BitVec.and_assoc]⟩
    · exact h.2 p hp

/-- A reset of a domain leaves the canonical form, whatever it starts from (R6). -/
theorem regReset_ok (m : Dom) (rf : List (Nat × Word)) : RegsOk (regReset m rf) := by
  have : ∀ (l acc : List (Nat × Word)), RegsOk acc → RegsOk (l.foldl (fun acc p =>
      regWrite acc p.1 ((p.2 &&& ~~~ RegMap.domMask p.1 m) ||| (RegMap.resetWord p.1 &&& RegMap.domMask p.1 m))) acc) := by
    intro l
    induction l with
    | nil => exact fun _ h => h
    | cons p t ih => exact fun acc h => ih _ (regWrite_ok _ _ h)
  exact this rf [] regsOk_nil

theorem lookup_pair (t : List (Nat × Word)) (b c : Nat) (v : Word) :
    ((c, v) :: t).lookup b = if b = c then some v else t.lookup b := by
  by_cases h : b = c
  · simp [h]
  · simp [List.lookup, h, beq_eq_false_iff_ne.2 h]

theorem lookup_regInsert (rf : List (Nat × Word)) (a b : Nat) (w : Word) :
    (regInsert rf a w).lookup b = if b = a then some w else rf.lookup b := by
  induction rf with
  | nil => simp [regInsert, lookup_pair]
  | cons p t ih =>
    obtain ⟨c, v⟩ := p
    simp only [regInsert]
    split
    · simp only [lookup_pair]
    · split
      · subst_vars
        simp only [lookup_pair]
        split <;> rfl
      · simp only [lookup_pair, ih]
        split <;> split <;> first | rfl | omega

theorem lookup_none_of_lt (rf : List (Nat × Word)) (a : Nat) (h : ∀ p ∈ rf, a < p.1) : rf.lookup a = none := by
  induction rf with
  | nil => rfl
  | cons p t ih =>
    have hp := h p (by simp)
    rw [show p = (p.1, p.2) from rfl, lookup_pair, if_neg (by omega), ih fun q hq => h q (List.mem_cons_of_mem _ hq)]

theorem lookup_regErase_ne (rf : List (Nat × Word)) (a b : Nat) (h : b ≠ a) : (regErase rf a).lookup b = rf.lookup b := by
  induction rf with
  | nil => rfl
  | cons p t ih =>
    obtain ⟨c, v⟩ := p
    simp only [regErase]
    split
    · rw [lookup_pair, if_neg (by omega)]
    · simp only [lookup_pair, ih]

theorem lookup_regErase_same (rf : List (Nat × Word)) (a : Nat) (h : rf.Pairwise (fun p q => p.1 < q.1)) :
    (regErase rf a).lookup a = none := by
  induction rf with
  | nil => rfl
  | cons p t ih =>
    obtain ⟨c, v⟩ := p
    obtain ⟨hc, ht⟩ := List.pairwise_cons.1 h
    simp only [regErase]
    split
    · subst_vars
      exact lookup_none_of_lt t _ hc
    · rw [lookup_pair, if_neg (by omega), ih ht]

/-- A write leaves every other address alone. -/
theorem regRead_regWrite_ne (rf : List (Nat × Word)) {a b : Nat} (w : Word) (h : b ≠ a) :
    regRead (regWrite rf a w) b = regRead rf b := by
  simp only [regRead, regWrite]
  split_ifs
  · rw [lookup_regErase_ne _ _ _ h]
  · rw [lookup_regInsert, if_neg h]

/-- A read after a write of the same address gives the written word without its reserved bits (R441). -/
theorem regRead_regWrite_same {rf : List (Nat × Word)} (a : Nat) (w : Word) (h : RegsOk rf) :
    regRead (regWrite rf a w) a = w &&& RegMap.implMask a := by
  simp only [regRead, regWrite]
  split_ifs with hw
  · rw [lookup_regErase_same _ _ h.1]; exact hw.symm
  · rw [lookup_regInsert, if_pos rfl]

/-- A read in canonical form shows no reserved bit, where the reset word holds none (R441). -/
theorem regRead_impl {rf : List (Nat × Word)} (h : RegsOk rf) (a : Nat)
    (hr : RegMap.resetWord a &&& RegMap.implMask a = RegMap.resetWord a) :
    regRead rf a &&& RegMap.implMask a = regRead rf a := by
  unfold regRead
  split
  · rename_i w hw
    have : (a, w) ∈ rf := by
      clear h hr
      induction rf with
      | nil => simp at hw
      | cons p t ih =>
        obtain ⟨c, v⟩ := p
        rw [lookup_pair] at hw
        split at hw
        · simp_all
        · exact List.mem_cons_of_mem _ (ih hw)
    exact (h.2 _ this).2
  · exact hr

end Sys2Proof.Machine
end

