-- ==== Sys2Proof/Laws/State.lean ====
section
/-! SUPPORT. One lemma per field of the state per update of a register: only the register space changes. And one per view of
a field: what a set of a field leaves in that field, in the rest of its word and at other addresses. -/

set_option Elab.async false

namespace Sys2Proof.Machine

/-! ### `State.setWord` -/

@[simp] theorem State.setWord_power (s : State) (a : Nat) (w : Word) : (s.setWord a w).power = s.power := rfl
@[simp] theorem State.setWord_ts (s : State) (a : Nat) (w : Word) : (s.setWord a w).ts = s.ts := rfl
@[simp] theorem State.setWord_aonq (s : State) (a : Nat) (w : Word) : (s.setWord a w).aonq = s.aonq := rfl
@[simp] theorem State.setWord_xtalBad (s : State) (a : Nat) (w : Word) : (s.setWord a w).xtalBad = s.xtalBad := rfl
@[simp] theorem State.setWord_evSeq (s : State) (a : Nat) (w : Word) : (s.setWord a w).evSeq = s.evSeq := rfl
@[simp] theorem State.setWord_free (s : State) (a : Nat) (w : Word) : (s.setWord a w).free = s.free := rfl
@[simp] theorem State.setWord_nextH (s : State) (a : Nat) (w : Word) : (s.setWord a w).nextH = s.nextH := rfl
@[simp] theorem State.setWord_cmds (s : State) (a : Nat) (w : Word) : (s.setWord a w).cmds = s.cmds := rfl
@[simp] theorem State.setWord_out (s : State) (a : Nat) (w : Word) : (s.setWord a w).out = s.out := rfl
@[simp] theorem State.setWord_stage (s : State) (a : Nat) (w : Word) : (s.setWord a w).stage = s.stage := rfl
@[simp] theorem State.setWord_path (s : State) (a : Nat) (w : Word) : (s.setWord a w).path = s.path := rfl
@[simp] theorem State.setWord_chg (s : State) (a : Nat) (w : Word) : (s.setWord a w).chg = s.chg := rfl
@[simp] theorem State.setWord_bgt (s : State) (a : Nat) (w : Word) : (s.setWord a w).bgt = s.bgt := rfl
@[simp] theorem State.setWord_ports (s : State) (a : Nat) (w : Word) : (s.setWord a w).ports = s.ports := rfl
@[simp] theorem State.setWord_md (s : State) (a : Nat) (w : Word) : (s.setWord a w).md = s.md := rfl
@[simp] theorem State.setWord_hif (s : State) (a : Nat) (w : Word) : (s.setWord a w).hif = s.hif := rfl
@[simp] theorem State.setWord_twb (s : State) (a : Nat) (w : Word) : (s.setWord a w).twb = s.twb := rfl
@[simp] theorem State.setWord_fw (s : State) (a : Nat) (w : Word) : (s.setWord a w).fw = s.fw := rfl
@[simp] theorem State.setWord_csc (s : State) (a : Nat) (w : Word) : (s.setWord a w).csc = s.csc := rfl
@[simp] theorem State.setWord_seq (s : State) (a : Nat) (w : Word) : (s.setWord a w).seq = s.seq := rfl
@[simp] theorem State.setWord_cap (s : State) (a : Nat) (w : Word) : (s.setWord a w).cap = s.cap := rfl
@[simp] theorem State.setWord_mbx (s : State) (a : Nat) (w : Word) : (s.setWord a w).mbx = s.mbx := rfl
@[simp] theorem State.setWord_jk (s : State) (a : Nat) (w : Word) : (s.setWord a w).jk = s.jk := rfl
@[simp] theorem State.setWord_tmr (s : State) (a : Nat) (w : Word) : (s.setWord a w).tmr = s.tmr := rfl
@[simp] theorem State.setWord_thm (s : State) (a : Nat) (w : Word) : (s.setWord a w).thm = s.thm := rfl
@[simp] theorem State.setWord_pending (s : State) (a : Nat) (w : Word) : (s.setWord a w).pending = s.pending := rfl

/-! ### `State.set` -/

@[simp] theorem State.set_power (s : State) (f : Fld) (v : Nat) : (s.set f v).power = s.power := rfl
@[simp] theorem State.set_ts (s : State) (f : Fld) (v : Nat) : (s.set f v).ts = s.ts := rfl
@[simp] theorem State.set_aonq (s : State) (f : Fld) (v : Nat) : (s.set f v).aonq = s.aonq := rfl
@[simp] theorem State.set_xtalBad (s : State) (f : Fld) (v : Nat) : (s.set f v).xtalBad = s.xtalBad := rfl
@[simp] theorem State.set_evSeq (s : State) (f : Fld) (v : Nat) : (s.set f v).evSeq = s.evSeq := rfl
@[simp] theorem State.set_free (s : State) (f : Fld) (v : Nat) : (s.set f v).free = s.free := rfl
@[simp] theorem State.set_nextH (s : State) (f : Fld) (v : Nat) : (s.set f v).nextH = s.nextH := rfl
@[simp] theorem State.set_cmds (s : State) (f : Fld) (v : Nat) : (s.set f v).cmds = s.cmds := rfl
@[simp] theorem State.set_out (s : State) (f : Fld) (v : Nat) : (s.set f v).out = s.out := rfl
@[simp] theorem State.set_stage (s : State) (f : Fld) (v : Nat) : (s.set f v).stage = s.stage := rfl
@[simp] theorem State.set_path (s : State) (f : Fld) (v : Nat) : (s.set f v).path = s.path := rfl
@[simp] theorem State.set_chg (s : State) (f : Fld) (v : Nat) : (s.set f v).chg = s.chg := rfl
@[simp] theorem State.set_bgt (s : State) (f : Fld) (v : Nat) : (s.set f v).bgt = s.bgt := rfl
@[simp] theorem State.set_ports (s : State) (f : Fld) (v : Nat) : (s.set f v).ports = s.ports := rfl
@[simp] theorem State.set_md (s : State) (f : Fld) (v : Nat) : (s.set f v).md = s.md := rfl
@[simp] theorem State.set_hif (s : State) (f : Fld) (v : Nat) : (s.set f v).hif = s.hif := rfl
@[simp] theorem State.set_twb (s : State) (f : Fld) (v : Nat) : (s.set f v).twb = s.twb := rfl
@[simp] theorem State.set_fw (s : State) (f : Fld) (v : Nat) : (s.set f v).fw = s.fw := rfl
@[simp] theorem State.set_csc (s : State) (f : Fld) (v : Nat) : (s.set f v).csc = s.csc := rfl
@[simp] theorem State.set_seq (s : State) (f : Fld) (v : Nat) : (s.set f v).seq = s.seq := rfl
@[simp] theorem State.set_cap (s : State) (f : Fld) (v : Nat) : (s.set f v).cap = s.cap := rfl
@[simp] theorem State.set_mbx (s : State) (f : Fld) (v : Nat) : (s.set f v).mbx = s.mbx := rfl
@[simp] theorem State.set_jk (s : State) (f : Fld) (v : Nat) : (s.set f v).jk = s.jk := rfl
@[simp] theorem State.set_tmr (s : State) (f : Fld) (v : Nat) : (s.set f v).tmr = s.tmr := rfl
@[simp] theorem State.set_thm (s : State) (f : Fld) (v : Nat) : (s.set f v).thm = s.thm := rfl
@[simp] theorem State.set_pending (s : State) (f : Fld) (v : Nat) : (s.set f v).pending = s.pending := rfl

/-! ### `State.setb` -/

@[simp] theorem State.setb_power (s : State) (f : Fld) (b : Bool) : (s.setb f b).power = s.power := rfl
@[simp] theorem State.setb_ts (s : State) (f : Fld) (b : Bool) : (s.setb f b).ts = s.ts := rfl
@[simp] theorem State.setb_aonq (s : State) (f : Fld) (b : Bool) : (s.setb f b).aonq = s.aonq := rfl
@[simp] theorem State.setb_xtalBad (s : State) (f : Fld) (b : Bool) : (s.setb f b).xtalBad = s.xtalBad := rfl
@[simp] theorem State.setb_evSeq (s : State) (f : Fld) (b : Bool) : (s.setb f b).evSeq = s.evSeq := rfl
@[simp] theorem State.setb_free (s : State) (f : Fld) (b : Bool) : (s.setb f b).free = s.free := rfl
@[simp] theorem State.setb_nextH (s : State) (f : Fld) (b : Bool) : (s.setb f b).nextH = s.nextH := rfl
@[simp] theorem State.setb_cmds (s : State) (f : Fld) (b : Bool) : (s.setb f b).cmds = s.cmds := rfl
@[simp] theorem State.setb_out (s : State) (f : Fld) (b : Bool) : (s.setb f b).out = s.out := rfl
@[simp] theorem State.setb_stage (s : State) (f : Fld) (b : Bool) : (s.setb f b).stage = s.stage := rfl
@[simp] theorem State.setb_path (s : State) (f : Fld) (b : Bool) : (s.setb f b).path = s.path := rfl
@[simp] theorem State.setb_chg (s : State) (f : Fld) (b : Bool) : (s.setb f b).chg = s.chg := rfl
@[simp] theorem State.setb_bgt (s : State) (f : Fld) (b : Bool) : (s.setb f b).bgt = s.bgt := rfl
@[simp] theorem State.setb_ports (s : State) (f : Fld) (b : Bool) : (s.setb f b).ports = s.ports := rfl
@[simp] theorem State.setb_md (s : State) (f : Fld) (b : Bool) : (s.setb f b).md = s.md := rfl
@[simp] theorem State.setb_hif (s : State) (f : Fld) (b : Bool) : (s.setb f b).hif = s.hif := rfl
@[simp] theorem State.setb_twb (s : State) (f : Fld) (b : Bool) : (s.setb f b).twb = s.twb := rfl
@[simp] theorem State.setb_fw (s : State) (f : Fld) (b : Bool) : (s.setb f b).fw = s.fw := rfl
@[simp] theorem State.setb_csc (s : State) (f : Fld) (b : Bool) : (s.setb f b).csc = s.csc := rfl
@[simp] theorem State.setb_seq (s : State) (f : Fld) (b : Bool) : (s.setb f b).seq = s.seq := rfl
@[simp] theorem State.setb_cap (s : State) (f : Fld) (b : Bool) : (s.setb f b).cap = s.cap := rfl
@[simp] theorem State.setb_mbx (s : State) (f : Fld) (b : Bool) : (s.setb f b).mbx = s.mbx := rfl
@[simp] theorem State.setb_jk (s : State) (f : Fld) (b : Bool) : (s.setb f b).jk = s.jk := rfl
@[simp] theorem State.setb_tmr (s : State) (f : Fld) (b : Bool) : (s.setb f b).tmr = s.tmr := rfl
@[simp] theorem State.setb_thm (s : State) (f : Fld) (b : Bool) : (s.setb f b).thm = s.thm := rfl
@[simp] theorem State.setb_pending (s : State) (f : Fld) (b : Bool) : (s.setb f b).pending = s.pending := rfl

/-! ### `State.setSat` -/

@[simp] theorem State.setSat_power (s : State) (f : Fld) (v : Nat) : (s.setSat f v).power = s.power := rfl
@[simp] theorem State.setSat_ts (s : State) (f : Fld) (v : Nat) : (s.setSat f v).ts = s.ts := rfl
@[simp] theorem State.setSat_aonq (s : State) (f : Fld) (v : Nat) : (s.setSat f v).aonq = s.aonq := rfl
@[simp] theorem State.setSat_xtalBad (s : State) (f : Fld) (v : Nat) : (s.setSat f v).xtalBad = s.xtalBad := rfl
@[simp] theorem State.setSat_evSeq (s : State) (f : Fld) (v : Nat) : (s.setSat f v).evSeq = s.evSeq := rfl
@[simp] theorem State.setSat_free (s : State) (f : Fld) (v : Nat) : (s.setSat f v).free = s.free := rfl
@[simp] theorem State.setSat_nextH (s : State) (f : Fld) (v : Nat) : (s.setSat f v).nextH = s.nextH := rfl
@[simp] theorem State.setSat_cmds (s : State) (f : Fld) (v : Nat) : (s.setSat f v).cmds = s.cmds := rfl
@[simp] theorem State.setSat_out (s : State) (f : Fld) (v : Nat) : (s.setSat f v).out = s.out := rfl
@[simp] theorem State.setSat_stage (s : State) (f : Fld) (v : Nat) : (s.setSat f v).stage = s.stage := rfl
@[simp] theorem State.setSat_path (s : State) (f : Fld) (v : Nat) : (s.setSat f v).path = s.path := rfl
@[simp] theorem State.setSat_chg (s : State) (f : Fld) (v : Nat) : (s.setSat f v).chg = s.chg := rfl
@[simp] theorem State.setSat_bgt (s : State) (f : Fld) (v : Nat) : (s.setSat f v).bgt = s.bgt := rfl
@[simp] theorem State.setSat_ports (s : State) (f : Fld) (v : Nat) : (s.setSat f v).ports = s.ports := rfl
@[simp] theorem State.setSat_md (s : State) (f : Fld) (v : Nat) : (s.setSat f v).md = s.md := rfl
@[simp] theorem State.setSat_hif (s : State) (f : Fld) (v : Nat) : (s.setSat f v).hif = s.hif := rfl
@[simp] theorem State.setSat_twb (s : State) (f : Fld) (v : Nat) : (s.setSat f v).twb = s.twb := rfl
@[simp] theorem State.setSat_fw (s : State) (f : Fld) (v : Nat) : (s.setSat f v).fw = s.fw := rfl
@[simp] theorem State.setSat_csc (s : State) (f : Fld) (v : Nat) : (s.setSat f v).csc = s.csc := rfl
@[simp] theorem State.setSat_seq (s : State) (f : Fld) (v : Nat) : (s.setSat f v).seq = s.seq := rfl
@[simp] theorem State.setSat_cap (s : State) (f : Fld) (v : Nat) : (s.setSat f v).cap = s.cap := rfl
@[simp] theorem State.setSat_mbx (s : State) (f : Fld) (v : Nat) : (s.setSat f v).mbx = s.mbx := rfl
@[simp] theorem State.setSat_jk (s : State) (f : Fld) (v : Nat) : (s.setSat f v).jk = s.jk := rfl
@[simp] theorem State.setSat_tmr (s : State) (f : Fld) (v : Nat) : (s.setSat f v).tmr = s.tmr := rfl
@[simp] theorem State.setSat_thm (s : State) (f : Fld) (v : Nat) : (s.setSat f v).thm = s.thm := rfl
@[simp] theorem State.setSat_pending (s : State) (f : Fld) (v : Nat) : (s.setSat f v).pending = s.pending := rfl

/-! ### `State.seti` -/

@[simp] theorem State.seti_power (s : State) (f : Fld) (v : Int) : (s.seti f v).power = s.power := rfl
@[simp] theorem State.seti_ts (s : State) (f : Fld) (v : Int) : (s.seti f v).ts = s.ts := rfl
@[simp] theorem State.seti_aonq (s : State) (f : Fld) (v : Int) : (s.seti f v).aonq = s.aonq := rfl
@[simp] theorem State.seti_xtalBad (s : State) (f : Fld) (v : Int) : (s.seti f v).xtalBad = s.xtalBad := rfl
@[simp] theorem State.seti_evSeq (s : State) (f : Fld) (v : Int) : (s.seti f v).evSeq = s.evSeq := rfl
@[simp] theorem State.seti_free (s : State) (f : Fld) (v : Int) : (s.seti f v).free = s.free := rfl
@[simp] theorem State.seti_nextH (s : State) (f : Fld) (v : Int) : (s.seti f v).nextH = s.nextH := rfl
@[simp] theorem State.seti_cmds (s : State) (f : Fld) (v : Int) : (s.seti f v).cmds = s.cmds := rfl
@[simp] theorem State.seti_out (s : State) (f : Fld) (v : Int) : (s.seti f v).out = s.out := rfl
@[simp] theorem State.seti_stage (s : State) (f : Fld) (v : Int) : (s.seti f v).stage = s.stage := rfl
@[simp] theorem State.seti_path (s : State) (f : Fld) (v : Int) : (s.seti f v).path = s.path := rfl
@[simp] theorem State.seti_chg (s : State) (f : Fld) (v : Int) : (s.seti f v).chg = s.chg := rfl
@[simp] theorem State.seti_bgt (s : State) (f : Fld) (v : Int) : (s.seti f v).bgt = s.bgt := rfl
@[simp] theorem State.seti_ports (s : State) (f : Fld) (v : Int) : (s.seti f v).ports = s.ports := rfl
@[simp] theorem State.seti_md (s : State) (f : Fld) (v : Int) : (s.seti f v).md = s.md := rfl
@[simp] theorem State.seti_hif (s : State) (f : Fld) (v : Int) : (s.seti f v).hif = s.hif := rfl
@[simp] theorem State.seti_twb (s : State) (f : Fld) (v : Int) : (s.seti f v).twb = s.twb := rfl
@[simp] theorem State.seti_fw (s : State) (f : Fld) (v : Int) : (s.seti f v).fw = s.fw := rfl
@[simp] theorem State.seti_csc (s : State) (f : Fld) (v : Int) : (s.seti f v).csc = s.csc := rfl
@[simp] theorem State.seti_seq (s : State) (f : Fld) (v : Int) : (s.seti f v).seq = s.seq := rfl
@[simp] theorem State.seti_cap (s : State) (f : Fld) (v : Int) : (s.seti f v).cap = s.cap := rfl
@[simp] theorem State.seti_mbx (s : State) (f : Fld) (v : Int) : (s.seti f v).mbx = s.mbx := rfl
@[simp] theorem State.seti_jk (s : State) (f : Fld) (v : Int) : (s.seti f v).jk = s.jk := rfl
@[simp] theorem State.seti_tmr (s : State) (f : Fld) (v : Int) : (s.seti f v).tmr = s.tmr := rfl
@[simp] theorem State.seti_thm (s : State) (f : Fld) (v : Int) : (s.seti f v).thm = s.thm := rfl
@[simp] theorem State.seti_pending (s : State) (f : Fld) (v : Int) : (s.seti f v).pending = s.pending := rfl

/-! ### `State.bump` -/

@[simp] theorem State.bump_power (s : State) (f : Fld) : (s.bump f).power = s.power := rfl
@[simp] theorem State.bump_ts (s : State) (f : Fld) : (s.bump f).ts = s.ts := rfl
@[simp] theorem State.bump_aonq (s : State) (f : Fld) : (s.bump f).aonq = s.aonq := rfl
@[simp] theorem State.bump_xtalBad (s : State) (f : Fld) : (s.bump f).xtalBad = s.xtalBad := rfl
@[simp] theorem State.bump_evSeq (s : State) (f : Fld) : (s.bump f).evSeq = s.evSeq := rfl
@[simp] theorem State.bump_free (s : State) (f : Fld) : (s.bump f).free = s.free := rfl
@[simp] theorem State.bump_nextH (s : State) (f : Fld) : (s.bump f).nextH = s.nextH := rfl
@[simp] theorem State.bump_cmds (s : State) (f : Fld) : (s.bump f).cmds = s.cmds := rfl
@[simp] theorem State.bump_out (s : State) (f : Fld) : (s.bump f).out = s.out := rfl
@[simp] theorem State.bump_stage (s : State) (f : Fld) : (s.bump f).stage = s.stage := rfl
@[simp] theorem State.bump_path (s : State) (f : Fld) : (s.bump f).path = s.path := rfl
@[simp] theorem State.bump_chg (s : State) (f : Fld) : (s.bump f).chg = s.chg := rfl
@[simp] theorem State.bump_bgt (s : State) (f : Fld) : (s.bump f).bgt = s.bgt := rfl
@[simp] theorem State.bump_ports (s : State) (f : Fld) : (s.bump f).ports = s.ports := rfl
@[simp] theorem State.bump_md (s : State) (f : Fld) : (s.bump f).md = s.md := rfl
@[simp] theorem State.bump_hif (s : State) (f : Fld) : (s.bump f).hif = s.hif := rfl
@[simp] theorem State.bump_twb (s : State) (f : Fld) : (s.bump f).twb = s.twb := rfl
@[simp] theorem State.bump_fw (s : State) (f : Fld) : (s.bump f).fw = s.fw := rfl
@[simp] theorem State.bump_csc (s : State) (f : Fld) : (s.bump f).csc = s.csc := rfl
@[simp] theorem State.bump_seq (s : State) (f : Fld) : (s.bump f).seq = s.seq := rfl
@[simp] theorem State.bump_cap (s : State) (f : Fld) : (s.bump f).cap = s.cap := rfl
@[simp] theorem State.bump_mbx (s : State) (f : Fld) : (s.bump f).mbx = s.mbx := rfl
@[simp] theorem State.bump_jk (s : State) (f : Fld) : (s.bump f).jk = s.jk := rfl
@[simp] theorem State.bump_tmr (s : State) (f : Fld) : (s.bump f).tmr = s.tmr := rfl
@[simp] theorem State.bump_thm (s : State) (f : Fld) : (s.bump f).thm = s.thm := rfl
@[simp] theorem State.bump_pending (s : State) (f : Fld) : (s.bump f).pending = s.pending := rfl

/-! ### `State.setBit` -/

@[simp] theorem State.setBit_power (s : State) (f : Fld) (k : Nat) (b : Bool) : (s.setBit f k b).power = s.power := rfl
@[simp] theorem State.setBit_ts (s : State) (f : Fld) (k : Nat) (b : Bool) : (s.setBit f k b).ts = s.ts := rfl
@[simp] theorem State.setBit_aonq (s : State) (f : Fld) (k : Nat) (b : Bool) : (s.setBit f k b).aonq = s.aonq := rfl
@[simp] theorem State.setBit_xtalBad (s : State) (f : Fld) (k : Nat) (b : Bool) : (s.setBit f k b).xtalBad = s.xtalBad := rfl
@[simp] theorem State.setBit_evSeq (s : State) (f : Fld) (k : Nat) (b : Bool) : (s.setBit f k b).evSeq = s.evSeq := rfl
@[simp] theorem State.setBit_free (s : State) (f : Fld) (k : Nat) (b : Bool) : (s.setBit f k b).free = s.free := rfl
@[simp] theorem State.setBit_nextH (s : State) (f : Fld) (k : Nat) (b : Bool) : (s.setBit f k b).nextH = s.nextH := rfl
@[simp] theorem State.setBit_cmds (s : State) (f : Fld) (k : Nat) (b : Bool) : (s.setBit f k b).cmds = s.cmds := rfl
@[simp] theorem State.setBit_out (s : State) (f : Fld) (k : Nat) (b : Bool) : (s.setBit f k b).out = s.out := rfl
@[simp] theorem State.setBit_stage (s : State) (f : Fld) (k : Nat) (b : Bool) : (s.setBit f k b).stage = s.stage := rfl
@[simp] theorem State.setBit_path (s : State) (f : Fld) (k : Nat) (b : Bool) : (s.setBit f k b).path = s.path := rfl
@[simp] theorem State.setBit_chg (s : State) (f : Fld) (k : Nat) (b : Bool) : (s.setBit f k b).chg = s.chg := rfl
@[simp] theorem State.setBit_bgt (s : State) (f : Fld) (k : Nat) (b : Bool) : (s.setBit f k b).bgt = s.bgt := rfl
@[simp] theorem State.setBit_ports (s : State) (f : Fld) (k : Nat) (b : Bool) : (s.setBit f k b).ports = s.ports := rfl
@[simp] theorem State.setBit_md (s : State) (f : Fld) (k : Nat) (b : Bool) : (s.setBit f k b).md = s.md := rfl
@[simp] theorem State.setBit_hif (s : State) (f : Fld) (k : Nat) (b : Bool) : (s.setBit f k b).hif = s.hif := rfl
@[simp] theorem State.setBit_twb (s : State) (f : Fld) (k : Nat) (b : Bool) : (s.setBit f k b).twb = s.twb := rfl
@[simp] theorem State.setBit_fw (s : State) (f : Fld) (k : Nat) (b : Bool) : (s.setBit f k b).fw = s.fw := rfl
@[simp] theorem State.setBit_csc (s : State) (f : Fld) (k : Nat) (b : Bool) : (s.setBit f k b).csc = s.csc := rfl
@[simp] theorem State.setBit_seq (s : State) (f : Fld) (k : Nat) (b : Bool) : (s.setBit f k b).seq = s.seq := rfl
@[simp] theorem State.setBit_cap (s : State) (f : Fld) (k : Nat) (b : Bool) : (s.setBit f k b).cap = s.cap := rfl
@[simp] theorem State.setBit_mbx (s : State) (f : Fld) (k : Nat) (b : Bool) : (s.setBit f k b).mbx = s.mbx := rfl
@[simp] theorem State.setBit_jk (s : State) (f : Fld) (k : Nat) (b : Bool) : (s.setBit f k b).jk = s.jk := rfl
@[simp] theorem State.setBit_tmr (s : State) (f : Fld) (k : Nat) (b : Bool) : (s.setBit f k b).tmr = s.tmr := rfl
@[simp] theorem State.setBit_thm (s : State) (f : Fld) (k : Nat) (b : Bool) : (s.setBit f k b).thm = s.thm := rfl
@[simp] theorem State.setBit_pending (s : State) (f : Fld) (k : Nat) (b : Bool) : (s.setBit f k b).pending = s.pending := rfl

/-! ### Words and fields -/

@[simp] theorem State.setWord_regs (s : State) (a : Nat) (w : Word) : (s.setWord a w).regs = regWrite s.regs a w := rfl

/-- A write leaves every other word alone. -/
theorem State.word_setWord_ne (s : State) {a b : Nat} (w : Word) (h : b ≠ a) : (s.setWord a w).word b = s.word b :=
  regRead_regWrite_ne s.regs w h

/-- A written word reads without its reserved bits (R441). -/
theorem State.word_setWord_same {s : State} (h : s.Inv) (a : Nat) (w : Word) :
    (s.setWord a w).word a = w &&& RegMap.implMask a :=
  regRead_regWrite_same a w h

theorem State.word_set_ne (s : State) (f : Fld) (v : Nat) {b : Nat} (h : b ≠ f.addr) : (s.set f v).word b = s.word b :=
  State.word_setWord_ne s _ h

/-- Setting a field leaves the fields of other words alone. -/
theorem State.get_set_ne (s : State) (f g : Fld) (v : Nat) (h : g.addr ≠ f.addr) : (s.set f v).get g = s.get g := by
  simp only [State.get, State.word_set_ne s f v h]

theorem State.get_setb_ne (s : State) (f g : Fld) (b : Bool) (h : g.addr ≠ f.addr) : (s.setb f b).get g = s.get g :=
  State.get_set_ne s f g _ h

theorem State.get_setSat_ne (s : State) (f g : Fld) (v : Nat) (h : g.addr ≠ f.addr) : (s.setSat f v).get g = s.get g :=
  State.get_set_ne s f g _ h

theorem State.get_seti_ne (s : State) (f g : Fld) (v : Int) (h : g.addr ≠ f.addr) : (s.seti f v).get g = s.get g :=
  State.get_set_ne s f g _ h

theorem State.get_bump_ne (s : State) (f g : Fld) (h : g.addr ≠ f.addr) : (s.bump f).get g = s.get g :=
  State.get_set_ne s f g _ h

theorem State.get_setBit_ne (s : State) (f g : Fld) (k : Nat) (b : Bool) (h : g.addr ≠ f.addr) :
    (s.setBit f k b).get g = s.get g :=
  State.get_set_ne s f g _ h

/-- The two guards that every meaning uses. -/
theorem State.when_true {s : State} {c : Bool} (f : State → State) (h : s.power = .on) (hc : c = true) : s.when c f = f s := by
  simp [State.when, h, hc]

theorem State.when_power (s : State) (c : Bool) (f : State → State) (h : s.power ≠ .on) : s.when c f = s := by
  simp [State.when, h]

theorem State.when_false (s : State) (f : State → State) : s.when false f = s := by
  simp [State.when]

@[simp] theorem State.ifDo_true (s : State) (f : State → State) : s.ifDo true f = f s := rfl

@[simp] theorem State.ifDo_false (s : State) (f : State → State) : s.ifDo false f = s := rfl

/-- A free value comes from the counter, and drawing it changes nothing else. -/
theorem State.draw_spec (s : State) : s.draw = (Config.freeWord s.free, { s with free := s.free + 1 }) := rfl

end Sys2Proof.Machine
end

