-- ==== Sys2Proof/Laws/Commands.lean ====
section
/-! SUPPORT. What the shared operations over the outstanding commands can do: which command starts next, and how an operation
ends. -/

set_option Elab.async false

namespace Sys2Proof.Machine

/-- A command starts only while firmware runs, and not in KEEP-ALIVE. -/
theorem State.nextCmd_some {s : State} {c : Cmd} (h : s.nextCmd = some c) :
    s.fwRuns = true ∧ s.mode ≠ 1 ∧ firstStartable [] s.cmds = some c := by
  unfold State.nextCmd at h
  split at h
  · rename_i hc
    simp only [Bool.and_eq_true, bne_iff_ne, ne_eq] at hc
    exact ⟨hc.1, hc.2, h⟩
  · cases h

/-- A command that runs at once: its effect, then its completion. -/
theorem State.runCmd_done {s t : State} {c : Cmd} {r : Reply} {is : Cmd → Bool} {op : Cmd → State → CmdRes × State}
    (h : s.nextCmd = some c) (hi : is c = true) (ho : op c (s.markStarted c.handle) = (.done r, t)) :
    s.runCmd is op = t.complete c.handle r := by
  simp [State.runCmd, h, hi, ho]

/-- A command that stays outstanding: its effect, and no completion. -/
theorem State.runCmd_wait {s t : State} {c : Cmd} {is : Cmd → Bool} {op : Cmd → State → CmdRes × State}
    (h : s.nextCmd = some c) (hi : is c = true) (ho : op c (s.markStarted c.handle) = (.wait, t)) :
    s.runCmd is op = t.settle t.cmds.length := by
  simp [State.runCmd, h, hi, ho]

/-- With no command to start, a command row does nothing. -/
theorem State.runCmd_none {s : State} {is : Cmd → Bool} {op : Cmd → State → CmdRes × State} (h : s.nextCmd = none) :
    s.runCmd is op = s := by
  simp [State.runCmd, h]

/-- A command row acts only on a command that it names. -/
theorem State.runCmd_other {s : State} {c : Cmd} {is : Cmd → Bool} {op : Cmd → State → CmdRes × State} (h : s.nextCmd = some c)
    (hi : is c = false) : s.runCmd is op = s := by
  simp [State.runCmd, h, hi]

/-- Without firmware no completion is written. -/
theorem State.complete_noFw {s : State} (h : s.fwRuns = false) (k : Nat) (r : Reply) : s.complete k r = s := by
  simp [State.complete, h]

/-- Marking a command started changes nothing but the list of outstanding commands. -/
theorem State.markStarted_regs (s : State) (h : Nat) : (s.markStarted h).regs = s.regs := rfl

theorem State.markStarted_get (s : State) (h : Nat) (f : Fld) : (s.markStarted h).get f = s.get f := rfl

theorem State.markStarted_on (s : State) (h : Nat) (f : Fld) : (s.markStarted h).on f = s.on f := rfl

end Sys2Proof.Machine
end

