-- ==== Sys2Proof/Laws/Events.lean ====
section
/-! SUPPORT. What raising an event can change (R243): the registers of the event path, and the host, two-wire and firmware
parts of the state; nothing else. -/

set_option Elab.async false

namespace Sys2Proof.Machine

/-- The registers that the event path writes. -/
def eventReg (a : Nat) : Prop :=
  a = A.HIF_STATUS ∨ a = A.HIF_EVQ_STATUS ∨ a = A.TWB_STATUS ∨ a = A.LOG_STATUS ∨ a = A.HIF_MSIX_PBA 0

/-- The parts of the state that no event touches are the same. -/
structure EvRest (s t : State) : Prop where
  power : t.power = s.power
  ts : t.ts = s.ts
  aonq : t.aonq = s.aonq
  cmds : t.cmds = s.cmds
  stage : t.stage = s.stage
  path : t.path = s.path
  chg : t.chg = s.chg
  bgt : t.bgt = s.bgt
  ports : t.ports = s.ports
  md : t.md = s.md
  csc : t.csc = s.csc
  seq : t.seq = s.seq
  cap : t.cap = s.cap
  mbx : t.mbx = s.mbx
  jk : t.jk = s.jk
  tmr : t.tmr = s.tmr
  thm : t.thm = s.thm
  pending : t.pending = s.pending

/-- From `s` to `t` only the event path moved. -/
structure EvFrame (s t : State) : Prop where
  word : ∀ a, ¬ eventReg a → t.word a = s.word a
  rest : EvRest s t

theorem EvRest.trans {s t u : State} (h : EvRest s t) (k : EvRest t u) : EvRest s u :=
  ⟨k.power.trans h.power, k.ts.trans h.ts, k.aonq.trans h.aonq, k.cmds.trans h.cmds, k.stage.trans h.stage, k.path.trans h.path, k.chg.trans h.chg, k.bgt.trans h.bgt, k.ports.trans h.ports, k.md.trans h.md, k.csc.trans h.csc, k.seq.trans h.seq, k.cap.trans h.cap, k.mbx.trans h.mbx, k.jk.trans h.jk, k.tmr.trans h.tmr, k.thm.trans h.thm, k.pending.trans h.pending⟩

theorem EvFrame.refl (s : State) : EvFrame s s := ⟨fun _ _ => rfl, ⟨rfl, rfl, rfl, rfl, rfl, rfl, rfl, rfl, rfl, rfl, rfl, rfl, rfl, rfl, rfl, rfl, rfl, rfl⟩⟩

theorem EvFrame.trans {s t u : State} (h : EvFrame s t) (k : EvFrame t u) : EvFrame s u :=
  ⟨fun a ha => (k.word a ha).trans (h.word a ha), h.rest.trans k.rest⟩

/-- An update of the parts that an event touches. -/
theorem EvFrame.upd {s t : State} (hr : t.regs = s.regs) (k : EvRest s t) : EvFrame s t :=
  ⟨fun a _ => by simp only [State.word, hr], k⟩

theorem EvFrame.get {s t : State} (h : EvFrame s t) (f : Fld) (hf : ¬ eventReg f.addr) : t.get f = s.get f := by
  simp only [State.get, h.word _ hf]

theorem EvFrame.on {s t : State} (h : EvFrame s t) (f : Fld) (hf : ¬ eventReg f.addr) : t.on f = s.on f := by
  simp only [State.on, h.get f hf]

/-- Setting a field of a register of the event path. -/
theorem EvFrame.set (s : State) (f : Fld) (v : Nat) (h : eventReg f.addr) : EvFrame s (s.set f v) :=
  ⟨fun _ ha => State.word_set_ne s f v fun e => ha (e ▸ h), ⟨rfl, rfl, rfl, rfl, rfl, rfl, rfl, rfl, rfl, rfl, rfl, rfl, rfl, rfl, rfl, rfl, rfl, rfl⟩⟩

theorem State.toL0_ev (s : State) : EvFrame s s.toL0 :=
  ⟨fun _ ha => State.word_set_ne s _ _ fun e => ha (.inl e), ⟨rfl, rfl, rfl, rfl, rfl, rfl, rfl, rfl, rfl, rfl, rfl, rfl, rfl, rfl, rfl, rfl, rfl, rfl⟩⟩

theorem State.emit_ev (s : State) (e : Emit) : EvFrame s (s.emit e) := by
  unfold State.emit
  cases overLink e
  · exact .upd rfl ⟨rfl, rfl, rfl, rfl, rfl, rfl, rfl, rfl, rfl, rfl, rfl, rfl, rfl, rfl, rfl, rfl, rfl, rfl⟩
  · exact s.toL0_ev.trans (.upd rfl ⟨rfl, rfl, rfl, rfl, rfl, rfl, rfl, rfl, rfl, rfl, rfl, rfl, rfl, rfl, rfl, rfl, rfl, rfl⟩)

/-- A field's value stays below its width's power of two. -/
theorem State.get_lt (s : State) (f : Fld) : s.get f < 2 ^ f.width := Nat.mod_lt _ (Nat.two_pow_pos _)

theorem State.fire_ev (s : State) (v : Nat) (hv : v < 32) : EvFrame s (s.fire v) := by
  unfold State.fire
  split
  · refine EvFrame.set s _ _ (.inr (.inr (.inr (.inr ?_))))
    rw [Nat.div_eq_of_lt hv]
  · exact s.emit_ev _

theorem State.countEv_ev (s : State) : EvFrame s s.countEv := by
  unfold State.countEv
  split
  · refine EvFrame.trans ?_ (State.fire_ev _ _ (s.get_lt R.HIF_EVQ_CFG.VEC))
    exact .upd rfl ⟨rfl, rfl, rfl, rfl, rfl, rfl, rfl, rfl, rfl, rfl, rfl, rfl, rfl, rfl, rfl, rfl, rfl, rfl⟩
  · exact .upd rfl ⟨rfl, rfl, rfl, rfl, rfl, rfl, rfl, rfl, rfl, rfl, rfl, rfl, rfl, rfl, rfl, rfl, rfl, rfl⟩

theorem State.refreshAlert_ev (s : State) : EvFrame s s.refreshAlert := EvFrame.set s _ _ (.inr (.inr (.inl rfl)))

theorem State.setPending_ev (s : State) (n : Nat) : EvFrame s (s.setPending n) := by
  unfold State.setPending
  split
  · exact .refl s
  · lift_lets
    intro s1 tw s2
    have h : EvFrame s s1 := EvFrame.set s _ _ (.inr (.inr (.inl rfl)))
    have k : EvFrame s1 s2 := .upd rfl ⟨rfl, rfl, rfl, rfl, rfl, rfl, rfl, rfl, rfl, rfl, rfl, rfl, rfl, rfl, rfl, rfl, rfl, rfl⟩
    exact (h.trans k).trans (State.refreshAlert_ev s2)

theorem State.writeEvent_ev (s : State) (e : Event) : EvFrame s (s.writeEvent e) := by
  unfold State.writeEvent
  lift_lets
  intro tail base phase s1 hi s2 next s3 s4
  have h1 : EvFrame s s1 := s.emit_ev _
  have h2 : EvFrame s1 s2 := .upd rfl ⟨rfl, rfl, rfl, rfl, rfl, rfl, rfl, rfl, rfl, rfl, rfl, rfl, rfl, rfl, rfl, rfl, rfl, rfl⟩
  have h3 : EvFrame s2 s3 := .set s2 _ _ (.inr (.inl rfl))
  have h4 : EvFrame s3 s4 := .set s3 _ _ (.inr (.inl rfl))
  exact (((h1.trans h2).trans h3).trans h4).trans (State.countEv_ev s4)

theorem State.loseEvent_ev (s : State) : EvFrame s s.loseEvent :=
  ⟨fun _ ha => State.word_set_ne s _ _ fun e => ha (.inr (.inl e)), ⟨rfl, rfl, rfl, rfl, rfl, rfl, rfl, rfl, rfl, rfl, rfl, rfl, rfl, rfl, rfl, rfl, rfl, rfl⟩⟩

theorem State.postEvent_ev (s : State) (e : Event) : EvFrame s (s.postEvent e) := by
  unfold State.postEvent
  split
  · exact .refl s
  split
  · exact s.loseEvent_ev
  split
  · exact s.writeEvent_ev e
  split
  · exact .upd rfl ⟨rfl, rfl, rfl, rfl, rfl, rfl, rfl, rfl, rfl, rfl, rfl, rfl, rfl, rfl, rfl, rfl, rfl, rfl⟩
  · exact s.loseEvent_ev

theorem State.noteEvent_ev (s : State) (e : Event) : EvFrame s (s.noteEvent e) := by
  unfold State.noteEvent
  lift_lets
  intro tw s1
  have h : EvFrame s s1 := .upd rfl ⟨rfl, rfl, rfl, rfl, rfl, rfl, rfl, rfl, rfl, rfl, rfl, rfl, rfl, rfl, rfl, rfl, rfl, rfl⟩
  split
  · exact h.trans (State.setPending_ev s1 _)
  · exact h

theorem State.logEvent_ev (s : State) (e : Event) : EvFrame s (s.logEvent e).1 := by
  unfold State.logEvent
  split
  · exact .refl s
  split
  · exact .upd rfl ⟨rfl, rfl, rfl, rfl, rfl, rfl, rfl, rfl, rfl, rfl, rfl, rfl, rfl, rfl, rfl, rfl, rfl, rfl⟩
  split
  · exact .upd rfl ⟨rfl, rfl, rfl, rfl, rfl, rfl, rfl, rfl, rfl, rfl, rfl, rfl, rfl, rfl, rfl, rfl, rfl, rfl⟩
  · exact EvFrame.set s _ _ (.inr (.inr (.inr (.inl rfl))))

/-- The first part of raising an event: SEQ and the newest record of the type. -/
theorem State.seqNote_ev (s : State) (n : Nat) (e : Event) : EvFrame s (State.noteEvent { s with evSeq := n } e) :=
  EvFrame.trans (t := { s with evSeq := n }) (.upd rfl ⟨rfl, rfl, rfl, rfl, rfl, rfl, rfl, rfl, rfl, rfl, rfl, rfl, rfl, rfl, rfl, rfl, rfl, rfl⟩) (State.noteEvent_ev _ _)

theorem State.raiseOnly_ev (s : State) (typ : Nat) (p : List Byte) : EvFrame s (s.raiseOnly typ p) :=
  (s.seqNote_ev _ _).trans (State.postEvent_ev _ _)

/-- Raising an event moves only the event path. -/
theorem State.raise_ev (s : State) (typ : Nat) (p : List Byte) : EvFrame s (s.raise typ p) := by
  unfold State.raise
  lift_lets
  intro e r t
  have h : EvFrame s t := ((s.seqNote_ev _ e).trans (State.logEvent_ev _ e)).trans (State.postEvent_ev _ e)
  split
  · exact h.trans (State.raiseOnly_ev _ _ _)
  · exact h

theorem State.raiseFault_ev (s : State) (area cause idx aux : Nat) : EvFrame s (s.raiseFault area cause idx aux) := s.raise_ev _ _

end Sys2Proof.Machine
end

