-- ==== Sys2Proof/Laws/Fields.lean ====
section
/-! SUPPORT. Bit fields: what a field reads after a field of the same word was set (R7, R441). -/

set_option Elab.async false

namespace Sys2Proof.Machine

theorem testBit_getBits (w : Word) (lo width i : Nat) :
    (getBits w lo width).testBit i = (decide (i < width) && w.getLsbD (lo + i)) := by
  simp [getBits, Nat.testBit_mod_two_pow, Nat.testBit_div_two_pow, BitVec.getLsbD, Nat.add_comm]

theorem getLsbD_fieldMask (lo width j : Nat) :
    (fieldMask lo width).getLsbD j = (decide (j < 32) && decide (lo ≤ j) && decide (j - lo < width)) := by
  simp only [fieldMask, BitVec.getLsbD_ofNat, Nat.mul_comm _ (2 ^ lo), Nat.testBit_two_pow_mul, Nat.testBit_two_pow_sub_one]
  by_cases h : lo ≤ j <;> simp [h]

theorem getLsbD_putBits (w : Word) (lo width v j : Nat) :
    (putBits w lo width v).getLsbD j =
      (decide (j < 32) && if lo ≤ j ∧ j - lo < width then v.testBit (j - lo) else w.getLsbD j) := by
  by_cases hj : j < 32
  · simp only [putBits, BitVec.getLsbD_or, BitVec.getLsbD_and, BitVec.getLsbD_not, getLsbD_fieldMask, BitVec.getLsbD_ofNat,
      Nat.mul_comm _ (2 ^ lo), Nat.testBit_two_pow_mul, Nat.testBit_mod_two_pow, hj]
    by_cases h1 : lo ≤ j <;> by_cases h2 : j - lo < width <;> simp [h1, h2]
  · simp [hj, BitVec.getLsbD_of_ge _ _ (Nat.not_lt.1 hj)]

/-- The field that was set reads the value set, modulo its width, where its bits are implemented. -/
theorem getBits_putBits_same (w m : Word) (lo width v : Nat) (h : lo + width ≤ 32)
    (hm : fieldMask lo width &&& m = fieldMask lo width) :
    getBits (putBits w lo width v &&& m) lo width = v % 2 ^ width := by
  apply Nat.eq_of_testBit_eq
  intro i
  rw [testBit_getBits, Nat.testBit_mod_two_pow]
  by_cases hi : i < width
  · have hmi := congrArg (fun x => BitVec.getLsbD x (lo + i)) hm
    simp only [BitVec.getLsbD_and, getLsbD_fieldMask] at hmi
    have : lo + i < 32 := by omega
    simp only [this, hi, Nat.le_add_right, Nat.add_sub_cancel_left, decide_true, Bool.and_true, Bool.true_and] at hmi
    simp only [BitVec.getLsbD_and, getLsbD_putBits, hmi, this, hi, Nat.le_add_right, Nat.add_sub_cancel_left, and_self, if_true,
      decide_true, Bool.and_true, Bool.true_and]
  · simp [hi]

/-- A field of the same word that shares no bit with the one set reads as before. -/
theorem getBits_putBits_disj (w m : Word) (lo width v lo2 width2 : Nat) (hd : lo2 + width2 ≤ lo ∨ lo + width ≤ lo2)
    (hw : w &&& m = w) : getBits (putBits w lo width v &&& m) lo2 width2 = getBits w lo2 width2 := by
  apply Nat.eq_of_testBit_eq
  intro i
  rw [testBit_getBits, testBit_getBits]
  by_cases hi : i < width2
  · have hwi := congrArg (fun x => BitVec.getLsbD x (lo2 + i)) hw
    simp only [BitVec.getLsbD_and] at hwi
    have hn : ¬ (lo ≤ lo2 + i ∧ lo2 + i - lo < width) := by omega
    by_cases hj : lo2 + i < 32
    · simp only [BitVec.getLsbD_and, getLsbD_putBits, if_neg hn, hi, hj, decide_true, Bool.true_and, hwi]
    · simp [BitVec.getLsbD_of_ge _ _ (Nat.not_lt.1 hj)]
  · simp [hi]

/-- A field stands in its register: its bits are implemented. -/
def Fld.real (f : Fld) : Prop :=
  f.lo + f.width ≤ 32 ∧ fieldMask f.lo f.width &&& RegMap.implMask f.addr = fieldMask f.lo f.width

/-- The reset word of an address shows no reserved bit. -/
def resetClean (a : Nat) : Prop := RegMap.resetWord a &&& RegMap.implMask a = RegMap.resetWord a

theorem State.get_set_same {s : State} (h : s.Inv) (f : Fld) (v : Nat) (hf : f.real) :
    (s.set f v).get f = v % 2 ^ f.width := by
  simp only [State.get, State.set, State.word_setWord_same h]
  exact getBits_putBits_same _ _ _ _ _ hf.1 hf.2

theorem State.get_set_disj {s : State} (h : s.Inv) (f g : Fld) (v : Nat) (ha : g.addr = f.addr)
    (hd : g.lo + g.width ≤ f.lo ∨ f.lo + f.width ≤ g.lo) (hr : resetClean f.addr) : (s.set f v).get g = s.get g := by
  simp only [State.get, State.set, ha, State.word_setWord_same h]
  exact getBits_putBits_disj _ _ _ _ _ _ _ hd (regRead_impl h _ hr)

theorem State.get_setb_same {s : State} (h : s.Inv) (f : Fld) (b : Bool) (hf : f.real) (h1 : f.width = 1) :
    (s.setb f b).get f = ofBool b := by
  rw [State.setb, State.get_set_same h f _ hf, h1]
  cases b <;> rfl

end Sys2Proof.Machine
end

