-- ==== Sys2Proof/Laws/InvBase.lean ====
section
/-! SUPPORT. The canonical form of the register space under the primitive updates and the combinators of the model. -/

set_option Elab.async false

namespace Sys2Proof.Machine

/-- What answers a next state answers one in canonical form. -/
@[irreducible] def OutInv (r : Res) : Prop := ∀ t, r = .next t → t.Inv

/-- What a meaning that keeps the invariant answers. -/
theorem outInv_elim {s : State} (h : OutInv (.next s)) : s.Inv := by
  unfold OutInv at h
  exact h s rfl

theorem outInv_next {s : State} (h : s.Inv) : OutInv (.next s) := by
  unfold OutInv
  intro t ht
  cases ht
  exact h

/-- An update of anything but the register space. -/
theorem inv_upd {s : State} {p ts aq xb es fr nh cm ou sg pa ch bg po md hi tw fw cs se ca mb jk tm th pe} (h : s.Inv) :
    State.Inv (State.mk p ts s.regs aq xb es fr nh cm ou sg pa ch bg po md hi tw fw cs se ca mb jk tm th pe) := h

theorem inv_regReset {p ts aq xb es fr nh cm ou sg pa ch bg po md hi tw fw cs se ca mb jk tm th pe} (m : Dom)
    (rf : List (Nat × Word)) :
    State.Inv (State.mk p ts (regReset m rf) aq xb es fr nh cm ou sg pa ch bg po md hi tw fw cs se ca mb jk tm th pe) :=
  regReset_ok m rf

theorem inv_regsNil {p ts aq xb es fr nh cm ou sg pa ch bg po md hi tw fw cs se ca mb jk tm th pe} :
    State.Inv (State.mk p ts [] aq xb es fr nh cm ou sg pa ch bg po md hi tw fw cs se ca mb jk tm th pe) :=
  regsOk_nil

theorem inv_fst {α : Type} {x : State × α} {s : State} {a : α} (hx : x = (s, a)) (h : x.1.Inv) : s.Inv := by
  subst hx; exact h

theorem inv_snd {α : Type} {x : α × State} {s : State} {a : α} (hx : x = (a, s)) (h : x.2.Inv) : s.Inv := by
  subst hx; exact h

theorem inv_thd {α β : Type} {x : α × β × State} {s : State} {a : α} {b : β} (hx : x = (a, b, s)) (h : x.2.2.Inv) :
    s.Inv := by
  subst hx; exact h

theorem inv_foldl {α : Type} {l : List α} {f : State → α → State} {s : State} (h : s.Inv)
    (hf : ∀ t x, t.Inv → (f t x).Inv) : (l.foldl f s).Inv := by
  induction l generalizing s with
  | nil => exact h
  | cons x l ih => exact ih (hf s x h)

theorem inv_foldlFst {α β : Type} {l : List α} {f : State × β → α → State × β} {p : State × β} (h : p.1.Inv)
    (hf : ∀ (q : State × β) x, q.1.Inv → (f q x).1.Inv) : (l.foldl f p).1.Inv := by
  induction l generalizing p with
  | nil => exact h
  | cons x l ih => exact ih (hf p x h)

theorem inv_foldlSnd {α β : Type} {l : List α} {f : β × State → α → β × State} {p : β × State} (h : p.2.Inv)
    (hf : ∀ (q : β × State) x, q.2.Inv → (f q x).2.Inv) : (l.foldl f p).2.Inv := by
  induction l generalizing p with
  | nil => exact h
  | cons x l ih => exact ih (hf p x h)

theorem State.setWord_inv (s : State) (a : Nat) (w : Word) (h : s.Inv) : (s.setWord a w).Inv := regWrite_ok a w h

theorem State.set_inv (s : State) (f : Fld) (v : Nat) (h : s.Inv) : (s.set f v).Inv := regWrite_ok _ _ h

theorem State.setb_inv (s : State) (f : Fld) (b : Bool) (h : s.Inv) : (s.setb f b).Inv := regWrite_ok _ _ h

theorem State.setSat_inv (s : State) (f : Fld) (v : Nat) (h : s.Inv) : (s.setSat f v).Inv := regWrite_ok _ _ h

theorem State.seti_inv (s : State) (f : Fld) (v : Int) (h : s.Inv) : (s.seti f v).Inv := regWrite_ok _ _ h

theorem State.bump_inv (s : State) (f : Fld) (h : s.Inv) : (s.bump f).Inv := regWrite_ok _ _ h

theorem State.setBit_inv (s : State) (f : Fld) (k : Nat) (b : Bool) (h : s.Inv) : (s.setBit f k b).Inv := regWrite_ok _ _ h

theorem State.when_inv (s : State) (c : Bool) (f : State → State) (h : s.Inv) (hf : ∀ t, t.Inv → (f t).Inv) :
    (s.when c f).Inv := by
  unfold State.when
  split
  · exact hf s h
  · exact h

theorem State.ifDo_inv (s : State) (c : Bool) (f : State → State) (h : s.Inv) (hf : ∀ t, t.Inv → (f t).Inv) :
    (s.ifDo c f).Inv := by
  unfold State.ifDo
  split
  · exact hf s h
  · exact h

end Sys2Proof.Machine
end

