-- ==== Sys2Proof/Laws/InvOps.lean ====
section
/-! SUPPORT. Every operation of Machine/Ops.lean keeps the canonical form of the register space. -/

set_option Elab.async false

namespace Sys2Proof.Machine

theorem State.draw_inv (s : State) (hs : s.Inv) :
    (State.draw s).2.Inv := by
  unfold State.draw
  repeat' first
    | with_reducible assumption
    | fail_if_no_progress (with_reducible apply inv_upd)

theorem State.toL0_inv (s : State) (hs : s.Inv) :
    (State.toL0 s).Inv := by
  unfold State.toL0
  repeat' first
    | with_reducible assumption
    | ((try lift_lets); intro x; refine (show State.Inv x → _ from ?_) ?_; (on_goal 2 => subst x); (on_goal 1 => (intro hx; clear_value x)))
    | ((try lift_lets); intro x; clear_value x)
    | fail_if_no_progress (with_reducible apply inv_upd)
    | with_reducible first | apply State.setb_inv

theorem State.emit_inv (s : State) (e : Emit) (hs : s.Inv) :
    (State.emit s e).Inv := by
  unfold State.emit
  repeat' first
    | with_reducible assumption
    | ((try lift_lets); intro x; refine (show State.Inv x → _ from ?_) ?_; (on_goal 2 => subst x); (on_goal 1 => (intro hx; clear_value x)))
    | fail_if_no_progress (with_reducible apply inv_upd)
    | with_reducible first | apply State.toL0_inv
    | split

end Sys2Proof.Machine
end

