-- ==== Sys2Proof/Laws/InvFlags.lean ====
section
/-! SUPPORT. Every operation of Machine/Flags.lean keeps the canonical form of the register space. -/

set_option Elab.async false

namespace Sys2Proof.Machine

theorem State.fire_inv (s : State) (vec : Nat) (hs : s.Inv) :
    (State.fire s vec).Inv := by
  unfold State.fire
  repeat' first
    | with_reducible assumption
    | with_reducible first | apply State.setBit_inv | apply State.emit_inv | apply State.set_inv
    | split

theorem State.countEv_inv (s : State) (hs : s.Inv) :
    (State.countEv s).Inv := by
  unfold State.countEv
  repeat' first
    | with_reducible assumption
    | ((try lift_lets); intro x; clear_value x)
    | fail_if_no_progress (with_reducible apply inv_upd)
    | with_reducible first | apply State.fire_inv
    | split

theorem State.countCq_inv (s : State) (q : Fin 8) (hs : s.Inv) :
    (State.countCq s q).Inv := by
  unfold State.countCq
  repeat' first
    | with_reducible assumption
    | ((try lift_lets); intro x; clear_value x)
    | fail_if_no_progress (with_reducible apply inv_upd)
    | with_reducible first | apply State.set_inv | apply State.fire_inv
    | split

theorem State.errInfo_inv (s : State) (cause : Nat) (kind : Nat) (ring : Nat) (value : Nat) (hs : s.Inv) :
    (State.errInfo s cause kind ring value).Inv := by
  unfold State.errInfo
  repeat' first
    | with_reducible assumption
    | with_reducible first | apply State.set_inv
    | split

theorem State.refreshAlert_inv (s : State) (hs : s.Inv) :
    (State.refreshAlert s).Inv := by
  unfold State.refreshAlert
  repeat' first
    | with_reducible assumption
    | with_reducible first | apply State.setb_inv

theorem State.setPending_inv (s : State) (n : Nat) (hs : s.Inv) :
    (State.setPending s n).Inv := by
  unfold State.setPending
  repeat' first
    | with_reducible assumption
    | ((try lift_lets); intro x; refine (show State.Inv x → _ from ?_) ?_; (on_goal 2 => subst x); (on_goal 1 => (intro hx; clear_value x)))
    | ((try lift_lets); intro x; clear_value x)
    | fail_if_no_progress (with_reducible apply inv_upd)
    | with_reducible first | apply State.setBit_inv | apply State.refreshAlert_inv | apply State.set_inv
    | split

theorem State.clearPending_inv (s : State) (mask : Nat) (hs : s.Inv) :
    (State.clearPending s mask).Inv := by
  unfold State.clearPending
  repeat' first
    | with_reducible assumption
    | with_reducible first | apply State.set_inv | apply State.refreshAlert_inv

theorem State.writeEvent_inv (s : State) (e : Event) (hs : s.Inv) :
    (State.writeEvent s e).Inv := by
  unfold State.writeEvent
  repeat' first
    | with_reducible assumption
    | ((try lift_lets); intro x; refine (show State.Inv x → _ from ?_) ?_; (on_goal 2 => subst x); (on_goal 1 => (intro hx; clear_value x)))
    | ((try lift_lets); intro x; clear_value x)
    | fail_if_no_progress (with_reducible apply inv_upd)
    | with_reducible first | apply State.emit_inv | apply State.set_inv | apply State.setb_inv
        | apply State.countEv_inv

theorem State.loseEvent_inv (s : State) (hs : s.Inv) :
    (State.loseEvent s).Inv := by
  unfold State.loseEvent
  repeat' first
    | with_reducible assumption
    | ((try lift_lets); intro x; refine (show State.Inv x → _ from ?_) ?_; (on_goal 2 => subst x); (on_goal 1 => (intro hx; clear_value x)))
    | ((try lift_lets); intro x; clear_value x)
    | fail_if_no_progress (with_reducible apply inv_upd)
    | with_reducible first | apply State.bump_inv

theorem State.postEvent_inv (s : State) (e : Event) (hs : s.Inv) :
    (State.postEvent s e).Inv := by
  unfold State.postEvent
  repeat' first
    | with_reducible assumption
    | ((try lift_lets); intro x; clear_value x)
    | fail_if_no_progress (with_reducible apply inv_upd)
    | with_reducible first | apply State.loseEvent_inv | apply State.writeEvent_inv
    | split

theorem State.flushEvents_inv (s : State) (n : Nat) (h : s.Inv) : (s.flushEvents n).Inv := by
  induction n generalizing s with
  | zero => exact h
  | succ n ih =>
    unfold State.flushEvents
    split
    · exact h
    · split
      · exact ih _ (State.writeEvent_inv _ _ h)
      · exact h

theorem State.noteEvent_inv (s : State) (e : Event) (hs : s.Inv) :
    (State.noteEvent s e).Inv := by
  unfold State.noteEvent
  repeat' first
    | with_reducible assumption
    | ((try lift_lets); intro x; refine (show State.Inv x → _ from ?_) ?_; (on_goal 2 => subst x); (on_goal 1 => (intro hx; clear_value x)))
    | ((try lift_lets); intro x; clear_value x)
    | intro _
    | fail_if_no_progress (with_reducible apply inv_upd)
    | with_reducible first | apply State.setPending_inv | apply State.set_inv
    | split

theorem State.logEvent_inv (s : State) (e : Event) (hs : s.Inv) :
    (State.logEvent s e).1.Inv := by
  unfold State.logEvent
  repeat' first
    | with_reducible assumption
    | ((try lift_lets); intro x; clear_value x)
    | fail_if_no_progress (with_reducible apply inv_upd)
    | with_reducible first | apply State.bump_inv
    | split

theorem State.raiseOnly_inv (s : State) (typ : Nat) (payload : List Byte) (hs : s.Inv) :
    (State.raiseOnly s typ payload).Inv := by
  unfold State.raiseOnly
  repeat' first
    | with_reducible assumption
    | ((try lift_lets); intro x; clear_value x)
    | fail_if_no_progress (with_reducible apply inv_upd)
    | with_reducible first | apply State.noteEvent_inv | apply State.postEvent_inv

theorem State.raise_inv (s : State) (typ : Nat) (payload : List Byte) (hs : s.Inv) :
    (State.raise s typ payload).Inv := by
  unfold State.raise
  repeat' first
    | with_reducible assumption
    | ((try lift_lets); intro x; refine (show State.Inv x → _ from ?_) ?_; (on_goal 2 => subst x); (on_goal 1 => (intro hx; clear_value x)))
    | ((try lift_lets); intro x; refine (show State.Inv (Prod.fst x) → _ from ?_) ?_; (on_goal 2 => subst x); (on_goal 1 => (intro hx; clear_value x)))
    | ((try lift_lets); intro x; clear_value x)
    | fail_if_no_progress (with_reducible apply inv_upd)
    | with_reducible first | apply State.noteEvent_inv | apply State.logEvent_inv | apply State.postEvent_inv
        | apply State.raiseOnly_inv
    | split

theorem State.raiseFault_inv (s : State) (area : Nat) (cause : Nat) (idx : Nat) (aux : Nat) (hs : s.Inv) :
    (State.raiseFault s area cause idx aux).Inv := by
  unfold State.raiseFault
  repeat' first
    | with_reducible assumption
    | with_reducible first | apply State.raise_inv

theorem State.raiseMode_inv (s : State) (prev : Nat) (new : Nat) (cause : Nat) (hs : s.Inv) :
    (State.raiseMode s prev new cause).Inv := by
  unfold State.raiseMode
  repeat' first
    | with_reducible assumption
    | ((try lift_lets); intro x; refine (show State.Inv x → _ from ?_) ?_; (on_goal 2 => subst x); (on_goal 1 => (intro hx; clear_value x)))
    | ((try lift_lets); intro x; clear_value x)
    | fail_if_no_progress (with_reducible apply inv_upd)
    | with_reducible first | apply State.raise_inv | apply State.setPending_inv | apply State.set_inv
    | split

theorem State.raiseBudget_inv (s : State) (kind : Nat) (idx : Nat) (hs : s.Inv) :
    (State.raiseBudget s kind idx).Inv := by
  unfold State.raiseBudget
  repeat' first
    | with_reducible assumption
    | with_reducible first | apply State.raise_inv

theorem State.raiseCharge_inv (s : State) (kind : Nat) (prev : Nat) (hs : s.Inv) :
    (State.raiseCharge s kind prev).Inv := by
  unfold State.raiseCharge
  repeat' first
    | with_reducible assumption
    | with_reducible first | apply State.raise_inv

theorem State.raisePd_inv (s : State) (p : Fin 4) (kind : Nat) (new : Nat) (prev : Nat) (hs : s.Inv) :
    (State.raisePd s p kind new prev).Inv := by
  unfold State.raisePd
  repeat' first
    | with_reducible assumption
    | with_reducible first | apply State.raise_inv

theorem State.raiseMoist_inv (s : State) (p : Fin 4) (kind : Nat) (hs : s.Inv) :
    (State.raiseMoist s p kind).Inv := by
  unfold State.raiseMoist
  repeat' first
    | with_reducible assumption
    | with_reducible first | apply State.raise_inv

theorem State.raiseCascade_inv (s : State) (unit : Nat) (kind : Nat) (hs : s.Inv) :
    (State.raiseCascade s unit kind).Inv := by
  unfold State.raiseCascade
  repeat' first
    | with_reducible assumption
    | with_reducible first | apply State.raise_inv

theorem State.raiseFw_inv (s : State) (kind : Nat) (bank : Nat) (svn : Nat) (hs : s.Inv) :
    (State.raiseFw s kind bank svn).Inv := by
  unfold State.raiseFw
  repeat' first
    | with_reducible assumption
    | with_reducible first | apply State.raise_inv

theorem State.ringError_inv (s : State) (f : Fld) (bit : Nat) (cause : Nat) (kind : Nat) (ring : Nat) (value : Nat) (hs : s.Inv) :
    (State.ringError s f bit cause kind ring value).Inv := by
  unfold State.ringError
  repeat' first
    | with_reducible assumption
    | ((try lift_lets); intro x; refine (show State.Inv x → _ from ?_) ?_; (on_goal 2 => subst x); (on_goal 1 => (intro hx; clear_value x)))
    | with_reducible first | apply State.setBit_inv | apply State.errInfo_inv | apply State.raiseFault_inv
        | apply State.fire_inv

end Sys2Proof.Machine
end

