-- ==== Sys2Proof/Laws/InvCommands.lean ====
section
/-! SUPPORT. Every operation of Machine/Commands.lean keeps the canonical form of the register space. -/

set_option Elab.async false

namespace Sys2Proof.Machine

theorem State.writeCpl_inv (s : State) (h : HeldCpl) (hs : s.Inv) :
    (State.writeCpl s h).Inv := by
  unfold State.writeCpl
  repeat' first
    | with_reducible assumption
    | ((try lift_lets); intro x; refine (show State.Inv x → _ from ?_) ?_; (on_goal 2 => subst x); (on_goal 1 => (intro hx; clear_value x)))
    | ((try lift_lets); intro x; clear_value x)
    | with_reducible first | apply State.emit_inv | apply State.set_inv | apply State.setb_inv
        | apply State.countCq_inv
    | split

theorem State.flushCpls_inv (s : State) (hs : s.Inv) :
    (State.flushCpls s).Inv := by
  unfold State.flushCpls
  repeat' first
    | with_reducible assumption
    | (intro t y ht; have hg : State.Inv t := ht; clear hg)
    | ((try lift_lets); intro x; clear_value x)
    | intro _
    | fail_if_no_progress (with_reducible apply inv_upd)
    | with_reducible first | apply State.writeCpl_inv | apply inv_foldl

theorem State.ringReply_inv (s : State) (q : Nat) (c : Cmd) (r : Reply) (hs : s.Inv) :
    (State.ringReply s q c r).Inv := by
  unfold State.ringReply
  repeat' first
    | with_reducible assumption
    | ((try lift_lets); intro x; refine (show State.Inv x → _ from ?_) ?_; (on_goal 2 => subst x); (on_goal 1 => (intro hx; clear_value x)))
    | ((try lift_lets); intro x; clear_value x)
    | fail_if_no_progress (with_reducible apply inv_upd)
    | with_reducible first | apply State.set_inv | apply State.writeCpl_inv
    | split

theorem State.fetchRing_inv (s : State) (q : Nat) (hs : s.Inv) :
    (State.fetchRing s q).Inv := by
  unfold State.fetchRing
  repeat' first
    | with_reducible assumption
    | ((try lift_lets); intro x; refine (show State.Inv x → _ from ?_) ?_; (on_goal 2 => subst x); (on_goal 1 => (intro hx; clear_value x)))
    | ((try lift_lets); intro x; clear_value x)
    | fail_if_no_progress (with_reducible apply inv_upd)
    | with_reducible first | apply State.set_inv | apply State.emit_inv
    | split

theorem State.fetchTurns_inv (s : State) (hs : s.Inv) :
    (State.fetchTurns s).Inv := by
  unfold State.fetchTurns
  repeat' first
    | with_reducible assumption
    | (intro t y ht; have hg : State.Inv t := ht; clear hg)
    | intro _
    | with_reducible first | apply State.fetchRing_inv | apply inv_foldl | apply inv_foldlFst | apply inv_foldlSnd
    | split

theorem State.completeRing_inv (s : State) (q : Nat) (c : Cmd) (r : Reply) (hs : s.Inv) :
    (State.completeRing s q c r).Inv := by
  unfold State.completeRing
  repeat' first
    | with_reducible assumption
    | with_reducible first | apply State.ringReply_inv | apply State.fetchTurns_inv
    | split

theorem State.completeEc_inv (s : State) (c : Cmd) (r : Reply) (hs : s.Inv) :
    (State.completeEc s c r).Inv := by
  unfold State.completeEc
  repeat' first
    | with_reducible assumption
    | ((try lift_lets); intro x; refine (show State.Inv x → _ from ?_) ?_; (on_goal 2 => subst x); (on_goal 1 => (intro hx; clear_value x)))
    | ((try lift_lets); intro x; clear_value x)
    | fail_if_no_progress (with_reducible apply inv_upd)
    | with_reducible first | apply State.setPending_inv | apply State.set_inv
    | split

theorem State.finish_inv (s : State) (h : Nat) (r : Reply) (hs : s.Inv) :
    (State.finish s h r).Inv := by
  unfold State.finish
  repeat' first
    | with_reducible assumption
    | ((try lift_lets); intro x; refine (show State.Inv x → _ from ?_) ?_; (on_goal 2 => subst x); (on_goal 1 => (intro hx; clear_value x)))
    | intro _
    | fail_if_no_progress (with_reducible apply inv_upd)
    | with_reducible first | apply State.completeRing_inv | apply State.completeEc_inv
    | split

theorem State.settle_inv (s : State) (n : Nat) (h : s.Inv) : (s.settle n).Inv := by
  induction n generalizing s with
  | zero => exact h
  | succ n ih =>
    unfold State.settle
    split
    · exact h
    · split
      · exact h
      · exact ih _ (State.finish_inv _ _ _ h)

theorem State.raiseWdg_inv (s : State) (kind : Nat) (task : Nat) (code : Nat) (hs : s.Inv) :
    (State.raiseWdg s kind task code).Inv := by
  unfold State.raiseWdg
  repeat' first
    | with_reducible assumption
    | with_reducible first | apply State.raise_inv

theorem State.armFallback_inv (s : State) (hs : s.Inv) :
    (State.armFallback s).Inv := by
  unfold State.armFallback
  repeat' first
    | with_reducible assumption
    | with_reducible first | apply State.set_inv
    | split

theorem State.resetJack_inv (s : State) (hs : s.Inv) :
    (State.resetJack s).Inv := by
  unfold State.resetJack
  repeat' first
    | with_reducible assumption
    | (intro t y ht; have hg : State.Inv t := ht; clear hg)
    | ((try lift_lets); intro x; refine (show State.Inv x → _ from ?_) ?_; (on_goal 2 => subst x); (on_goal 1 => (intro hx; clear_value x)))
    | intro _
    | fail_if_no_progress (with_reducible apply inv_upd)
    | with_reducible first | apply State.setWord_inv | apply State.set_inv | apply inv_foldl

theorem State.startGap_inv (s : State) (g : Gap) (hs : s.Inv) :
    (State.startGap s g).Inv := by
  unfold State.startGap
  repeat' first
    | with_reducible assumption
    | ((try lift_lets); intro x; refine (show State.Inv x → _ from ?_) ?_; (on_goal 2 => subst x); (on_goal 1 => (intro hx; clear_value x)))
    | ((try lift_lets); intro x; clear_value x)
    | fail_if_no_progress (with_reducible apply inv_upd)
    | with_reducible first | apply State.set_inv | apply State.resetJack_inv | apply State.armFallback_inv
        | apply State.raiseFw_inv

theorem State.tryGap_inv (s : State) (hs : s.Inv) :
    (State.tryGap s).Inv := by
  unfold State.tryGap
  repeat' first
    | with_reducible assumption
    | ((try lift_lets); intro x; clear_value x)
    | intro _
    | fail_if_no_progress (with_reducible apply inv_upd)
    | with_reducible first | apply State.startGap_inv
    | split

theorem State.complete_inv (s : State) (h : Nat) (r : Reply) (hs : s.Inv) :
    (State.complete s h r).Inv := by
  unfold State.complete
  repeat' first
    | with_reducible assumption
    | with_reducible first | apply State.finish_inv | apply State.settle_inv | apply State.tryGap_inv
        | apply State.set_inv
    | split

theorem State.completeOpt_inv (s : State) (h : Option Nat) (r : Reply) (hs : s.Inv) :
    (State.completeOpt s h r).Inv := by
  unfold State.completeOpt
  repeat' first
    | with_reducible assumption
    | fail_if_no_progress (with_reducible apply inv_upd)
    | with_reducible first | apply State.complete_inv
    | split

theorem State.markStarted_inv (s : State) (h : Nat) (hs : s.Inv) :
    (State.markStarted s h).Inv := by
  unfold State.markStarted
  repeat' first
    | with_reducible assumption
    | intro _
    | fail_if_no_progress (with_reducible apply inv_upd)

theorem State.runCmd_inv (s : State) (is : Cmd → Bool) (op : Cmd → State → CmdRes × State) (hs : s.Inv) (hop : ∀ (x0 : Cmd) (x1 : State), x1.Inv → (op x0 x1).2.Inv) :
    (State.runCmd s is op).Inv := by
  unfold State.runCmd
  repeat' first
    | with_reducible assumption
    | fail_if_no_progress (with_reducible apply inv_upd)
    | with_reducible first | apply hop | apply State.markStarted_inv | apply State.complete_inv
        | apply State.settle_inv | apply State.set_inv
    | split
    | (refine inv_snd (by assumption) ?_)

end Sys2Proof.Machine
end

