-- ==== Sys2Proof/Laws/InvPowerOps.lean ====
section
/-! SUPPORT. Every operation of Machine/PowerOps.lean keeps the canonical form of the register space. -/

set_option Elab.async false

namespace Sys2Proof.Machine

theorem State.modPhase_inv (s : State) (ph : Fin 6) (f : Phase → Phase) (hs : s.Inv) :
    (State.modPhase s ph f).Inv := by
  unfold State.modPhase
  repeat' first
    | with_reducible assumption
    | ((try lift_lets); intro x; clear_value x)
    | fail_if_no_progress (with_reducible apply inv_upd)

theorem State.modGroup_inv (s : State) (g : Fin 2) (f : Group → Group) (hs : s.Inv) :
    (State.modGroup s g f).Inv := by
  unfold State.modGroup
  repeat' first
    | with_reducible assumption
    | ((try lift_lets); intro x; clear_value x)
    | fail_if_no_progress (with_reducible apply inv_upd)

theorem State.modBus_inv (s : State) (b : Fin 2) (f : Bus → Bus) (hs : s.Inv) :
    (State.modBus s b f).Inv := by
  unfold State.modBus
  repeat' first
    | with_reducible assumption
    | ((try lift_lets); intro x; clear_value x)
    | fail_if_no_progress (with_reducible apply inv_upd)

theorem State.modPath_inv (s : State) (p : Fin 4) (f : PortPath → PortPath) (hs : s.Inv) :
    (State.modPath s p f).Inv := by
  unfold State.modPath
  repeat' first
    | with_reducible assumption
    | ((try lift_lets); intro x; clear_value x)
    | fail_if_no_progress (with_reducible apply inv_upd)

theorem State.modTc_inv (s : State) (p : Fin 4) (f : TypeC → TypeC) (hs : s.Inv) :
    (State.modTc s p f).Inv := by
  unfold State.modTc
  repeat' first
    | with_reducible assumption
    | ((try lift_lets); intro x; clear_value x)
    | fail_if_no_progress (with_reducible apply inv_upd)

theorem State.modPe_inv (s : State) (p : Fin 4) (f : Policy → Policy) (hs : s.Inv) :
    (State.modPe s p f).Inv := by
  unfold State.modPe
  repeat' first
    | with_reducible assumption
    | ((try lift_lets); intro x; clear_value x)
    | fail_if_no_progress (with_reducible apply inv_upd)

theorem State.modPb_inv (s : State) (p : Fin 4) (f : PortBudget → PortBudget) (hs : s.Inv) :
    (State.modPb s p f).Inv := by
  unfold State.modPb
  repeat' first
    | with_reducible assumption
    | ((try lift_lets); intro x; clear_value x)
    | fail_if_no_progress (with_reducible apply inv_upd)

theorem State.eachPort_inv (s : State) (ps : List (Fin 4)) (f : State → Fin 4 → State) (hs : s.Inv) (hf : ∀ (x0 : State) (x1 : Fin 4), x0.Inv → (f x0 x1).Inv) :
    (State.eachPort s ps f).Inv := by
  unfold State.eachPort
  repeat' first
    | with_reducible assumption
    | with_reducible first | apply hf | apply inv_foldl

theorem State.eachPhase_inv (s : State) (ps : List (Fin 6)) (f : State → Fin 6 → State) (hs : s.Inv) (hf : ∀ (x0 : State) (x1 : Fin 6), x0.Inv → (f x0 x1).Inv) :
    (State.eachPhase s ps f).Inv := by
  unfold State.eachPhase
  repeat' first
    | with_reducible assumption
    | with_reducible first | apply hf | apply inv_foldl

theorem State.setChgPhase_inv (s : State) (phase : Nat) (hs : s.Inv) :
    (State.setChgPhase s phase).Inv := by
  unfold State.setChgPhase
  repeat' first
    | with_reducible assumption
    | ((try lift_lets); intro x; clear_value x)
    | with_reducible first | apply State.set_inv | apply State.raiseCharge_inv
    | split

theorem State.zeroCharge_inv (s : State) (hs : s.Inv) :
    (State.zeroCharge s).Inv := by
  unfold State.zeroCharge
  repeat' first
    | with_reducible assumption
    | with_reducible first | apply State.seti_inv

theorem State.saveEst_inv (s : State) (hs : s.Inv) :
    (State.saveEst s).Inv := by
  unfold State.saveEst
  repeat' first
    | with_reducible assumption
    | ((try lift_lets); intro x; clear_value x)
    | fail_if_no_progress (with_reducible apply inv_upd)

theorem State.endCycle_inv (s : State) (hs : s.Inv) :
    (State.endCycle s).Inv := by
  unfold State.endCycle
  repeat' first
    | with_reducible assumption
    | ((try lift_lets); intro x; refine (show State.Inv x → _ from ?_) ?_; (on_goal 2 => subst x); (on_goal 1 => (intro hx; clear_value x)))
    | ((try lift_lets); intro x; clear_value x)
    | fail_if_no_progress (with_reducible apply inv_upd)
    | with_reducible first | apply State.saveEst_inv | apply State.set_inv
    | split

theorem State.chargeInputLost_inv (s : State) (hs : s.Inv) :
    (State.chargeInputLost s).Inv := by
  unfold State.chargeInputLost
  repeat' first
    | with_reducible assumption
    | ((try lift_lets); intro x; refine (show State.Inv x → _ from ?_) ?_; (on_goal 2 => subst x); (on_goal 1 => (intro hx; clear_value x)))
    | with_reducible first | apply State.setBit_inv | apply State.setChgPhase_inv | apply State.zeroCharge_inv
        | apply State.set_inv
    | split

theorem State.reinterleave_inv (s : State) (g : Fin 2) (hs : s.Inv) :
    (State.reinterleave s g).Inv := by
  unfold State.reinterleave
  repeat' first
    | with_reducible assumption
    | intro _
    | fail_if_no_progress (with_reducible apply inv_upd)
    | with_reducible first | apply State.modGroup_inv

theorem State.gateOff_inv (s : State) (ph : Fin 6) (hs : s.Inv) :
    (State.gateOff s ph).Inv := by
  unfold State.gateOff
  repeat' first
    | with_reducible assumption
    | intro _
    | fail_if_no_progress (with_reducible apply inv_upd)
    | with_reducible first | apply State.setBit_inv | apply State.modPhase_inv

theorem State.groupStop_inv (s : State) (g : Fin 2) (hs : s.Inv) :
    (State.groupStop s g).Inv := by
  unfold State.groupStop
  repeat' first
    | with_reducible assumption
    | (intro t y ht; have hg : State.Inv t := ht; clear hg)
    | ((try lift_lets); intro x; refine (show State.Inv x → _ from ?_) ?_; (on_goal 2 => subst x); (on_goal 1 => (intro hx; clear_value x)))
    | intro _
    | fail_if_no_progress (with_reducible apply inv_upd)
    | with_reducible first | apply State.eachPhase_inv | apply State.gateOff_inv | apply State.set_inv
        | apply State.seti_inv | apply State.modGroup_inv

theorem State.parStop_inv (s : State) (hs : s.Inv) :
    (State.parStop s).Inv := by
  unfold State.parStop
  repeat' first
    | with_reducible assumption
    | ((try lift_lets); intro x; refine (show State.Inv x → _ from ?_) ?_; (on_goal 2 => subst x); (on_goal 1 => (intro hx; clear_value x)))
    | ((try lift_lets); intro x; clear_value x)
    | fail_if_no_progress (with_reducible apply inv_upd)
    | with_reducible first | apply State.groupStop_inv | apply State.set_inv | apply State.raiseCascade_inv
    | split

theorem State.startCheck_inv (s : State) (ph : Fin 6) (hs : s.Inv) :
    (State.startCheck s ph).Inv := by
  unfold State.startCheck
  repeat' first
    | with_reducible assumption
    | ((try lift_lets); intro x; refine (show State.Inv x → _ from ?_) ?_; (on_goal 2 => subst x); (on_goal 1 => (intro hx; clear_value x)))
    | intro _
    | fail_if_no_progress (with_reducible apply inv_upd)
    | with_reducible first | apply State.set_inv | apply State.modPhase_inv

theorem State.groupStart_inv (s : State) (g : Fin 2) (hs : s.Inv) :
    (State.groupStart s g).Inv := by
  unfold State.groupStart
  repeat' first
    | with_reducible assumption
    | (intro t y ht; have hg : State.Inv t := ht; clear hg)
    | ((try lift_lets); intro x; refine (show State.Inv x → _ from ?_) ?_; (on_goal 2 => subst x); (on_goal 1 => (intro hx; clear_value x)))
    | intro _
    | fail_if_no_progress (with_reducible apply inv_upd)
    | with_reducible exact inv_regReset _ _
    | with_reducible apply hfn
    | with_reducible apply State.eachPhase_inv
    | with_reducible apply State.startCheck_inv
    | with_reducible apply State.modPhase_inv
    | with_reducible apply State.modGroup_inv
    | with_reducible apply outInv_next
    | with_reducible apply inv_foldl
    | with_reducible apply inv_foldlFst
    | with_reducible apply inv_foldlSnd
    | split

theorem State.groupDir_inv (s : State) (g : Fin 2) (src : Bool) (hs : s.Inv) :
    (State.groupDir s g src).Inv := by
  unfold State.groupDir
  repeat' first
    | with_reducible assumption
    | intro _
    | fail_if_no_progress (with_reducible apply inv_upd)
    | with_reducible first | apply State.setb_inv | apply State.modGroup_inv | apply State.set_inv
    | split

theorem State.endShed_inv (s : State) (p : Fin 4) (kind : Nat) (hs : s.Inv) :
    (State.endShed s p kind).Inv := by
  unfold State.endShed
  repeat' first
    | with_reducible assumption
    | ((try lift_lets); intro x; refine (show State.Inv x → _ from ?_) ?_; (on_goal 2 => subst x); (on_goal 1 => (intro hx; clear_value x)))
    | intro _
    | fail_if_no_progress (with_reducible apply inv_upd)
    | with_reducible first | apply State.modPb_inv | apply State.setBit_inv | apply State.raiseBudget_inv
        | apply State.set_inv
    | split

theorem State.endString_inv (s : State) (p : Fin 4) (hs : s.Inv) :
    (State.endString s p).Inv := by
  unfold State.endString
  repeat' first
    | with_reducible assumption
    | intro _
    | fail_if_no_progress (with_reducible apply inv_upd)
    | with_reducible first | apply State.endShed_inv | apply State.modPb_inv | apply State.set_inv

theorem State.endInput_inv (s : State) (p : Fin 4) (hs : s.Inv) :
    (State.endInput s p).Inv := by
  unfold State.endInput
  repeat' first
    | with_reducible assumption
    | intro _
    | fail_if_no_progress (with_reducible apply inv_upd)
    | with_reducible first | apply State.set_inv | apply State.modPb_inv | apply State.setBit_inv

theorem State.fillCredit_inv (s : State) (hs : s.Inv) :
    (State.fillCredit s).Inv := by
  unfold State.fillCredit
  repeat' first
    | with_reducible assumption
    | ((try lift_lets); intro x; refine (show State.Inv x → _ from ?_) ?_; (on_goal 2 => subst x); (on_goal 1 => (intro hx; clear_value x)))
    | ((try lift_lets); intro x; clear_value x)
    | fail_if_no_progress (with_reducible apply inv_upd)
    | with_reducible first | apply State.set_inv

theorem State.setConn_inv (s : State) (b : Fin 2) (c : Option (Fin 4)) (hs : s.Inv) :
    (State.setConn s b c).Inv := by
  unfold State.setConn
  repeat' first
    | with_reducible assumption
    | fail_if_no_progress (with_reducible apply inv_upd)
    | with_reducible first | apply State.set_inv
    | split

theorem State.abortSelect_inv (s : State) (hs : s.Inv) :
    (State.abortSelect s).Inv := by
  unfold State.abortSelect
  repeat' first
    | with_reducible assumption
    | ((try lift_lets); intro x; refine (show State.Inv x → _ from ?_) ?_; (on_goal 2 => subst x); (on_goal 1 => (intro hx; clear_value x)))
    | ((try lift_lets); intro x; clear_value x)
    | intro _
    | fail_if_no_progress (with_reducible apply inv_upd)
    | with_reducible first | apply State.modBus_inv | apply State.completeOpt_inv
    | split

theorem State.finishSelect_inv (s : State) (hs : s.Inv) :
    (State.finishSelect s).Inv := by
  unfold State.finishSelect
  repeat' first
    | with_reducible assumption
    | ((try lift_lets); intro x; clear_value x)
    | fail_if_no_progress (with_reducible apply inv_upd)
    | with_reducible first | apply State.completeOpt_inv
    | split

theorem State.closeOrSettle_inv (s : State) (b : Fin 2) (p : Fin 4) (vin : Nat) (vbus : Nat) (hs : s.Inv) :
    (State.closeOrSettle s b p vin vbus).Inv := by
  unfold State.closeOrSettle
  repeat' first
    | with_reducible assumption
    | intro _
    | fail_if_no_progress (with_reducible apply inv_upd)
    | with_reducible exact inv_regReset _ _
    | with_reducible apply hfn
    | with_reducible apply State.modBus_inv
    | with_reducible apply State.settle_inv
    | with_reducible apply State.groupStart_inv
    | with_reducible apply State.groupStop_inv
    | with_reducible apply State.set_inv
    | with_reducible apply outInv_next
    | with_reducible apply inv_foldl
    | with_reducible apply inv_foldlFst
    | with_reducible apply inv_foldlSnd
    | split

theorem State.beginConnect_inv (s : State) (b : Fin 2) (p : Fin 4) (hs : s.Inv) :
    (State.beginConnect s b p).Inv := by
  unfold State.beginConnect
  repeat' first
    | with_reducible assumption
    | with_reducible first | apply State.closeOrSettle_inv

theorem State.beginMove_inv (s : State) (b : Fin 2) (p : Option (Fin 4)) (hs : s.Inv) :
    (State.beginMove s b p).Inv := by
  unfold State.beginMove
  repeat' first
    | with_reducible assumption
    | intro _
    | fail_if_no_progress (with_reducible apply inv_upd)
    | with_reducible first | apply State.modBus_inv

theorem State.autoBus_inv (s : State) (b : Fin 2) (hs : s.Inv) :
    (State.autoBus s b).Inv := by
  unfold State.autoBus
  repeat' first
    | with_reducible assumption
    | fail_if_no_progress (with_reducible apply inv_upd)
    | with_reducible first | apply State.beginConnect_inv
    | split

theorem State.autoSelect_inv (s : State) (hs : s.Inv) :
    (State.autoSelect s).Inv := by
  unfold State.autoSelect
  repeat' first
    | with_reducible assumption
    | with_reducible first | apply State.autoBus_inv

theorem State.setPe_inv (s : State) (p : Fin 4) (st : Nat) (hs : s.Inv) :
    (State.setPe s p st).Inv := by
  unfold State.setPe
  repeat' first
    | with_reducible assumption
    | ((try lift_lets); intro x; clear_value x)
    | with_reducible first | apply State.set_inv | apply State.raisePd_inv
    | split

theorem State.discharge_inv (s : State) (p : Fin 4) (level : Nat) (hs : s.Inv) :
    (State.discharge s p level).Inv := by
  unfold State.discharge
  repeat' first
    | with_reducible assumption
    | intro _
    | fail_if_no_progress (with_reducible apply inv_upd)
    | with_reducible first | apply State.modTc_inv

theorem State.stopSource_inv (s : State) (p : Fin 4) (level : Nat) (hs : s.Inv) :
    (State.stopSource s p level).Inv := by
  unfold State.stopSource
  repeat' first
    | with_reducible assumption
    | ((try lift_lets); intro x; refine (show State.Inv x → _ from ?_) ?_; (on_goal 2 => subst x); (on_goal 1 => (intro hx; clear_value x)))
    | intro _
    | fail_if_no_progress (with_reducible apply inv_upd)
    | with_reducible exact inv_regReset _ _
    | with_reducible apply hfn
    | with_reducible apply State.groupStop_inv
    | with_reducible apply State.setConn_inv
    | with_reducible apply State.setb_inv
    | with_reducible apply State.modBus_inv
    | with_reducible apply State.modPath_inv
    | with_reducible apply State.setBit_inv
    | with_reducible apply State.endString_inv
    | with_reducible apply State.discharge_inv
    | with_reducible apply State.set_inv
    | with_reducible apply outInv_next
    | with_reducible apply inv_foldl
    | with_reducible apply inv_foldlFst
    | with_reducible apply inv_foldlSnd
    | split

theorem State.frsSend_inv (s : State) (p : Fin 4) (hs : s.Inv) :
    (State.frsSend s p).Inv := by
  unfold State.frsSend
  repeat' first
    | with_reducible assumption
    | ((try lift_lets); intro x; refine (show State.Inv x → _ from ?_) ?_; (on_goal 2 => subst x); (on_goal 1 => (intro hx; clear_value x)))
    | intro _
    | fail_if_no_progress (with_reducible apply inv_upd)
    | with_reducible first | apply State.stopSource_inv | apply State.modPe_inv | apply State.set_inv
        | apply State.raisePd_inv | apply State.setPe_inv

theorem State.handOver_inv (s : State) (hs : s.Inv) :
    (State.handOver s).Inv := by
  unfold State.handOver
  repeat' first
    | with_reducible assumption
    | (intro t y ht; have hg : State.Inv t := ht; clear hg)
    | ((try lift_lets); intro x; refine (show State.Inv x → _ from ?_) ?_; (on_goal 2 => subst x); (on_goal 1 => (intro hx; clear_value x)))
    | ((try lift_lets); intro x; clear_value x)
    | intro _
    | fail_if_no_progress (with_reducible apply inv_upd)
    | with_reducible first | apply State.eachPort_inv | apply State.frsSend_inv | apply State.set_inv
    | split

theorem State.loseSink_inv (s : State) (b : Fin 2) (hs : s.Inv) :
    (State.loseSink s b).Inv := by
  unfold State.loseSink
  repeat' first
    | with_reducible assumption
    | ((try lift_lets); intro x; refine (show State.Inv x → _ from ?_) ?_; (on_goal 2 => subst x); (on_goal 1 => (intro hx; clear_value x)))
    | ((try lift_lets); intro x; clear_value x)
    | intro _
    | fail_if_no_progress (with_reducible apply inv_upd)
    | with_reducible first | apply State.groupStop_inv | apply State.setConn_inv | apply State.modBus_inv
        | apply State.endInput_inv | apply State.chargeInputLost_inv | apply State.handOver_inv

theorem State.setTc_inv (s : State) (p : Fin 4) (st : Nat) (hs : s.Inv) :
    (State.setTc s p st).Inv := by
  unfold State.setTc
  repeat' first
    | with_reducible assumption
    | ((try lift_lets); intro x; refine (show State.Inv x → _ from ?_) ?_; (on_goal 2 => subst x); (on_goal 1 => (intro hx; clear_value x)))
    | ((try lift_lets); intro x; clear_value x)
    | with_reducible first | apply State.set_inv | apply State.setb_inv | apply State.raisePd_inv
    | split

theorem State.setTerm_inv (s : State) (p : Fin 4) (t : CcTerm) (hs : s.Inv) :
    (State.setTerm s p t).Inv := by
  unfold State.setTerm
  repeat' first
    | with_reducible assumption
    | intro _
    | fail_if_no_progress (with_reducible apply inv_upd)
    | with_reducible first | apply State.modTc_inv

theorem State.clearContract_inv (s : State) (p : Fin 4) (hs : s.Inv) :
    (State.clearContract s p).Inv := by
  unfold State.clearContract
  repeat' first
    | with_reducible assumption
    | ((try lift_lets); intro x; refine (show State.Inv x → _ from ?_) ?_; (on_goal 2 => subst x); (on_goal 1 => (intro hx; clear_value x)))
    | intro _
    | fail_if_no_progress (with_reducible apply inv_upd)
    | with_reducible first | apply State.set_inv | apply State.setBit_inv | apply State.modPath_inv

theorem State.endEpr_inv (s : State) (p : Fin 4) (hs : s.Inv) :
    (State.endEpr s p).Inv := by
  unfold State.endEpr
  repeat' first
    | with_reducible assumption
    | with_reducible first | apply State.set_inv | apply State.raisePd_inv
    | split

theorem State.setContract_inv (s : State) (p : Fin 4) (kind : Nat) (pos : Nat) (mv : Nat) (ma : Nat) (sink : Bool) (hs : s.Inv) :
    (State.setContract s p kind pos mv ma sink).Inv := by
  unfold State.setContract
  repeat' first
    | with_reducible assumption
    | ((try lift_lets); intro x; refine (show State.Inv x → _ from ?_) ?_; (on_goal 2 => subst x); (on_goal 1 => (intro hx; clear_value x)))
    | ((try lift_lets); intro x; clear_value x)
    | with_reducible first | apply State.setb_inv | apply State.set_inv | apply State.seti_inv
        | apply State.setBit_inv

theorem State.vconnOff_inv (s : State) (p : Fin 4) (hs : s.Inv) :
    (State.vconnOff s p).Inv := by
  unfold State.vconnOff
  repeat' first
    | with_reducible assumption
    | with_reducible first | apply State.set_inv

theorem State.endPe_inv (s : State) (p : Fin 4) (status : Nat) (code : Nat) (hs : s.Inv) :
    (State.endPe s p status code).Inv := by
  unfold State.endPe
  repeat' first
    | with_reducible assumption
    | ((try lift_lets); intro x; refine (show State.Inv x → _ from ?_) ?_; (on_goal 2 => subst x); (on_goal 1 => (intro hx; clear_value x)))
    | ((try lift_lets); intro x; clear_value x)
    | intro _
    | fail_if_no_progress (with_reducible apply inv_upd)
    | with_reducible first | apply State.modPe_inv | apply State.modTc_inv | apply State.set_inv
        | apply State.completeOpt_inv

theorem State.startSource_inv (s : State) (p : Fin 4) (hs : s.Inv) :
    (State.startSource s p).Inv := by
  unfold State.startSource
  repeat' first
    | with_reducible assumption
    | ((try lift_lets); intro x; refine (show State.Inv x → _ from ?_) ?_; (on_goal 2 => subst x); (on_goal 1 => (intro hx; clear_value x)))
    | intro _
    | fail_if_no_progress (with_reducible apply inv_upd)
    | with_reducible exact inv_regReset _ _
    | with_reducible apply hfn
    | with_reducible apply State.groupDir_inv
    | with_reducible apply State.modPath_inv
    | with_reducible apply State.groupStart_inv
    | with_reducible apply outInv_next
    | with_reducible apply inv_foldl
    | with_reducible apply inv_foldlFst
    | with_reducible apply inv_foldlSnd
    | split

theorem State.leaveBus_inv (s : State) (p : Fin 4) (hs : s.Inv) :
    (State.leaveBus s p).Inv := by
  unfold State.leaveBus
  repeat' first
    | with_reducible assumption
    | ((try lift_lets); intro x; refine (show State.Inv x → _ from ?_) ?_; (on_goal 2 => subst x); (on_goal 1 => (intro hx; clear_value x)))
    | ((try lift_lets); intro x; refine (show (∀ t y, State.Inv t → State.Inv (x t y)) → _ from ?_) ?_; (on_goal 2 => (subst x; intro _ _ _; beta_reduce)); (on_goal 1 => (intro hfn; clear_value x)))
    | intro _
    | fail_if_no_progress (with_reducible apply inv_upd)
    | with_reducible first | apply hfn | apply State.loseSink_inv | apply State.settle_inv | apply State.modBus_inv
        | apply State.set_inv
    | split

theorem State.detachPort_inv (s : State) (p : Fin 4) (hs : s.Inv) :
    (State.detachPort s p).Inv := by
  unfold State.detachPort
  repeat' first
    | with_reducible assumption
    | ((try lift_lets); intro x; refine (show State.Inv x → _ from ?_) ?_; (on_goal 2 => subst x); (on_goal 1 => (intro hx; clear_value x)))
    | intro _
    | fail_if_no_progress (with_reducible apply inv_upd)
    | with_reducible exact inv_regReset _ _
    | with_reducible apply hfn
    | with_reducible apply State.stopSource_inv
    | with_reducible apply State.leaveBus_inv
    | with_reducible apply State.vconnOff_inv
    | with_reducible apply State.endPe_inv
    | with_reducible apply State.endEpr_inv
    | with_reducible apply State.clearContract_inv
    | with_reducible apply State.set_inv
    | with_reducible apply State.setBit_inv
    | with_reducible apply State.modPath_inv
    | with_reducible apply State.modPb_inv
    | with_reducible apply State.modTc_inv

theorem State.errorRecovery_inv (s : State) (p : Fin 4) (hs : s.Inv) :
    (State.errorRecovery s p).Inv := by
  unfold State.errorRecovery
  repeat' first
    | with_reducible assumption
    | intro _
    | fail_if_no_progress (with_reducible apply inv_upd)
    | with_reducible exact inv_regReset _ _
    | with_reducible apply hfn
    | with_reducible apply State.detachPort_inv
    | with_reducible apply State.setTerm_inv
    | with_reducible apply State.setTc_inv
    | with_reducible apply State.setPe_inv

theorem State.setMode_inv (s : State) (m : Nat) (cause : Nat) (hs : s.Inv) :
    (State.setMode s m cause).Inv := by
  unfold State.setMode
  repeat' first
    | with_reducible assumption
    | ((try lift_lets); intro x; clear_value x)
    | with_reducible first | apply State.set_inv | apply State.raiseMode_inv
    | split

theorem State.safePort_inv (s : State) (p : Fin 4) (hs : s.Inv) :
    (State.safePort s p).Inv := by
  unfold State.safePort
  repeat' first
    | with_reducible assumption
    | with_reducible first | apply State.frsSend_inv | apply State.stopSource_inv | apply State.setTerm_inv
        | apply State.set_inv
    | split

theorem State.finishMap_inv (s : State) (hs : s.Inv) :
    (State.finishMap s).Inv := by
  unfold State.finishMap
  repeat' first
    | with_reducible assumption
    | (intro t y ht; have hg : State.Inv t := ht; clear hg)
    | ((try lift_lets); intro x; refine (show State.Inv x → _ from ?_) ?_; (on_goal 2 => subst x); (on_goal 1 => (intro hx; clear_value x)))
    | ((try lift_lets); intro x; clear_value x)
    | intro _
    | fail_if_no_progress (with_reducible apply inv_upd)
    | with_reducible first | apply State.eachPhase_inv | apply State.modPhase_inv | apply State.completeOpt_inv
    | split

theorem State.safeEnter_inv (s : State) (cause : Nat) (hs : s.Inv) :
    (State.safeEnter s cause).Inv := by
  unfold State.safeEnter
  repeat' first
    | with_reducible assumption
    | (intro t y ht; have hg : State.Inv t := ht; clear hg)
    | ((try lift_lets); intro x; refine (show State.Inv x → _ from ?_) ?_; (on_goal 2 => subst x); (on_goal 1 => (intro hx; clear_value x)))
    | ((try lift_lets); intro x; clear_value x)
    | intro _
    | fail_if_no_progress (with_reducible apply inv_upd)
    | with_reducible exact inv_regReset _ _
    | with_reducible apply hfn
    | with_reducible apply State.setBit_inv
    | with_reducible apply State.set_inv
    | with_reducible apply State.raiseFault_inv
    | with_reducible apply State.eachPort_inv
    | with_reducible apply State.safePort_inv
    | with_reducible apply State.loseSink_inv
    | with_reducible apply State.groupStop_inv
    | with_reducible apply State.modBus_inv
    | with_reducible apply State.abortSelect_inv
    | with_reducible apply State.finishMap_inv
    | with_reducible apply State.endCycle_inv
    | with_reducible apply State.zeroCharge_inv
    | with_reducible apply State.setChgPhase_inv
    | with_reducible apply State.raiseMode_inv
    | with_reducible apply outInv_next
    | with_reducible apply inv_foldl
    | with_reducible apply inv_foldlFst
    | with_reducible apply inv_foldlSnd
    | split

theorem State.writePmax_inv (s : State) (g : Fin 2) (hs : s.Inv) :
    (State.writePmax s g).Inv := by
  unfold State.writePmax
  repeat' first
    | with_reducible assumption
    | with_reducible first | apply State.set_inv

theorem State.releaseGroup_inv (s : State) (g : Fin 2) (hs : s.Inv) :
    (State.releaseGroup s g).Inv := by
  unfold State.releaseGroup
  repeat' first
    | with_reducible assumption
    | (intro t y ht; have hg : State.Inv t := ht; clear hg)
    | ((try lift_lets); intro x; refine (show State.Inv x → _ from ?_) ?_; (on_goal 2 => subst x); (on_goal 1 => (intro hx; clear_value x)))
    | intro _
    | with_reducible first | apply State.loseSink_inv | apply State.abortSelect_inv | apply State.groupStop_inv
        | apply State.eachPort_inv | apply State.stopSource_inv
    | split

theorem State.retire_inv (s : State) (ph : Fin 6) (cause : Nat) (hs : s.Inv) :
    (State.retire s ph cause).Inv := by
  unfold State.retire
  repeat' first
    | with_reducible assumption
    | ((try lift_lets); intro x; refine (show State.Inv x → _ from ?_) ?_; (on_goal 2 => subst x); (on_goal 1 => (intro hx; clear_value x)))
    | ((try lift_lets); intro x; clear_value x)
    | intro _
    | fail_if_no_progress (with_reducible apply inv_upd)
    | with_reducible exact inv_regReset _ _
    | with_reducible apply hfn
    | with_reducible apply State.gateOff_inv
    | with_reducible apply State.setBit_inv
    | with_reducible apply State.set_inv
    | with_reducible apply State.modPhase_inv
    | with_reducible apply State.raiseFault_inv
    | with_reducible apply State.reinterleave_inv
    | with_reducible apply State.writePmax_inv
    | with_reducible apply State.releaseGroup_inv
    | with_reducible apply State.safeEnter_inv
    | with_reducible apply outInv_next
    | with_reducible apply inv_foldl
    | with_reducible apply inv_foldlFst
    | with_reducible apply inv_foldlSnd
    | split

end Sys2Proof.Machine
end

