-- ==== Sys2Proof/Laws/InvStage.lean ====
section
/-! SUPPORT. Every operation of Machine/Stage.lean keeps the canonical form of the register space. -/

set_option Elab.async false

namespace Sys2Proof.Machine

theorem State.startSwitching_inv (s : State) (ph : Fin 6) (hs : s.Inv) :
    (State.startSwitching s ph).Inv := by
  unfold State.startSwitching
  exact State.reinterleave_inv _ _ (State.setBit_inv _ _ _ _ (State.modPhase_inv _ _ _
    (State.when_inv _ _ _ hs fun t ht => State.modGroup_inv t _ _ ht)))

theorem execBootstrapPrechargeDone_inv (ph : Fin 6) (s : State) (hs : s.Inv) :
    OutInv (execBootstrapPrechargeDone ph s) := by
  unfold execBootstrapPrechargeDone
  repeat' first
    | with_reducible assumption
    | (intro t ht; have hg : State.Inv t := ht; clear hg)
    | intro _
    | with_reducible first | apply State.when_inv | apply State.startSwitching_inv | apply outInv_next

theorem execBootstrapRefresh_inv (ph : Fin 6) (s : State) (hs : s.Inv) :
    OutInv (execBootstrapRefresh ph s) := by
  unfold execBootstrapRefresh
  repeat' first
    | with_reducible assumption
    | (intro t ht; have hg : State.Inv t := ht; clear hg)
    | intro _
    | fail_if_no_progress (with_reducible apply inv_upd)
    | with_reducible first | apply State.when_inv | apply State.modPhase_inv | apply outInv_next

theorem execDrvLvlApply_inv (ph : Fin 6) (s : State) (hs : s.Inv) :
    OutInv (execDrvLvlApply ph s) := by
  unfold execDrvLvlApply
  repeat' first
    | with_reducible assumption
    | (intro t ht; have hg : State.Inv t := ht; clear hg)
    | intro _
    | fail_if_no_progress (with_reducible apply inv_upd)
    | with_reducible first | apply State.when_inv | apply State.modPhase_inv | apply outInv_next

theorem execDelayLineCalibrate_inv (s : State) (hs : s.Inv) :
    OutInv (execDelayLineCalibrate s) := by
  unfold execDelayLineCalibrate
  repeat' first
    | with_reducible assumption
    | (intro t ht; have hg : State.Inv t := ht; clear hg)
    | ((try lift_lets); intro x; clear_value x)
    | intro _
    | fail_if_no_progress (with_reducible apply inv_upd)
    | with_reducible first | apply State.when_inv | apply outInv_next

theorem State.valleyDt_inv (s : State) (ph : Fin 6) (v : ValleySample) (hs : s.Inv) :
    (State.valleyDt s ph v).Inv := by
  unfold State.valleyDt
  repeat' first
    | with_reducible assumption
    | ((try lift_lets); intro x; refine (show State.Inv x → _ from ?_) ?_; (on_goal 2 => subst x); (on_goal 1 => (intro hx; clear_value x)))
    | ((try lift_lets); intro x; clear_value x)
    | intro _
    | fail_if_no_progress (with_reducible apply inv_upd)
    | with_reducible first | apply State.modPhase_inv | apply State.setSat_inv | apply State.setBit_inv
        | apply State.set_inv
    | split

theorem State.leaveGroup_inv (s : State) (ph : Fin 6) (hs : s.Inv) :
    (State.leaveGroup s ph).Inv := by
  unfold State.leaveGroup
  repeat' first
    | with_reducible assumption
    | ((try lift_lets); intro x; refine (show State.Inv x → _ from ?_) ?_; (on_goal 2 => subst x); (on_goal 1 => (intro hx; clear_value x)))
    | ((try lift_lets); intro x; clear_value x)
    | intro _
    | fail_if_no_progress (with_reducible apply inv_upd)
    | with_reducible exact inv_regReset _ _
    | with_reducible apply hfn
    | with_reducible apply State.gateOff_inv
    | with_reducible apply State.set_inv
    | with_reducible apply State.reinterleave_inv
    | with_reducible apply State.writePmax_inv
    | with_reducible apply State.modPhase_inv
    | with_reducible apply outInv_next
    | with_reducible apply inv_foldl
    | with_reducible apply inv_foldlFst
    | with_reducible apply inv_foldlSnd
    | split

theorem State.valleyRamp_inv (s : State) (ph : Fin 6) (hs : s.Inv) :
    (State.valleyRamp s ph).Inv := by
  unfold State.valleyRamp
  repeat' first
    | with_reducible assumption
    | ((try lift_lets); intro x; clear_value x)
    | intro _
    | fail_if_no_progress (with_reducible apply inv_upd)
    | with_reducible exact inv_regReset _ _
    | with_reducible apply hfn
    | with_reducible apply State.leaveGroup_inv
    | with_reducible apply State.modPhase_inv
    | with_reducible apply outInv_next
    | with_reducible apply inv_foldl
    | with_reducible apply inv_foldlFst
    | with_reducible apply inv_foldlSnd
    | split

theorem State.valleyTrim_inv (s : State) (ph : Fin 6) (iv : Int) (hs : s.Inv) :
    (State.valleyTrim s ph iv).Inv := by
  unfold State.valleyTrim
  repeat' first
    | with_reducible assumption
    | ((try lift_lets); intro x; clear_value x)
    | intro _
    | fail_if_no_progress (with_reducible apply inv_upd)
    | with_reducible first | apply State.modPhase_inv

theorem State.addBack_inv (s : State) (g : Fin 2) (hs : s.Inv) :
    (State.addBack s g).Inv := by
  unfold State.addBack
  repeat' first
    | with_reducible assumption
    | ((try lift_lets); intro x; clear_value x)
    | intro _
    | fail_if_no_progress (with_reducible apply inv_upd)
    | with_reducible first | apply State.setBit_inv | apply State.startSwitching_inv | apply State.set_inv
    | split

theorem State.phaseValley_inv (s : State) (ph : Fin 6) (v : ValleySample) (hs : s.Inv) :
    (State.phaseValley s ph v).Inv := by
  unfold State.phaseValley
  repeat' first
    | with_reducible assumption
    | ((try lift_lets); intro x; refine (show State.Inv x → _ from ?_) ?_; (on_goal 2 => subst x); (on_goal 1 => (intro hx; clear_value x)))
    | ((try lift_lets); intro x; clear_value x)
    | intro _
    | fail_if_no_progress (with_reducible apply inv_upd)
    | with_reducible exact inv_regReset _ _
    | with_reducible apply hfn
    | with_reducible apply State.valleyDt_inv
    | with_reducible apply State.modPhase_inv
    | with_reducible apply State.setb_inv
    | with_reducible apply State.seti_inv
    | with_reducible apply State.setBit_inv
    | with_reducible apply State.valleyTrim_inv
    | with_reducible apply State.valleyRamp_inv
    | with_reducible apply State.addBack_inv
    | with_reducible apply State.set_inv
    | with_reducible apply outInv_next
    | with_reducible apply inv_foldl
    | with_reducible apply inv_foldlFst
    | with_reducible apply inv_foldlSnd
    | split

theorem execPhaseValley_inv (ph : Fin 6) (v : ValleySample) (s : State) (hs : s.Inv) :
    OutInv (execPhaseValley ph v s) := by
  unfold execPhaseValley
  repeat' first
    | with_reducible assumption
    | (intro t ht; have hg : State.Inv t := ht; clear hg)
    | intro _
    | fail_if_no_progress (with_reducible apply inv_upd)
    | with_reducible exact inv_regReset _ _
    | with_reducible apply hfn
    | with_reducible apply State.when_inv
    | with_reducible apply State.phaseValley_inv
    | with_reducible apply outInv_next

theorem State.takeHalf_inv (s : State) (g : Fin 2) (hs : s.Inv) :
    (State.takeHalf s g).Inv := by
  unfold State.takeHalf
  repeat' first
    | with_reducible assumption
    | ((try lift_lets); intro x; refine (show State.Inv x → _ from ?_) ?_; (on_goal 2 => subst x); (on_goal 1 => (intro hx; clear_value x)))
    | ((try lift_lets); intro x; clear_value x)
    | intro _
    | fail_if_no_progress (with_reducible apply inv_upd)
    | with_reducible first | apply State.modGroup_inv | apply State.reinterleave_inv
    | split

theorem State.valleyMeas_inv (s : State) (g : Fin 2) (v : GroupSample) (hs : s.Inv) :
    (State.valleyMeas s g v).Inv := by
  unfold State.valleyMeas
  repeat' first
    | with_reducible assumption
    | ((try lift_lets); intro x; refine (show State.Inv x → _ from ?_) ?_; (on_goal 2 => subst x); (on_goal 1 => (intro hx; clear_value x)))
    | with_reducible first | apply State.setSat_inv | apply State.seti_inv

theorem State.setIref_inv (s : State) (g : Fin 2) (iref : Int) (bits : Nat) (iv : Int) (ib : Int) (done : Bool) (hs : s.Inv) :
    (State.setIref s g iref bits iv ib done).Inv := by
  unfold State.setIref
  repeat' first
    | with_reducible assumption
    | ((try lift_lets); intro x; refine (show State.Inv x → _ from ?_) ?_; (on_goal 2 => subst x); (on_goal 1 => (intro hx; clear_value x)))
    | intro _
    | fail_if_no_progress (with_reducible apply inv_upd)
    | with_reducible first | apply State.seti_inv | apply State.set_inv | apply State.setb_inv
        | apply State.modGroup_inv

theorem State.shareLoop_inv (s : State) (g : Fin 2) (hs : s.Inv) : (State.shareLoop s g).Inv := by
  unfold State.shareLoop
  split
  · exact State.modGroup_inv _ _ _ hs
  · exact hs

theorem State.refValley_inv (s : State) (g : Fin 2) (v : GroupSample) (hs : s.Inv) :
    (State.refValley s g v).Inv := by
  unfold State.refValley
  repeat' first
    | with_reducible assumption
    | ((try lift_lets); intro x; refine (show State.Inv x → _ from ?_) ?_; (on_goal 2 => subst x); (on_goal 1 => (intro hx; clear_value x)))
    | ((try lift_lets); intro x; clear_value x)
    | intro _
    | fail_if_no_progress (with_reducible apply inv_upd)
    | with_reducible exact inv_regReset _ _
    | with_reducible apply hfn
    | with_reducible apply State.valleyMeas_inv
    | with_reducible apply State.takeHalf_inv
    | with_reducible apply State.set_inv
    | with_reducible apply State.modGroup_inv
    | with_reducible apply State.shareLoop_inv
    | with_reducible apply State.setIref_inv
    | with_reducible apply outInv_next
    | with_reducible apply inv_foldl
    | with_reducible apply inv_foldlFst
    | with_reducible apply inv_foldlSnd
    | split

theorem execGroupRefValley_inv (g : Fin 2) (v : GroupSample) (s : State) (hs : s.Inv) :
    OutInv (execGroupRefValley g v s) := by
  unfold execGroupRefValley
  repeat' first
    | with_reducible assumption
    | (intro t ht; have hg : State.Inv t := ht; clear hg)
    | intro _
    | fail_if_no_progress (with_reducible apply inv_upd)
    | with_reducible exact inv_regReset _ _
    | with_reducible apply hfn
    | with_reducible apply State.when_inv
    | with_reducible apply State.refValley_inv
    | with_reducible apply outInv_next

theorem execDirRampHandover_inv (g : Fin 2) (s : State) (hs : s.Inv) :
    OutInv (execDirRampHandover g s) := by
  unfold execDirRampHandover
  repeat' first
    | with_reducible assumption
    | (intro t ht; have hg : State.Inv t := ht; clear hg)
    | (intro t y ht; have hg : State.Inv t := ht; clear hg)
    | ((try lift_lets); intro x; refine (show State.Inv x → _ from ?_) ?_; (on_goal 2 => subst x); (on_goal 1 => (intro hx; clear_value x)))
    | ((try lift_lets); intro x; clear_value x)
    | intro _
    | fail_if_no_progress (with_reducible apply inv_upd)
    | with_reducible exact inv_regReset _ _
    | with_reducible apply hfn
    | with_reducible apply State.when_inv
    | with_reducible apply State.set_inv
    | with_reducible apply State.modGroup_inv
    | with_reducible apply State.eachPort_inv
    | with_reducible apply State.modPath_inv
    | with_reducible apply outInv_next
    | with_reducible apply inv_foldl
    | with_reducible apply inv_foldlFst
    | with_reducible apply inv_foldlSnd
    | split

theorem execPhaseShed_inv (g : Fin 2) (s : State) (hs : s.Inv) :
    OutInv (execPhaseShed g s) := by
  unfold execPhaseShed
  repeat' first
    | with_reducible assumption
    | (intro t ht; have hg : State.Inv t := ht; clear hg)
    | intro _
    | fail_if_no_progress (with_reducible apply inv_upd)
    | with_reducible exact inv_regReset _ _
    | with_reducible apply hfn
    | with_reducible apply State.when_inv
    | with_reducible apply State.gateOff_inv
    | with_reducible apply State.setBit_inv
    | with_reducible apply State.reinterleave_inv
    | with_reducible apply State.set_inv
    | with_reducible apply outInv_next
    | with_reducible apply inv_foldl
    | with_reducible apply inv_foldlFst
    | with_reducible apply inv_foldlSnd
    | split

theorem State.mapPhase_inv (s : State) (c : Cmd) (ph : Fin 6) (hs : s.Inv) :
    (State.mapPhase s c ph).Inv := by
  unfold State.mapPhase
  repeat' first
    | with_reducible assumption
    | ((try lift_lets); intro x; refine (show State.Inv x → _ from ?_) ?_; (on_goal 2 => subst x); (on_goal 1 => (intro hx; clear_value x)))
    | ((try lift_lets); intro x; clear_value x)
    | intro _
    | fail_if_no_progress (with_reducible apply inv_upd)
    | with_reducible first | apply State.modPhase_inv | apply State.set_inv | apply State.startCheck_inv
        | apply State.setBit_inv
    | split

theorem opPhaseMapSet_inv (c : Cmd) (s : State) (hs : s.Inv) :
    (opPhaseMapSet c s).2.Inv := by
  unfold opPhaseMapSet
  repeat' first
    | with_reducible assumption
    | (intro t y ht; have hg : State.Inv t := ht; clear hg)
    | ((try lift_lets); intro x; refine (show State.Inv x → _ from ?_) ?_; (on_goal 2 => subst x); (on_goal 1 => (intro hx; clear_value x)))
    | ((try lift_lets); intro x; clear_value x)
    | intro _
    | fail_if_no_progress (with_reducible apply inv_upd)
    | with_reducible first | apply State.eachPhase_inv | apply State.mapPhase_inv | apply State.writePmax_inv
    | split

theorem execPhaseMapSet_inv (s : State) (hs : s.Inv) :
    OutInv (execPhaseMapSet s) := by
  unfold execPhaseMapSet
  repeat' first
    | with_reducible assumption
    | (intro t ht; have hg : State.Inv t := ht; clear hg)
    | (intro y t ht; have hg : State.Inv t := ht; clear hg)
    | intro _
    | with_reducible first | apply State.when_inv | apply State.runCmd_inv | apply opPhaseMapSet_inv
        | apply outInv_next

theorem execPhaseMapSetDone_inv (s : State) (hs : s.Inv) :
    OutInv (execPhaseMapSetDone s) := by
  unfold execPhaseMapSetDone
  repeat' first
    | with_reducible assumption
    | (intro t ht; have hg : State.Inv t := ht; clear hg)
    | intro _
    | with_reducible first | apply State.when_inv | apply State.finishMap_inv | apply State.autoSelect_inv
        | apply outInv_next

theorem execPhaseCycleLimit_inv (ph : Fin 6) (s : State) (hs : s.Inv) :
    OutInv (execPhaseCycleLimit ph s) := by
  unfold execPhaseCycleLimit
  repeat' first
    | with_reducible assumption
    | (intro t ht; have hg : State.Inv t := ht; clear hg)
    | ((try lift_lets); intro x; refine (show State.Inv x → _ from ?_) ?_; (on_goal 2 => subst x); (on_goal 1 => (intro hx; clear_value x)))
    | intro _
    | fail_if_no_progress (with_reducible apply inv_upd)
    | with_reducible exact inv_regReset _ _
    | with_reducible apply hfn
    | with_reducible apply State.when_inv
    | with_reducible apply State.set_inv
    | with_reducible apply State.setBit_inv
    | with_reducible apply State.bump_inv
    | with_reducible apply State.modPhase_inv
    | with_reducible apply outInv_next

theorem execPhaseOvercurrent_inv (ph : Fin 6) (s : State) (hs : s.Inv) :
    OutInv (execPhaseOvercurrent ph s) := by
  unfold execPhaseOvercurrent
  repeat' first
    | with_reducible assumption
    | (intro t ht; have hg : State.Inv t := ht; clear hg)
    | intro _
    | with_reducible first | apply State.when_inv | apply State.retire_inv | apply outInv_next

theorem execPhaseHardOvercurrent_inv (ph : Fin 6) (s : State) (hs : s.Inv) :
    OutInv (execPhaseHardOvercurrent ph s) := by
  unfold execPhaseHardOvercurrent
  repeat' first
    | with_reducible assumption
    | (intro t ht; have hg : State.Inv t := ht; clear hg)
    | intro _
    | with_reducible first | apply State.when_inv | apply State.retire_inv | apply outInv_next

theorem execPhaseDriverUv_inv (ph : Fin 6) (s : State) (hs : s.Inv) :
    OutInv (execPhaseDriverUv ph s) := by
  unfold execPhaseDriverUv
  repeat' first
    | with_reducible assumption
    | (intro t ht; have hg : State.Inv t := ht; clear hg)
    | intro _
    | with_reducible first | apply State.when_inv | apply State.setBit_inv | apply State.retire_inv
        | apply State.set_inv | apply outInv_next

theorem execPhaseSwNodeFault_inv (ph : Fin 6) (s : State) (hs : s.Inv) :
    OutInv (execPhaseSwNodeFault ph s) := by
  unfold execPhaseSwNodeFault
  repeat' first
    | with_reducible assumption
    | (intro t ht; have hg : State.Inv t := ht; clear hg)
    | intro _
    | with_reducible first | apply State.when_inv | apply State.setBit_inv | apply State.retire_inv
        | apply State.set_inv | apply outInv_next

theorem execPhaseSenseMismatch_inv (ph : Fin 6) (s : State) (hs : s.Inv) :
    OutInv (execPhaseSenseMismatch ph s) := by
  unfold execPhaseSenseMismatch
  repeat' first
    | with_reducible assumption
    | (intro t ht; have hg : State.Inv t := ht; clear hg)
    | intro _
    | with_reducible first | apply State.when_inv | apply State.setBit_inv | apply State.retire_inv
        | apply State.set_inv | apply outInv_next

theorem execPhaseSlopeFault_inv (ph : Fin 6) (s : State) (hs : s.Inv) :
    OutInv (execPhaseSlopeFault ph s) := by
  unfold execPhaseSlopeFault
  repeat' first
    | with_reducible assumption
    | (intro t ht; have hg : State.Inv t := ht; clear hg)
    | intro _
    | with_reducible first | apply State.when_inv | apply State.setBit_inv | apply State.retire_inv
        | apply State.set_inv | apply outInv_next

theorem execPhaseCmFault_inv (ph : Fin 6) (s : State) (hs : s.Inv) :
    OutInv (execPhaseCmFault ph s) := by
  unfold execPhaseCmFault
  repeat' first
    | with_reducible assumption
    | (intro t ht; have hg : State.Inv t := ht; clear hg)
    | intro _
    | with_reducible first | apply State.when_inv | apply State.setBit_inv | apply State.retire_inv
        | apply State.set_inv | apply outInv_next

theorem execPhaseSelfCheckDone_inv (ph : Fin 6) (fail : Option (Fin 16)) (s : State) (hs : s.Inv) :
    OutInv (execPhaseSelfCheckDone ph fail s) := by
  unfold execPhaseSelfCheckDone
  repeat' first
    | with_reducible assumption
    | (intro t ht; have hg : State.Inv t := ht; clear hg)
    | ((try lift_lets); intro x; refine (show State.Inv x → _ from ?_) ?_; (on_goal 2 => subst x); (on_goal 1 => (intro hx; clear_value x)))
    | intro _
    | fail_if_no_progress (with_reducible apply inv_upd)
    | with_reducible exact inv_regReset _ _
    | with_reducible apply hfn
    | with_reducible apply State.when_inv
    | with_reducible apply State.retire_inv
    | with_reducible apply State.setBit_inv
    | with_reducible apply State.modPhase_inv
    | with_reducible apply State.reinterleave_inv
    | with_reducible apply State.writePmax_inv
    | with_reducible apply State.set_inv
    | with_reducible apply outInv_next
    | with_reducible apply inv_foldl
    | with_reducible apply inv_foldlFst
    | with_reducible apply inv_foldlSnd
    | split

theorem State.vdrvBus_inv (s : State) (b : Fin 2) (hs : s.Inv) :
    (State.vdrvBus s b).Inv := by
  unfold State.vdrvBus
  repeat' first
    | with_reducible assumption
    | ((try lift_lets); intro x; clear_value x)
    | intro _
    | fail_if_no_progress (with_reducible apply inv_upd)
    | with_reducible first | apply State.loseSink_inv | apply State.modBus_inv | apply State.groupStop_inv
    | split

theorem execVdrvUv_inv (s : State) (hs : s.Inv) :
    OutInv (execVdrvUv s) := by
  unfold execVdrvUv
  repeat' first
    | with_reducible assumption
    | (intro t ht; have hg : State.Inv t := ht; clear hg)
    | (intro t y ht; have hg : State.Inv t := ht; clear hg)
    | ((try lift_lets); intro x; refine (show State.Inv x → _ from ?_) ?_; (on_goal 2 => subst x); (on_goal 1 => (intro hx; clear_value x)))
    | intro _
    | with_reducible first | apply State.when_inv | apply State.set_inv | apply State.eachPort_inv
        | apply State.stopSource_inv | apply State.vdrvBus_inv | apply State.raiseFault_inv | apply outInv_next

theorem State.vdrvBack_inv (s : State) (b : Fin 2) (hs : s.Inv) :
    (State.vdrvBack s b).Inv := by
  unfold State.vdrvBack
  repeat' first
    | with_reducible assumption
    | ((try lift_lets); intro x; refine (show State.Inv x → _ from ?_) ?_; (on_goal 2 => subst x); (on_goal 1 => (intro hx; clear_value x)))
    | intro _
    | fail_if_no_progress (with_reducible apply inv_upd)
    | with_reducible first | apply State.modBus_inv | apply State.beginConnect_inv
    | split

theorem execVdrvRecover_inv (s : State) (hs : s.Inv) :
    OutInv (execVdrvRecover s) := by
  unfold execVdrvRecover
  repeat' first
    | with_reducible assumption
    | (intro t ht; have hg : State.Inv t := ht; clear hg)
    | ((try lift_lets); intro x; refine (show State.Inv x → _ from ?_) ?_; (on_goal 2 => subst x); (on_goal 1 => (intro hx; clear_value x)))
    | intro _
    | with_reducible first | apply State.when_inv | apply State.set_inv | apply State.vdrvBack_inv
        | apply State.raiseFault_inv | apply State.autoSelect_inv | apply outInv_next

end Sys2Proof.Machine
end

