-- ==== Sys2Proof/Laws/InvCharge.lean ====
section
/-! SUPPORT. Every operation of Machine/Charge.lean keeps the canonical form of the register space. -/

set_option Elab.async false

namespace Sys2Proof.Machine

theorem State.chgEvent_inv (s : State) (phase : Nat) (kind : Nat) (hs : s.Inv) :
    (State.chgEvent s phase kind).Inv := by
  unfold State.chgEvent
  repeat' first
    | with_reducible assumption
    | with_reducible first | apply State.set_inv | apply State.raiseCharge_inv

theorem State.pickPhase_inv (s : State) (hs : s.Inv) :
    (State.pickPhase s).Inv := by
  unfold State.pickPhase
  repeat' first
    | with_reducible assumption
    | with_reducible first | apply State.setChgPhase_inv | apply State.set_inv
    | split

theorem State.restoreBat_inv (s : State) (hs : s.Inv) :
    (State.restoreBat s).Inv := by
  unfold State.restoreBat
  repeat' first
    | with_reducible assumption
    | ((try lift_lets); intro x; refine (show State.Inv x → _ from ?_) ?_; (on_goal 2 => subst x); (on_goal 1 => (intro hx; clear_value x)))
    | ((try lift_lets); intro x; clear_value x)
    | fail_if_no_progress (with_reducible apply inv_upd)
    | with_reducible first | apply State.set_inv

theorem State.chgFault_inv (s : State) (cause : Nat) (hs : s.Inv) :
    (State.chgFault s cause).Inv := by
  unfold State.chgFault
  repeat' first
    | with_reducible assumption
    | ((try lift_lets); intro x; refine (show State.Inv x → _ from ?_) ?_; (on_goal 2 => subst x); (on_goal 1 => (intro hx; clear_value x)))
    | with_reducible first | apply State.endCycle_inv | apply State.zeroCharge_inv | apply State.set_inv
        | apply State.setChgPhase_inv

theorem State.setEst_inv (s : State) (n : Nat) (hs : s.Inv) :
    (State.setEst s n).Inv := by
  unfold State.setEst
  repeat' first
    | with_reducible assumption
    | ((try lift_lets); intro x; clear_value x)
    | fail_if_no_progress (with_reducible apply inv_upd)
    | with_reducible first | apply State.raiseCharge_inv
    | split

theorem State.discardEst_inv (s : State) (hs : s.Inv) :
    (State.discardEst s).Inv := by
  unfold State.discardEst
  repeat' first
    | with_reducible assumption
    | ((try lift_lets); intro x; clear_value x)
    | fail_if_no_progress (with_reducible apply inv_upd)
    | with_reducible first | apply State.setEst_inv

theorem State.cycleEst_inv (s : State) (hs : s.Inv) :
    (State.cycleEst s).Inv := by
  unfold State.cycleEst
  repeat' first
    | with_reducible assumption
    | ((try lift_lets); intro x; refine (show State.Inv x → _ from ?_) ?_; (on_goal 2 => subst x); (on_goal 1 => (intro hx; clear_value x)))
    | ((try lift_lets); intro x; clear_value x)
    | fail_if_no_progress (with_reducible apply inv_upd)
    | with_reducible first | apply State.setEst_inv | apply State.discardEst_inv | apply State.set_inv
    | split

theorem State.startProbe_inv (s : State) (vbat : Nat) (start : Bool) (hs : s.Inv) :
    (State.startProbe s vbat start).Inv := by
  unfold State.startProbe
  repeat' first
    | with_reducible assumption
    | ((try lift_lets); intro x; refine (show State.Inv x → _ from ?_) ?_; (on_goal 2 => subst x); (on_goal 1 => (intro hx; clear_value x)))
    | ((try lift_lets); intro x; clear_value x)
    | fail_if_no_progress (with_reducible apply inv_upd)
    | with_reducible first | apply State.set_inv

theorem State.startCycle_inv (s : State) (hs : s.Inv) :
    (State.startCycle s).Inv := by
  unfold State.startCycle
  repeat' first
    | with_reducible assumption
    | ((try lift_lets); intro x; refine (show State.Inv x → _ from ?_) ?_; (on_goal 2 => subst x); (on_goal 1 => (intro hx; clear_value x)))
    | ((try lift_lets); intro x; clear_value x)
    | fail_if_no_progress (with_reducible apply inv_upd)
    | with_reducible first | apply State.set_inv | apply State.setBit_inv | apply State.cycleEst_inv
        | apply State.startProbe_inv
    | split

theorem State.inputConnected_inv (s : State) (hs : s.Inv) :
    (State.inputConnected s).Inv := by
  unfold State.inputConnected
  repeat' first
    | with_reducible assumption
    | ((try lift_lets); intro x; refine (show State.Inv x → _ from ?_) ?_; (on_goal 2 => subst x); (on_goal 1 => (intro hx; clear_value x)))
    | with_reducible first | apply State.setBit_inv | apply State.restoreBat_inv | apply State.pickPhase_inv
        | apply State.startCycle_inv | apply State.set_inv
    | split

theorem State.attachRestart_inv (s : State) (hs : s.Inv) :
    (State.attachRestart s).Inv := by
  unfold State.attachRestart
  repeat' first
    | with_reducible assumption
    | with_reducible first | apply State.set_inv | apply State.setChgPhase_inv | apply State.startCycle_inv
    | split

theorem execTapDetect_inv (s : State) (hs : s.Inv) :
    OutInv (execTapDetect s) := by
  unfold execTapDetect
  repeat' first
    | with_reducible assumption
    | (intro t ht; have hg : State.Inv t := ht; clear hg)
    | intro _
    | with_reducible first | apply State.when_inv | apply State.set_inv | apply outInv_next

theorem execTapFault_inv (s : State) (hs : s.Inv) :
    OutInv (execTapFault s) := by
  unfold execTapFault
  repeat' first
    | with_reducible assumption
    | (intro t ht; have hg : State.Inv t := ht; clear hg)
    | intro _
    | with_reducible first | apply State.when_inv | apply State.chgFault_inv | apply outInv_next

theorem State.packAbsent_inv (s : State) (hs : s.Inv) :
    (State.packAbsent s).Inv := by
  unfold State.packAbsent
  repeat' first
    | with_reducible assumption
    | ((try lift_lets); intro x; refine (show State.Inv x → _ from ?_) ?_; (on_goal 2 => subst x); (on_goal 1 => (intro hx; clear_value x)))
    | ((try lift_lets); intro x; clear_value x)
    | fail_if_no_progress (with_reducible apply inv_upd)
    | with_reducible first | apply State.endCycle_inv | apply State.zeroCharge_inv | apply State.set_inv
        | apply State.chgEvent_inv

theorem execPackNtcOpen_inv (s : State) (hs : s.Inv) :
    OutInv (execPackNtcOpen s) := by
  unfold execPackNtcOpen
  repeat' first
    | with_reducible assumption
    | (intro t ht; have hg : State.Inv t := ht; clear hg)
    | intro _
    | with_reducible first | apply State.when_inv | apply State.packAbsent_inv | apply outInv_next

theorem execPackProbeIdleStart_inv (vbat : Nat) (s : State) (hs : s.Inv) :
    OutInv (execPackProbeIdleStart vbat s) := by
  unfold execPackProbeIdleStart
  repeat' first
    | with_reducible assumption
    | (intro t ht; have hg : State.Inv t := ht; clear hg)
    | intro _
    | with_reducible first | apply State.when_inv | apply State.setSat_inv | apply State.startProbe_inv
        | apply State.set_inv | apply outInv_next

theorem State.probePassed_inv (s : State) (hs : s.Inv) :
    (State.probePassed s).Inv := by
  unfold State.probePassed
  repeat' first
    | with_reducible assumption
    | ((try lift_lets); intro x; refine (show State.Inv x → _ from ?_) ?_; (on_goal 2 => subst x); (on_goal 1 => (intro hx; clear_value x)))
    | ((try lift_lets); intro x; clear_value x)
    | fail_if_no_progress (with_reducible apply inv_upd)
    | with_reducible first | apply State.restoreBat_inv | apply State.pickPhase_inv | apply State.chargeInputLost_inv
    | split

theorem execPackProbeDone_inv (vbat : Nat) (s : State) (hs : s.Inv) :
    OutInv (execPackProbeDone vbat s) := by
  unfold execPackProbeDone
  repeat' first
    | with_reducible assumption
    | (intro t ht; have hg : State.Inv t := ht; clear hg)
    | intro _
    | with_reducible first | apply State.when_inv | apply State.probePassed_inv | apply State.packAbsent_inv
        | apply outInv_next
    | split

theorem execPackAbsentPoll_inv (vbat : Nat) (s : State) (hs : s.Inv) :
    OutInv (execPackAbsentPoll vbat s) := by
  unfold execPackAbsentPoll
  repeat' first
    | with_reducible assumption
    | (intro t ht; have hg : State.Inv t := ht; clear hg)
    | intro _
    | with_reducible first | apply State.when_inv | apply State.setSat_inv | apply State.set_inv | apply outInv_next

theorem execPackInsert_inv (vbat : Nat) (ntcOpen : Bool) (s : State) (hs : s.Inv) :
    OutInv (execPackInsert vbat ntcOpen s) := by
  unfold execPackInsert
  repeat' first
    | with_reducible assumption
    | (intro t ht; have hg : State.Inv t := ht; clear hg)
    | ((try lift_lets); intro x; refine (show State.Inv x → _ from ?_) ?_; (on_goal 2 => subst x); (on_goal 1 => (intro hx; clear_value x)))
    | ((try lift_lets); intro x; clear_value x)
    | intro _
    | fail_if_no_progress (with_reducible apply inv_upd)
    | with_reducible first | apply State.when_inv | apply State.setSat_inv | apply State.set_inv
        | apply State.fillCredit_inv | apply State.chgEvent_inv | apply outInv_next

theorem execPackInsertConnect_inv (vsys : Nat) (vbat : Nat) (s : State) (hs : s.Inv) :
    OutInv (execPackInsertConnect vsys vbat s) := by
  unfold execPackInsertConnect
  repeat' first
    | with_reducible assumption
    | (intro t ht; have hg : State.Inv t := ht; clear hg)
    | ((try lift_lets); intro x; refine (show State.Inv x → _ from ?_) ?_; (on_goal 2 => subst x); (on_goal 1 => (intro hx; clear_value x)))
    | ((try lift_lets); intro x; clear_value x)
    | intro _
    | fail_if_no_progress (with_reducible apply inv_upd)
    | with_reducible first | apply State.when_inv | apply State.setSat_inv | apply State.restoreBat_inv
        | apply State.startCycle_inv | apply State.set_inv | apply outInv_next

theorem State.holdCov_inv (s : State) (hs : s.Inv) :
    (State.holdCov s).Inv := by
  unfold State.holdCov
  repeat' first
    | with_reducible assumption
    | with_reducible first | apply State.set_inv
    | split

theorem State.writeProfile_inv (s : State) (bs : List Byte) (hs : s.Inv) :
    (State.writeProfile s bs).Inv := by
  unfold State.writeProfile
  repeat' first
    | with_reducible assumption
    | (intro t y ht; have hg : State.Inv t := ht; clear hg)
    | intro _
    | with_reducible first | apply State.set_inv | apply State.holdCov_inv | apply inv_foldl

theorem State.estForProfile_inv (s : State) (hs : s.Inv) :
    (State.estForProfile s).Inv := by
  unfold State.estForProfile
  repeat' first
    | with_reducible assumption
    | with_reducible first | apply State.setEst_inv | apply State.set_inv
    | split

theorem State.installProfile_inv (s : State) (bs : List Byte) (hs : s.Inv) :
    (State.installProfile s bs).Inv := by
  unfold State.installProfile
  repeat' first
    | with_reducible assumption
    | ((try lift_lets); intro x; refine (show State.Inv x → _ from ?_) ?_; (on_goal 2 => subst x); (on_goal 1 => (intro hx; clear_value x)))
    | ((try lift_lets); intro x; clear_value x)
    | fail_if_no_progress (with_reducible apply inv_upd)
    | with_reducible first | apply State.writeProfile_inv | apply State.set_inv | apply State.raiseCharge_inv

theorem State.otherPack_inv (s : State) (bs : List Byte) (hs : s.Inv) :
    (State.otherPack s bs).Inv := by
  unfold State.otherPack
  repeat' first
    | with_reducible assumption
    | ((try lift_lets); intro x; refine (show State.Inv x → _ from ?_) ?_; (on_goal 2 => subst x); (on_goal 1 => (intro hx; clear_value x)))
    | ((try lift_lets); intro x; clear_value x)
    | with_reducible first | apply State.endCycle_inv | apply State.installProfile_inv | apply State.discardEst_inv
        | apply State.startCycle_inv
    | split

theorem State.samePack_inv (s : State) (bs : List Byte) (hs : s.Inv) :
    (State.samePack s bs).Inv := by
  unfold State.samePack
  repeat' first
    | with_reducible assumption
    | ((try lift_lets); intro x; refine (show State.Inv x → _ from ?_) ?_; (on_goal 2 => subst x); (on_goal 1 => (intro hx; clear_value x)))
    | with_reducible first | apply State.installProfile_inv | apply State.estForProfile_inv | apply State.set_inv
    | split

theorem State.takeProfile_inv (s : State) (bs : List Byte) (hs : s.Inv) :
    (State.takeProfile s bs).Inv := by
  unfold State.takeProfile
  repeat' first
    | with_reducible assumption
    | with_reducible first | apply State.samePack_inv | apply State.otherPack_inv
    | split

theorem State.applyProfile_inv (s : State) (bytes : List Byte) (hs : s.Inv) :
    (State.applyProfile s bytes).2.Inv := by
  unfold State.applyProfile
  repeat' first
    | with_reducible assumption
    | ((try lift_lets); intro x; refine (show State.Inv x → _ from ?_) ?_; (on_goal 2 => subst x); (on_goal 1 => (intro hx; clear_value x)))
    | ((try lift_lets); intro x; clear_value x)
    | fail_if_no_progress (with_reducible apply inv_upd)
    | with_reducible first | apply State.raiseFault_inv | apply State.raiseCharge_inv
    | split

theorem opChargeProfileLoad_inv (c : Cmd) (s : State) (hs : s.Inv) :
    (opChargeProfileLoad c s).2.Inv := by
  unfold opChargeProfileLoad
  repeat' first
    | with_reducible assumption
    | ((try lift_lets); intro x; refine (show (∀ t y, State.Inv t → State.Inv (x t y)) → _ from ?_) ?_; (on_goal 2 => (subst x; intro _ _ _; beta_reduce)); (on_goal 1 => (intro hfn; clear_value x)))
    | ((try lift_lets); intro x; clear_value x)
    | fail_if_no_progress (with_reducible apply inv_upd)
    | with_reducible first | apply hfn | apply State.applyProfile_inv | apply State.set_inv | apply State.setBit_inv
    | split

theorem execChargeProfileLoad_inv (s : State) (hs : s.Inv) :
    OutInv (execChargeProfileLoad s) := by
  unfold execChargeProfileLoad
  repeat' first
    | with_reducible assumption
    | (intro t ht; have hg : State.Inv t := ht; clear hg)
    | (intro y t ht; have hg : State.Inv t := ht; clear hg)
    | intro _
    | with_reducible first | apply State.when_inv | apply State.runCmd_inv | apply opChargeProfileLoad_inv
        | apply outInv_next

theorem State.evalMeas_inv (s : State) (v : ChargeSample) (hs : s.Inv) :
    (State.evalMeas s v).Inv := by
  unfold State.evalMeas
  repeat' first
    | with_reducible assumption
    | (intro t y ht; have hg : State.Inv t := ht; clear hg)
    | ((try lift_lets); intro x; refine (show State.Inv x → _ from ?_) ?_; (on_goal 2 => subst x); (on_goal 1 => (intro hx; clear_value x)))
    | ((try lift_lets); intro x; clear_value x)
    | intro _
    | fail_if_no_progress (with_reducible apply inv_upd)
    | with_reducible first | apply State.setSat_inv | apply State.seti_inv | apply State.setb_inv
        | apply State.set_inv | apply inv_foldl | apply inv_foldlFst | apply inv_foldlSnd
    | split

theorem State.evalZone_inv (s : State) (hs : s.Inv) :
    (State.evalZone s).Inv := by
  unfold State.evalZone
  repeat' first
    | with_reducible assumption
    | ((try lift_lets); intro x; refine (show State.Inv x → _ from ?_) ?_; (on_goal 2 => subst x); (on_goal 1 => (intro hx; clear_value x)))
    | ((try lift_lets); intro x; clear_value x)
    | with_reducible first | apply State.setBit_inv | apply State.setChgPhase_inv | apply State.zeroCharge_inv
        | apply State.pickPhase_inv | apply State.set_inv
    | split

theorem State.evalProfile_inv (s : State) (hs : s.Inv) :
    (State.evalProfile s).Inv := by
  unfold State.evalProfile
  repeat' first
    | with_reducible assumption
    | fail_if_no_progress (with_reducible apply inv_upd)
    | with_reducible first | apply State.takeProfile_inv
    | split

theorem State.evalTimers_inv (s : State) (hs : s.Inv) :
    (State.evalTimers s).Inv := by
  unfold State.evalTimers
  repeat' first
    | with_reducible assumption
    | ((try lift_lets); intro x; refine (show State.Inv x → _ from ?_) ?_; (on_goal 2 => subst x); (on_goal 1 => (intro hx; clear_value x)))
    | ((try lift_lets); intro x; clear_value x)
    | fail_if_no_progress (with_reducible apply inv_upd)
    | with_reducible first | apply State.setSat_inv

theorem State.evalCurrent_inv (s : State) (hs : s.Inv) :
    (State.evalCurrent s).Inv := by
  unfold State.evalCurrent
  repeat' first
    | with_reducible assumption
    | ((try lift_lets); intro x; refine (show State.Inv x → _ from ?_) ?_; (on_goal 2 => subst x); (on_goal 1 => (intro hx; clear_value x)))
    | ((try lift_lets); intro x; clear_value x)
    | fail_if_no_progress (with_reducible apply inv_upd)
    | with_reducible first | apply State.setb_inv | apply State.set_inv | apply State.seti_inv | apply inv_foldl
        | apply inv_foldlFst | apply inv_foldlSnd
    | split

theorem execChargerEval_inv (v : ChargeSample) (s : State) (hs : s.Inv) :
    OutInv (execChargerEval v s) := by
  unfold execChargerEval
  repeat' first
    | with_reducible assumption
    | (intro t ht; have hg : State.Inv t := ht; clear hg)
    | intro _
    | fail_if_no_progress (with_reducible apply inv_upd)
    | with_reducible exact inv_regReset _ _
    | with_reducible apply hfn
    | with_reducible apply State.when_inv
    | with_reducible apply State.evalMeas_inv
    | with_reducible apply State.evalProfile_inv
    | with_reducible apply State.evalZone_inv
    | with_reducible apply State.evalCurrent_inv
    | with_reducible apply State.evalTimers_inv
    | with_reducible apply outInv_next

theorem execChgTrickleToPrecharge_inv (s : State) (hs : s.Inv) :
    OutInv (execChgTrickleToPrecharge s) := by
  unfold execChgTrickleToPrecharge
  repeat' first
    | with_reducible assumption
    | (intro t ht; have hg : State.Inv t := ht; clear hg)
    | intro _
    | with_reducible first | apply State.when_inv | apply State.setChgPhase_inv | apply State.set_inv
        | apply outInv_next

theorem execChgPrechargeToCc_inv (s : State) (hs : s.Inv) :
    OutInv (execChgPrechargeToCc s) := by
  unfold execChgPrechargeToCc
  repeat' first
    | with_reducible assumption
    | (intro t ht; have hg : State.Inv t := ht; clear hg)
    | intro _
    | with_reducible first | apply State.when_inv | apply State.set_inv | apply State.setChgPhase_inv
        | apply outInv_next

theorem execChgCcToPrecharge_inv (s : State) (hs : s.Inv) :
    OutInv (execChgCcToPrecharge s) := by
  unfold execChgCcToPrecharge
  repeat' first
    | with_reducible assumption
    | (intro t ht; have hg : State.Inv t := ht; clear hg)
    | intro _
    | with_reducible first | apply State.when_inv | apply State.setChgPhase_inv | apply State.set_inv
        | apply outInv_next

theorem execChgStepAdvance_inv (s : State) (hs : s.Inv) :
    OutInv (execChgStepAdvance s) := by
  unfold execChgStepAdvance
  repeat' first
    | with_reducible assumption
    | (intro t ht; have hg : State.Inv t := ht; clear hg)
    | intro _
    | with_reducible first | apply State.when_inv | apply State.set_inv | apply outInv_next

theorem execChgCcToCv_inv (s : State) (hs : s.Inv) :
    OutInv (execChgCcToCv s) := by
  unfold execChgCcToCv
  repeat' first
    | with_reducible assumption
    | (intro t ht; have hg : State.Inv t := ht; clear hg)
    | intro _
    | with_reducible first | apply State.when_inv | apply State.setChgPhase_inv | apply State.set_inv
        | apply outInv_next

theorem execChgTerminate_inv (s : State) (hs : s.Inv) :
    OutInv (execChgTerminate s) := by
  unfold execChgTerminate
  repeat' first
    | with_reducible assumption
    | (intro t ht; have hg : State.Inv t := ht; clear hg)
    | intro _
    | with_reducible first | apply State.when_inv | apply State.endCycle_inv | apply State.zeroCharge_inv
        | apply State.chgEvent_inv | apply outInv_next

theorem execChgRecharge_inv (s : State) (hs : s.Inv) :
    OutInv (execChgRecharge s) := by
  unfold execChgRecharge
  repeat' first
    | with_reducible assumption
    | (intro t ht; have hg : State.Inv t := ht; clear hg)
    | intro _
    | with_reducible first | apply State.when_inv | apply State.startCycle_inv | apply outInv_next

theorem execChgNoInputEnd_inv (s : State) (hs : s.Inv) :
    OutInv (execChgNoInputEnd s) := by
  unfold execChgNoInputEnd
  repeat' first
    | with_reducible assumption
    | (intro t ht; have hg : State.Inv t := ht; clear hg)
    | intro _
    | with_reducible first | apply State.when_inv | apply State.endCycle_inv | apply State.set_inv | apply outInv_next

theorem State.covLatch_inv (s : State) (hs : s.Inv) :
    (State.covLatch s).Inv := by
  unfold State.covLatch
  repeat' first
    | with_reducible assumption
    | ((try lift_lets); intro x; refine (show State.Inv x → _ from ?_) ?_; (on_goal 2 => subst x); (on_goal 1 => (intro hx; clear_value x)))
    | with_reducible first | apply State.set_inv | apply State.chgFault_inv
    | split

theorem execCellOvTrip_inv (cells : Fin 32) (s : State) (hs : s.Inv) :
    OutInv (execCellOvTrip cells s) := by
  unfold execCellOvTrip
  repeat' first
    | with_reducible assumption
    | (intro t ht; have hg : State.Inv t := ht; clear hg)
    | ((try lift_lets); intro x; refine (show State.Inv x → _ from ?_) ?_; (on_goal 2 => subst x); (on_goal 1 => (intro hx; clear_value x)))
    | ((try lift_lets); intro x; clear_value x)
    | intro _
    | fail_if_no_progress (with_reducible apply inv_upd)
    | with_reducible exact inv_regReset _ _
    | with_reducible apply hfn
    | with_reducible apply State.when_inv
    | with_reducible apply State.set_inv
    | with_reducible apply State.setBit_inv
    | with_reducible apply State.restoreBat_inv
    | with_reducible apply State.zeroCharge_inv
    | with_reducible apply State.chgEvent_inv
    | with_reducible apply State.raiseCharge_inv
    | with_reducible apply State.covLatch_inv
    | with_reducible apply outInv_next
    | with_reducible apply inv_foldl
    | with_reducible apply inv_foldlFst
    | with_reducible apply inv_foldlSnd
    | split

theorem execCellOvClear_inv (s : State) (hs : s.Inv) :
    OutInv (execCellOvClear s) := by
  unfold execCellOvClear
  repeat' first
    | with_reducible assumption
    | (intro t ht; have hg : State.Inv t := ht; clear hg)
    | ((try lift_lets); intro x; refine (show State.Inv x → _ from ?_) ?_; (on_goal 2 => subst x); (on_goal 1 => (intro hx; clear_value x)))
    | intro _
    | with_reducible first | apply State.when_inv | apply State.set_inv | apply State.setBit_inv
        | apply State.restoreBat_inv | apply State.raiseCharge_inv | apply State.pickPhase_inv | apply outInv_next
    | split

theorem execFastTimerExpiry_inv (s : State) (hs : s.Inv) :
    OutInv (execFastTimerExpiry s) := by
  unfold execFastTimerExpiry
  repeat' first
    | with_reducible assumption
    | (intro t ht; have hg : State.Inv t := ht; clear hg)
    | intro _
    | with_reducible first | apply State.when_inv | apply State.chgFault_inv | apply outInv_next

theorem execPreTimerExpiry_inv (s : State) (hs : s.Inv) :
    OutInv (execPreTimerExpiry s) := by
  unfold execPreTimerExpiry
  repeat' first
    | with_reducible assumption
    | (intro t ht; have hg : State.Inv t := ht; clear hg)
    | intro _
    | with_reducible first | apply State.when_inv | apply State.chgFault_inv | apply outInv_next

theorem execChgOvercurrent_inv (s : State) (hs : s.Inv) :
    OutInv (execChgOvercurrent s) := by
  unfold execChgOvercurrent
  repeat' first
    | with_reducible assumption
    | (intro t ht; have hg : State.Inv t := ht; clear hg)
    | intro _
    | with_reducible first | apply State.when_inv | apply State.chgFault_inv | apply outInv_next

theorem execPackOvSuspend_inv (vbat : Nat) (s : State) (hs : s.Inv) :
    OutInv (execPackOvSuspend vbat s) := by
  unfold execPackOvSuspend
  repeat' first
    | with_reducible assumption
    | (intro t ht; have hg : State.Inv t := ht; clear hg)
    | ((try lift_lets); intro x; refine (show State.Inv x → _ from ?_) ?_; (on_goal 2 => subst x); (on_goal 1 => (intro hx; clear_value x)))
    | intro _
    | with_reducible first | apply State.when_inv | apply State.setSat_inv | apply State.setBit_inv
        | apply State.setChgPhase_inv | apply State.zeroCharge_inv | apply State.set_inv | apply outInv_next

theorem execPackOvClear_inv (vbat : Nat) (s : State) (hs : s.Inv) :
    OutInv (execPackOvClear vbat s) := by
  unfold execPackOvClear
  repeat' first
    | with_reducible assumption
    | (intro t ht; have hg : State.Inv t := ht; clear hg)
    | ((try lift_lets); intro x; refine (show State.Inv x → _ from ?_) ?_; (on_goal 2 => subst x); (on_goal 1 => (intro hx; clear_value x)))
    | intro _
    | with_reducible first | apply State.when_inv | apply State.setSat_inv | apply State.setBit_inv
        | apply State.pickPhase_inv | apply State.set_inv | apply outInv_next
    | split

theorem execPrbsStep_inv (s : State) (hs : s.Inv) :
    OutInv (execPrbsStep s) := by
  unfold execPrbsStep
  repeat' first
    | with_reducible assumption
    | (intro t ht; have hg : State.Inv t := ht; clear hg)
    | ((try lift_lets); intro x; clear_value x)
    | intro _
    | fail_if_no_progress (with_reducible apply inv_upd)
    | with_reducible first | apply State.when_inv | apply outInv_next

theorem execEstimatorUpdate_inv (f : FitSample) (s : State) (hs : s.Inv) :
    OutInv (execEstimatorUpdate f s) := by
  unfold execEstimatorUpdate
  repeat' first
    | with_reducible assumption
    | (intro t ht; have hg : State.Inv t := ht; clear hg)
    | ((try lift_lets); intro x; clear_value x)
    | intro _
    | fail_if_no_progress (with_reducible apply inv_upd)
    | with_reducible first | apply State.when_inv | apply State.set_inv | apply State.setEst_inv | apply outInv_next

theorem opChargeStart_inv (u_ : Cmd) (s : State) (hs : s.Inv) :
    (opChargeStart u_ s).2.Inv := by
  unfold opChargeStart
  repeat' first
    | with_reducible assumption
    | ((try lift_lets); intro x; clear_value x)
    | with_reducible first | apply State.set_inv | apply State.startCycle_inv
    | split

theorem opChargeStop_inv (u_ : Cmd) (s : State) (hs : s.Inv) :
    (opChargeStop u_ s).2.Inv := by
  unfold opChargeStop
  repeat' first
    | with_reducible assumption
    | ((try lift_lets); intro x; refine (show State.Inv x → _ from ?_) ?_; (on_goal 2 => subst x); (on_goal 1 => (intro hx; clear_value x)))
    | with_reducible first | apply State.set_inv | apply State.endCycle_inv | apply State.zeroCharge_inv
        | apply State.setChgPhase_inv
    | split

theorem opChargeRestart_inv (u_ : Cmd) (s : State) (hs : s.Inv) :
    (opChargeRestart u_ s).2.Inv := by
  unfold opChargeRestart
  repeat' first
    | with_reducible assumption
    | ((try lift_lets); intro x; refine (show State.Inv x → _ from ?_) ?_; (on_goal 2 => subst x); (on_goal 1 => (intro hx; clear_value x)))
    | ((try lift_lets); intro x; clear_value x)
    | fail_if_no_progress (with_reducible apply inv_upd)
    | with_reducible first | apply State.set_inv | apply State.setChgPhase_inv | apply State.startCycle_inv
    | split

theorem State.snapCell_inv (s : State) (k : Fin 5) (hs : s.Inv) :
    (State.snapCell s k).Inv := by
  unfold State.snapCell
  repeat' first
    | with_reducible assumption
    | ((try lift_lets); intro x; refine (show State.Inv x → _ from ?_) ?_; (on_goal 2 => subst x); (on_goal 1 => (intro hx; clear_value x)))
    | ((try lift_lets); intro x; clear_value x)
    | with_reducible first | apply State.setSat_inv | apply State.seti_inv

theorem opEstimatorRead_inv (u_ : Cmd) (s : State) (hs : s.Inv) :
    (opEstimatorRead u_ s).2.Inv := by
  unfold opEstimatorRead
  repeat' first
    | with_reducible assumption
    | (intro t y ht; have hg : State.Inv t := ht; clear hg)
    | ((try lift_lets); intro x; refine (show State.Inv x → _ from ?_) ?_; (on_goal 2 => subst x); (on_goal 1 => (intro hx; clear_value x)))
    | ((try lift_lets); intro x; clear_value x)
    | intro _
    | with_reducible first | apply State.set_inv | apply State.setSat_inv | apply State.seti_inv
        | apply State.snapCell_inv | apply inv_foldl | apply inv_foldlFst | apply inv_foldlSnd
    | split

theorem opEstimatorReset_inv (u_ : Cmd) (s : State) (hs : s.Inv) :
    (opEstimatorReset u_ s).2.Inv := by
  unfold opEstimatorReset
  repeat' first
    | with_reducible assumption
    | with_reducible first | apply State.discardEst_inv
    | split

theorem execChargeStart_inv (s : State) (hs : s.Inv) :
    OutInv (execChargeStart s) := by
  unfold execChargeStart
  repeat' first
    | with_reducible assumption
    | (intro t ht; have hg : State.Inv t := ht; clear hg)
    | (intro y t ht; have hg : State.Inv t := ht; clear hg)
    | intro _
    | with_reducible first | apply State.when_inv | apply State.runCmd_inv | apply opChargeStart_inv
        | apply outInv_next

theorem execChargeStop_inv (s : State) (hs : s.Inv) :
    OutInv (execChargeStop s) := by
  unfold execChargeStop
  repeat' first
    | with_reducible assumption
    | (intro t ht; have hg : State.Inv t := ht; clear hg)
    | (intro y t ht; have hg : State.Inv t := ht; clear hg)
    | intro _
    | with_reducible first | apply State.when_inv | apply State.runCmd_inv | apply opChargeStop_inv
        | apply outInv_next

theorem execChargeRestartAfterFault_inv (s : State) (hs : s.Inv) :
    OutInv (execChargeRestartAfterFault s) := by
  unfold execChargeRestartAfterFault
  repeat' first
    | with_reducible assumption
    | (intro t ht; have hg : State.Inv t := ht; clear hg)
    | (intro y t ht; have hg : State.Inv t := ht; clear hg)
    | intro _
    | with_reducible first | apply State.when_inv | apply State.runCmd_inv | apply opChargeRestart_inv
        | apply outInv_next

theorem execEstimatorRead_inv (s : State) (hs : s.Inv) :
    OutInv (execEstimatorRead s) := by
  unfold execEstimatorRead
  repeat' first
    | with_reducible assumption
    | (intro t ht; have hg : State.Inv t := ht; clear hg)
    | (intro y t ht; have hg : State.Inv t := ht; clear hg)
    | intro _
    | with_reducible first | apply State.when_inv | apply State.runCmd_inv | apply opEstimatorRead_inv
        | apply outInv_next

theorem execEstimatorReset_inv (s : State) (hs : s.Inv) :
    OutInv (execEstimatorReset s) := by
  unfold execEstimatorReset
  repeat' first
    | with_reducible assumption
    | (intro t ht; have hg : State.Inv t := ht; clear hg)
    | (intro y t ht; have hg : State.Inv t := ht; clear hg)
    | intro _
    | with_reducible first | apply State.when_inv | apply State.runCmd_inv | apply opEstimatorReset_inv
        | apply State.set_inv | apply outInv_next

end Sys2Proof.Machine
end

