-- ==== Sys2Proof/Laws/InvPdOps.lean ====
section
/-! SUPPORT. Every operation of Machine/PdOps.lean keeps the canonical form of the register space. -/

set_option Elab.async false

namespace Sys2Proof.Machine

theorem State.putTable_inv (s : State) (reg : Nat → Fld) (first : Nat) (n : Nat) (ws : List Nat) (hs : s.Inv) :
    (State.putTable s reg first n ws).Inv := by
  unfold State.putTable
  repeat' first
    | with_reducible assumption
    | (intro t y ht; have hg : State.Inv t := ht; clear hg)
    | intro _
    | with_reducible first | apply State.set_inv | apply inv_foldl

theorem State.send_inv (s : State) (p : Fin 4) (sop : Nat) (kind : MsgKind) (objs : List Nat) (hs : s.Inv) :
    (State.send s p sop kind objs).Inv := by
  unfold State.send
  repeat' first
    | with_reducible assumption
    | intro _
    | fail_if_no_progress (with_reducible apply inv_upd)
    | with_reducible first | apply State.modTc_inv | apply State.emit_inv
    | split

theorem State.noteRev_inv (s : State) (p : Fin 4) (rev2 : Bool) (hs : s.Inv) :
    (State.noteRev s p rev2).Inv := by
  unfold State.noteRev
  repeat' first
    | with_reducible assumption
    | with_reducible first | apply State.set_inv
    | split

theorem State.awaits_inv (s : State) (p : Fin 4) (q : PeSeq) (hs : s.Inv) :
    (State.awaits s p q).Inv := by
  unfold State.awaits
  repeat' first
    | with_reducible assumption
    | intro _
    | fail_if_no_progress (with_reducible apply inv_upd)
    | with_reducible first | apply State.modPe_inv

theorem State.finishCmd_inv (s : State) (p : Fin 4) (r : Reply) (hs : s.Inv) :
    (State.finishCmd s p r).Inv := by
  unfold State.finishCmd
  repeat' first
    | with_reducible assumption
    | intro _
    | fail_if_no_progress (with_reducible apply inv_upd)
    | with_reducible first | apply State.modPe_inv | apply State.completeOpt_inv

theorem State.breakOff_inv (s : State) (p : Fin 4) (hs : s.Inv) :
    (State.breakOff s p).Inv := by
  unfold State.breakOff
  repeat' first
    | with_reducible assumption
    | intro _
    | fail_if_no_progress (with_reducible apply inv_upd)
    | with_reducible first | apply State.modTc_inv | apply State.finishCmd_inv
    | split

theorem State.finishFor_inv (s : State) (p : Fin 4) (q : PeSeq) (r : Reply) (hs : s.Inv) :
    (State.finishFor s p q r).Inv := by
  unfold State.finishFor
  repeat' first
    | with_reducible assumption
    | with_reducible first | apply State.finishCmd_inv
    | split

theorem State.peEvent_inv (s : State) (p : Fin 4) (f : Fld) (kind : Nat) (hs : s.Inv) :
    (State.peEvent s p f kind).Inv := by
  unfold State.peEvent
  repeat' first
    | with_reducible assumption
    | with_reducible first | apply State.set_inv | apply State.raisePd_inv

theorem State.abandonKa_inv (s : State) (hs : s.Inv) :
    (State.abandonKa s).Inv := by
  unfold State.abandonKa
  repeat' first
    | with_reducible assumption
    | ((try lift_lets); intro x; clear_value x)
    | fail_if_no_progress (with_reducible apply inv_upd)
    | with_reducible first | apply State.set_inv | apply State.raiseMode_inv
    | split

theorem State.startDiscover_inv (s : State) (p : Fin 4) (hs : s.Inv) :
    (State.startDiscover s p).Inv := by
  unfold State.startDiscover
  repeat' first
    | with_reducible assumption
    | intro _
    | fail_if_no_progress (with_reducible apply inv_upd)
    | with_reducible first | apply State.modTc_inv | apply State.send_inv

theorem State.endDiscover_inv (s : State) (p : Fin 4) (hs : s.Inv) :
    (State.endDiscover s p).Inv := by
  unfold State.endDiscover
  repeat' first
    | with_reducible assumption
    | ((try lift_lets); intro x; refine (show State.Inv x → _ from ?_) ?_; (on_goal 2 => subst x); (on_goal 1 => (intro hx; clear_value x)))
    | intro _
    | fail_if_no_progress (with_reducible apply inv_upd)
    | with_reducible first | apply State.modTc_inv | apply State.set_inv | apply State.raisePd_inv

theorem State.vconnOn_inv (s : State) (p : Fin 4) (hs : s.Inv) :
    (State.vconnOn s p).Inv := by
  unfold State.vconnOn
  repeat' first
    | with_reducible assumption
    | with_reducible first | apply State.set_inv | apply State.setb_inv | apply State.startDiscover_inv
    | split

theorem State.request_inv (s : State) (p : Fin 4) (o : Offer) (hs : s.Inv) :
    (State.request s p o).Inv := by
  unfold State.request
  repeat' first
    | with_reducible assumption
    | ((try lift_lets); intro x; refine (show State.Inv x → _ from ?_) ?_; (on_goal 2 => subst x); (on_goal 1 => (intro hx; clear_value x)))
    | ((try lift_lets); intro x; clear_value x)
    | intro _
    | fail_if_no_progress (with_reducible apply inv_upd)
    | with_reducible exact inv_regReset _ _
    | with_reducible apply hfn
    | with_reducible apply State.set_inv
    | with_reducible apply State.modPe_inv
    | with_reducible apply State.peEvent_inv
    | with_reducible apply State.setPe_inv
    | with_reducible apply State.awaits_inv
    | with_reducible apply State.send_inv
    | with_reducible apply outInv_next
    | with_reducible apply inv_foldl
    | with_reducible apply inv_foldlFst
    | with_reducible apply inv_foldlSnd
    | split

theorem State.evaluate_inv (s : State) (p : Fin 4) (hs : s.Inv) :
    (State.evaluate s p).Inv := by
  unfold State.evaluate
  repeat' first
    | with_reducible assumption
    | ((try lift_lets); intro x; refine (show State.Inv x → _ from ?_) ?_; (on_goal 2 => subst x); (on_goal 1 => (intro hx; clear_value x)))
    | intro _
    | fail_if_no_progress (with_reducible apply inv_upd)
    | with_reducible exact inv_regReset _ _
    | with_reducible apply hfn
    | with_reducible apply State.request_inv
    | with_reducible apply State.modPe_inv
    | with_reducible apply outInv_next
    | with_reducible apply inv_foldl
    | with_reducible apply inv_foldlFst
    | with_reducible apply inv_foldlSnd
    | split

theorem State.sendSrcCaps_inv (s : State) (p : Fin 4) (hs : s.Inv) :
    (State.sendSrcCaps s p).Inv := by
  unfold State.sendSrcCaps
  repeat' first
    | with_reducible assumption
    | ((try lift_lets); intro x; refine (show State.Inv x → _ from ?_) ?_; (on_goal 2 => subst x); (on_goal 1 => (intro hx; clear_value x)))
    | ((try lift_lets); intro x; clear_value x)
    | intro _
    | fail_if_no_progress (with_reducible apply inv_upd)
    | with_reducible first | apply State.putTable_inv | apply State.modPe_inv | apply State.send_inv

theorem State.sendChunk_inv (s : State) (p : Fin 4) (k : Nat) (x : ChunkXfer) (hs : s.Inv) :
    (State.sendChunk s p k x).Inv := by
  unfold State.sendChunk
  repeat' first
    | with_reducible assumption
    | ((try lift_lets); intro x; refine (show State.Inv x → _ from ?_) ?_; (on_goal 2 => subst x); (on_goal 1 => (intro hx; clear_value x)))
    | ((try lift_lets); intro x; clear_value x)
    | intro _
    | fail_if_no_progress (with_reducible apply inv_upd)
    | with_reducible first | apply State.modTc_inv | apply State.send_inv

theorem State.resend_inv (s : State) (p : Fin 4) (hs : s.Inv) :
    (State.resend s p).Inv := by
  unfold State.resend
  repeat' first
    | with_reducible assumption
    | ((try lift_lets); intro x; refine (show State.Inv x → _ from ?_) ?_; (on_goal 2 => subst x); (on_goal 1 => (intro hx; clear_value x)))
    | ((try lift_lets); intro x; clear_value x)
    | intro _
    | fail_if_no_progress (with_reducible apply inv_upd)
    | with_reducible exact inv_regReset _ _
    | with_reducible apply hfn
    | with_reducible apply State.modPe_inv
    | with_reducible apply State.request_inv
    | with_reducible apply State.setPe_inv
    | with_reducible apply State.awaits_inv
    | with_reducible apply State.send_inv
    | with_reducible apply State.set_inv
    | with_reducible apply outInv_next
    | with_reducible apply inv_foldl
    | with_reducible apply inv_foldlFst
    | with_reducible apply inv_foldlSnd
    | split

theorem State.runRequest_inv (s : State) (p : Fin 4) (hs : s.Inv) :
    (State.runRequest s p).Inv := by
  unfold State.runRequest
  repeat' first
    | with_reducible assumption
    | intro _
    | fail_if_no_progress (with_reducible apply inv_upd)
    | with_reducible exact inv_regReset _ _
    | with_reducible apply hfn
    | with_reducible apply State.request_inv
    | with_reducible apply State.resend_inv
    | with_reducible apply outInv_next
    | with_reducible apply inv_foldl
    | with_reducible apply inv_foldlFst
    | with_reducible apply inv_foldlSnd
    | split

theorem State.runEprEnter_inv (s : State) (p : Fin 4) (hs : s.Inv) :
    (State.runEprEnter s p).Inv := by
  unfold State.runEprEnter
  repeat' first
    | with_reducible assumption
    | ((try lift_lets); intro x; refine (show State.Inv x → _ from ?_) ?_; (on_goal 2 => subst x); (on_goal 1 => (intro hx; clear_value x)))
    | ((try lift_lets); intro x; refine (show State.Inv (Prod.snd x) → _ from ?_) ?_; (on_goal 2 => subst x); (on_goal 1 => (intro hx; clear_value x)))
    | intro _
    | fail_if_no_progress (with_reducible apply inv_upd)
    | with_reducible exact inv_regReset _ _
    | with_reducible apply hfn
    | with_reducible apply State.draw_inv
    | with_reducible apply State.modPe_inv
    | with_reducible apply State.setPe_inv
    | with_reducible apply State.awaits_inv
    | with_reducible apply State.send_inv

theorem State.runEprExit_inv (s : State) (p : Fin 4) (hs : s.Inv) :
    (State.runEprExit s p).Inv := by
  unfold State.runEprExit
  repeat' first
    | with_reducible assumption
    | ((try lift_lets); intro x; refine (show State.Inv x → _ from ?_) ?_; (on_goal 2 => subst x); (on_goal 1 => (intro hx; clear_value x)))
    | intro _
    | fail_if_no_progress (with_reducible apply inv_upd)
    | with_reducible exact inv_regReset _ _
    | with_reducible apply hfn
    | with_reducible apply State.modPe_inv
    | with_reducible apply State.request_inv
    | with_reducible apply State.send_inv
    | with_reducible apply State.endEpr_inv
    | with_reducible apply outInv_next
    | with_reducible apply inv_foldl
    | with_reducible apply inv_foldlFst
    | with_reducible apply inv_foldlSnd
    | split

theorem State.runSoftReset_inv (s : State) (p : Fin 4) (hs : s.Inv) :
    (State.runSoftReset s p).Inv := by
  unfold State.runSoftReset
  repeat' first
    | with_reducible assumption
    | ((try lift_lets); intro x; refine (show State.Inv x → _ from ?_) ?_; (on_goal 2 => subst x); (on_goal 1 => (intro hx; clear_value x)))
    | intro _
    | fail_if_no_progress (with_reducible apply inv_upd)
    | with_reducible exact inv_regReset _ _
    | with_reducible apply hfn
    | with_reducible apply State.finishCmd_inv
    | with_reducible apply State.modPe_inv
    | with_reducible apply State.modTc_inv
    | with_reducible apply State.setPe_inv
    | with_reducible apply State.awaits_inv
    | with_reducible apply State.send_inv

theorem State.enterSeq_inv (s : State) (p : Fin 4) (q : PeSeq) (stage : Nat) (hs : s.Inv) :
    (State.enterSeq s p q stage).Inv := by
  unfold State.enterSeq
  repeat' first
    | with_reducible assumption
    | intro _
    | fail_if_no_progress (with_reducible apply inv_upd)
    | with_reducible first | apply State.modPe_inv | apply State.awaits_inv

theorem State.runSeq_inv (s : State) (p : Fin 4) (q : PeSeq) (hs : s.Inv) :
    (State.runSeq s p q).Inv := by
  unfold State.runSeq
  repeat' first
    | with_reducible assumption
    | intro _
    | fail_if_no_progress (with_reducible apply inv_upd)
    | with_reducible exact inv_regReset _ _
    | with_reducible apply hfn
    | with_reducible apply State.request_inv
    | with_reducible apply State.runRequest_inv
    | with_reducible apply State.runEprEnter_inv
    | with_reducible apply State.runEprExit_inv
    | with_reducible apply State.enterSeq_inv
    | with_reducible apply State.send_inv
    | with_reducible apply State.setPe_inv
    | with_reducible apply State.modPe_inv
    | with_reducible apply State.sendChunk_inv
    | with_reducible apply State.runSoftReset_inv
    | with_reducible apply State.sendSrcCaps_inv
    | with_reducible apply State.startDiscover_inv
    | with_reducible apply State.set_inv
    | with_reducible apply outInv_next
    | with_reducible apply inv_foldl
    | with_reducible apply inv_foldlFst
    | with_reducible apply inv_foldlSnd
    | split

theorem State.startSeq_inv (s : State) (p : Fin 4) (q : PeSeq) (hs : s.Inv) :
    (State.startSeq s p q).Inv := by
  unfold State.startSeq
  repeat' first
    | with_reducible assumption
    | ((try lift_lets); intro x; refine (show State.Inv x → _ from ?_) ?_; (on_goal 2 => subst x); (on_goal 1 => (intro hx; clear_value x)))
    | intro _
    | fail_if_no_progress (with_reducible apply inv_upd)
    | with_reducible first | apply State.modPe_inv | apply State.setTerm_inv | apply State.runSeq_inv
        | apply State.set_inv
    | split

theorem State.runHeld_inv (s : State) (p : Fin 4) (hs : s.Inv) :
    (State.runHeld s p).Inv := by
  unfold State.runHeld
  repeat' first
    | with_reducible assumption
    | ((try lift_lets); intro x; clear_value x)
    | intro _
    | fail_if_no_progress (with_reducible apply inv_upd)
    | with_reducible first | apply State.modPe_inv | apply State.runSeq_inv

theorem State.kaDue_inv (s : State) (p : Fin 4) (q : PeSeq) (hs : s.Inv) :
    (State.kaDue s p q).Inv := by
  unfold State.kaDue
  repeat' first
    | with_reducible assumption
    | intro _
    | fail_if_no_progress (with_reducible apply inv_upd)
    | with_reducible first | apply State.modPe_inv | apply State.startSeq_inv
    | split

theorem State.endSeq_inv (s : State) (p : Fin 4) (hs : s.Inv) :
    (State.endSeq s p).Inv := by
  unfold State.endSeq
  repeat' first
    | with_reducible assumption
    | ((try lift_lets); intro x; refine (show State.Inv x → _ from ?_) ?_; (on_goal 2 => subst x); (on_goal 1 => (intro hx; clear_value x)))
    | ((try lift_lets); intro x; clear_value x)
    | intro _
    | fail_if_no_progress (with_reducible apply inv_upd)
    | with_reducible first | apply State.modPe_inv | apply State.setTerm_inv | apply State.startSeq_inv
        | apply State.set_inv
    | split

theorem State.swapDone_inv (s : State) (p : Fin 4) (hs : s.Inv) :
    (State.swapDone s p).Inv := by
  unfold State.swapDone
  repeat' first
    | with_reducible assumption
    | ((try lift_lets); intro x; refine (show State.Inv x → _ from ?_) ?_; (on_goal 2 => subst x); (on_goal 1 => (intro hx; clear_value x)))
    | ((try lift_lets); intro x; clear_value x)
    | with_reducible first | apply State.peEvent_inv | apply State.finishFor_inv | apply State.endSeq_inv

theorem State.hardResetSink_inv (s : State) (p : Fin 4) (hs : s.Inv) :
    (State.hardResetSink s p).Inv := by
  unfold State.hardResetSink
  repeat' first
    | with_reducible assumption
    | ((try lift_lets); intro x; refine (show State.Inv x → _ from ?_) ?_; (on_goal 2 => subst x); (on_goal 1 => (intro hx; clear_value x)))
    | intro _
    | fail_if_no_progress (with_reducible apply inv_upd)
    | with_reducible exact inv_regReset _ _
    | with_reducible apply hfn
    | with_reducible apply State.stopSource_inv
    | with_reducible apply State.leaveBus_inv
    | with_reducible apply State.vconnOff_inv
    | with_reducible apply State.set_inv
    | with_reducible apply State.setTerm_inv
    | with_reducible apply State.setTc_inv
    | with_reducible apply State.setPe_inv
    | with_reducible apply State.autoSelect_inv
    | with_reducible apply outInv_next
    | with_reducible apply inv_foldl
    | with_reducible apply inv_foldlFst
    | with_reducible apply inv_foldlSnd
    | split

theorem State.hardResetSource_inv (s : State) (p : Fin 4) (hs : s.Inv) :
    (State.hardResetSource s p).Inv := by
  unfold State.hardResetSource
  repeat' first
    | with_reducible assumption
    | ((try lift_lets); intro x; refine (show State.Inv x → _ from ?_) ?_; (on_goal 2 => subst x); (on_goal 1 => (intro hx; clear_value x)))
    | with_reducible first | apply State.leaveBus_inv | apply State.set_inv | apply State.setTerm_inv
        | apply State.setTc_inv | apply State.setPe_inv
    | split

theorem State.hardResetFrs_inv (s : State) (p : Fin 4) (hs : s.Inv) :
    (State.hardResetFrs s p).Inv := by
  unfold State.hardResetFrs
  repeat' first
    | with_reducible assumption
    | ((try lift_lets); intro x; refine (show State.Inv x → _ from ?_) ?_; (on_goal 2 => subst x); (on_goal 1 => (intro hx; clear_value x)))
    | with_reducible first | apply State.set_inv | apply State.setTerm_inv | apply State.setTc_inv
        | apply State.setPe_inv

theorem State.hardResetEnds_inv (s : State) (p : Fin 4) (hs : s.Inv) :
    (State.hardResetEnds s p).Inv := by
  unfold State.hardResetEnds
  repeat' first
    | with_reducible assumption
    | ((try lift_lets); intro x; refine (show State.Inv x → _ from ?_) ?_; (on_goal 2 => subst x); (on_goal 1 => (intro hx; clear_value x)))
    | ((try lift_lets); intro x; clear_value x)
    | intro _
    | fail_if_no_progress (with_reducible apply inv_upd)
    | with_reducible exact inv_regReset _ _
    | with_reducible apply hfn
    | with_reducible apply State.bump_inv
    | with_reducible apply State.set_inv
    | with_reducible apply State.peEvent_inv
    | with_reducible apply State.endPe_inv
    | with_reducible apply State.modPe_inv
    | with_reducible apply State.modTc_inv
    | with_reducible apply State.endEpr_inv
    | with_reducible apply State.clearContract_inv
    | with_reducible apply State.endString_inv

theorem State.hardReset_inv (s : State) (p : Fin 4) (hs : s.Inv) :
    (State.hardReset s p).Inv := by
  unfold State.hardReset
  repeat' first
    | with_reducible assumption
    | ((try lift_lets); intro x; refine (show State.Inv x → _ from ?_) ?_; (on_goal 2 => subst x); (on_goal 1 => (intro hx; clear_value x)))
    | ((try lift_lets); intro x; clear_value x)
    | intro _
    | fail_if_no_progress (with_reducible apply inv_upd)
    | with_reducible exact inv_regReset _ _
    | with_reducible apply hfn
    | with_reducible apply State.hardResetEnds_inv
    | with_reducible apply State.modPe_inv
    | with_reducible apply State.hardResetFrs_inv
    | with_reducible apply State.hardResetSource_inv
    | with_reducible apply State.hardResetSink_inv
    | with_reducible apply State.set_inv
    | with_reducible apply outInv_next
    | with_reducible apply inv_foldl
    | with_reducible apply inv_foldlFst
    | with_reducible apply inv_foldlSnd
    | split

theorem State.sendHardReset_inv (s : State) (p : Fin 4) (hs : s.Inv) :
    (State.sendHardReset s p).Inv := by
  unfold State.sendHardReset
  repeat' first
    | with_reducible assumption
    | with_reducible first | apply State.emit_inv | apply State.hardReset_inv

theorem State.resetLink_inv (s : State) (p : Fin 4) (hs : s.Inv) :
    (State.resetLink s p).Inv := by
  unfold State.resetLink
  repeat' first
    | with_reducible assumption
    | with_reducible first | apply State.endEpr_inv | apply State.runSeq_inv | apply State.sendHardReset_inv
        | apply State.set_inv
    | split

theorem State.sourceUp_inv (s : State) (p : Fin 4) (hs : s.Inv) :
    (State.sourceUp s p).Inv := by
  unfold State.sourceUp
  repeat' first
    | with_reducible assumption
    | ((try lift_lets); intro x; refine (show State.Inv x → _ from ?_) ?_; (on_goal 2 => subst x); (on_goal 1 => (intro hx; clear_value x)))
    | ((try lift_lets); intro x; clear_value x)
    | intro _
    | fail_if_no_progress (with_reducible apply inv_upd)
    | with_reducible exact inv_regReset _ _
    | with_reducible apply hfn
    | with_reducible apply State.modPe_inv
    | with_reducible apply State.set_inv
    | with_reducible apply State.setTc_inv
    | with_reducible apply State.send_inv
    | with_reducible apply State.modTc_inv
    | with_reducible apply State.setPe_inv
    | with_reducible apply State.swapDone_inv
    | with_reducible apply State.vconnOn_inv
    | with_reducible apply outInv_next
    | with_reducible apply inv_foldl
    | with_reducible apply inv_foldlFst
    | with_reducible apply inv_foldlSnd
    | split

end Sys2Proof.Machine
end

