-- ==== Sys2Proof/Laws/InvPath.lean ====
section
/-! SUPPORT. Every operation of Machine/Path.lean keeps the canonical form of the register space. -/

set_option Elab.async false

namespace Sys2Proof.Machine

theorem State.sinkClosed_inv (s : State) (b : Fin 2) (p : Fin 4) (hs : s.Inv) :
    (State.sinkClosed s b p).Inv := by
  unfold State.sinkClosed
  repeat' first
    | with_reducible assumption
    | ((try lift_lets); intro x; refine (show State.Inv x → _ from ?_) ?_; (on_goal 2 => subst x); (on_goal 1 => (intro hx; clear_value x)))
    | intro _
    | fail_if_no_progress (with_reducible apply inv_upd)
    | with_reducible first | apply State.setConn_inv | apply State.modBus_inv | apply State.groupDir_inv
        | apply State.groupStart_inv | apply State.inputConnected_inv | apply State.finishSelect_inv

theorem State.sourceClosed_inv (s : State) (b : Fin 2) (p : Fin 4) (hs : s.Inv) :
    (State.sourceClosed s b p).Inv := by
  unfold State.sourceClosed
  repeat' first
    | with_reducible assumption
    | ((try lift_lets); intro x; refine (show State.Inv x → _ from ?_) ?_; (on_goal 2 => subst x); (on_goal 1 => (intro hx; clear_value x)))
    | intro _
    | fail_if_no_progress (with_reducible apply inv_upd)
    | with_reducible first | apply State.setConn_inv | apply State.modBus_inv | apply State.modPath_inv
        | apply State.setBit_inv | apply State.sourceUp_inv

theorem execPairTurnOnDone_inv (b : Fin 2) (s : State) (hs : s.Inv) :
    OutInv (execPairTurnOnDone b s) := by
  unfold execPairTurnOnDone
  repeat' first
    | with_reducible assumption
    | (intro t ht; have hg : State.Inv t := ht; clear hg)
    | intro _
    | fail_if_no_progress (with_reducible apply inv_upd)
    | with_reducible first | apply State.when_inv | apply State.sourceClosed_inv | apply State.sinkClosed_inv
        | apply outInv_next
    | split

theorem State.busEmptied_inv (s : State) (b : Fin 2) (hs : s.Inv) :
    (State.busEmptied s b).Inv := by
  unfold State.busEmptied
  repeat' first
    | with_reducible assumption
    | ((try lift_lets); intro x; refine (show State.Inv x → _ from ?_) ?_; (on_goal 2 => subst x); (on_goal 1 => (intro hx; clear_value x)))
    | intro _
    | fail_if_no_progress (with_reducible apply inv_upd)
    | with_reducible first | apply State.groupStop_inv | apply State.modBus_inv | apply State.handOver_inv
        | apply State.finishSelect_inv | apply State.autoSelect_inv

theorem State.rampDone_inv (s : State) (b : Fin 2) (t : Option (Fin 4)) (vin : Nat) (vbus : Nat) (hs : s.Inv) :
    (State.rampDone s b t vin vbus).Inv := by
  unfold State.rampDone
  repeat' first
    | with_reducible assumption
    | ((try lift_lets); intro x; refine (show State.Inv x → _ from ?_) ?_; (on_goal 2 => subst x); (on_goal 1 => (intro hx; clear_value x)))
    | fail_if_no_progress (with_reducible apply inv_upd)
    | with_reducible first | apply State.setConn_inv | apply State.endInput_inv | apply State.chargeInputLost_inv
        | apply State.busEmptied_inv | apply State.closeOrSettle_inv | apply State.set_inv
    | split

theorem execBusMoveRampDone_inv (b : Fin 2) (vin : Nat) (vbus : Nat) (s : State) (hs : s.Inv) :
    OutInv (execBusMoveRampDone b vin vbus s) := by
  unfold execBusMoveRampDone
  repeat' first
    | with_reducible assumption
    | (intro t ht; have hg : State.Inv t := ht; clear hg)
    | intro _
    | fail_if_no_progress (with_reducible apply inv_upd)
    | with_reducible first | apply State.when_inv | apply State.rampDone_inv | apply outInv_next
    | split

theorem execBusMoveBusSettled_inv (b : Fin 2) (s : State) (hs : s.Inv) :
    OutInv (execBusMoveBusSettled b s) := by
  unfold execBusMoveBusSettled
  repeat' first
    | with_reducible assumption
    | (intro t ht; have hg : State.Inv t := ht; clear hg)
    | intro _
    | fail_if_no_progress (with_reducible apply inv_upd)
    | with_reducible exact inv_regReset _ _
    | with_reducible apply hfn
    | with_reducible apply State.when_inv
    | with_reducible apply State.settle_inv
    | with_reducible apply State.groupStop_inv
    | with_reducible apply State.modBus_inv
    | with_reducible apply State.set_inv
    | with_reducible apply outInv_next
    | with_reducible apply inv_foldl
    | with_reducible apply inv_foldlFst
    | with_reducible apply inv_foldlSnd
    | split

theorem State.setAuto_inv (s : State) (b : Fin 2) (auto : Bool) (hs : s.Inv) :
    (State.setAuto s b auto).Inv := by
  unfold State.setAuto
  repeat' first
    | with_reducible assumption
    | with_reducible first | apply State.setb_inv | apply State.set_inv
    | split

theorem State.markSel_inv (s : State) (b : Fin 2) (hs : s.Inv) :
    (State.markSel s b).Inv := by
  unfold State.markSel
  repeat' first
    | with_reducible assumption
    | intro _
    | fail_if_no_progress (with_reducible apply inv_upd)
    | with_reducible first | apply State.modBus_inv

theorem State.selBus_inv (s : State) (b : Fin 2) (v : Nat) (leaves : Bool) (hs : s.Inv) :
    (State.selBus s b v leaves).Inv := by
  unfold State.selBus
  repeat' first
    | with_reducible assumption
    | ((try lift_lets); intro x; refine (show State.Inv x → _ from ?_) ?_; (on_goal 2 => subst x); (on_goal 1 => (intro hx; clear_value x)))
    | ((try lift_lets); intro x; clear_value x)
    | intro _
    | fail_if_no_progress (with_reducible apply inv_upd)
    | with_reducible exact inv_regReset _ _
    | with_reducible apply hfn
    | with_reducible apply State.setAuto_inv
    | with_reducible apply State.modBus_inv
    | with_reducible apply State.beginMove_inv
    | with_reducible apply State.markSel_inv
    | with_reducible apply State.beginConnect_inv
    | with_reducible apply State.set_inv
    | with_reducible apply outInv_next
    | with_reducible apply inv_foldl
    | with_reducible apply inv_foldlFst
    | with_reducible apply inv_foldlSnd
    | split

theorem opInputSelect_inv (c : Cmd) (s : State) (hs : s.Inv) :
    (opInputSelect c s).2.Inv := by
  unfold opInputSelect
  repeat' first
    | with_reducible assumption
    | ((try lift_lets); intro x; refine (show State.Inv x → _ from ?_) ?_; (on_goal 2 => subst x); (on_goal 1 => (intro hx; clear_value x)))
    | ((try lift_lets); intro x; clear_value x)
    | intro _
    | fail_if_no_progress (with_reducible apply inv_upd)
    | with_reducible exact inv_regReset _ _
    | with_reducible apply hfn
    | with_reducible apply State.selBus_inv
    | with_reducible apply State.autoSelect_inv
    | with_reducible apply State.finishSelect_inv
    | with_reducible apply outInv_next
    | with_reducible apply inv_foldl
    | with_reducible apply inv_foldlFst
    | with_reducible apply inv_foldlSnd
    | split

theorem execInputSelect_inv (s : State) (hs : s.Inv) :
    OutInv (execInputSelect s) := by
  unfold execInputSelect
  repeat' first
    | with_reducible assumption
    | (intro t ht; have hg : State.Inv t := ht; clear hg)
    | (intro y t ht; have hg : State.Inv t := ht; clear hg)
    | intro _
    | with_reducible first | apply State.when_inv | apply State.runCmd_inv | apply opInputSelect_inv
        | apply outInv_next

theorem execVExpSettle_inv (p : Fin 4) (s : State) (hs : s.Inv) :
    OutInv (execVExpSettle p s) := by
  unfold execVExpSettle
  repeat' first
    | with_reducible assumption
    | (intro t ht; have hg : State.Inv t := ht; clear hg)
    | intro _
    | fail_if_no_progress (with_reducible apply inv_upd)
    | with_reducible first | apply State.when_inv | apply State.modPath_inv | apply outInv_next

theorem execBatfetToSwitch_inv (vbat : Nat) (s : State) (hs : s.Inv) :
    OutInv (execBatfetToSwitch vbat s) := by
  unfold execBatfetToSwitch
  repeat' first
    | with_reducible assumption
    | (intro t ht; have hg : State.Inv t := ht; clear hg)
    | ((try lift_lets); intro x; refine (show State.Inv x → _ from ?_) ?_; (on_goal 2 => subst x); (on_goal 1 => (intro hx; clear_value x)))
    | ((try lift_lets); intro x; clear_value x)
    | intro _
    | fail_if_no_progress (with_reducible apply inv_upd)
    | with_reducible first | apply State.when_inv | apply State.setSat_inv | apply State.set_inv | apply outInv_next

theorem execBatfetToLinear_inv (vbat : Nat) (s : State) (hs : s.Inv) :
    OutInv (execBatfetToLinear vbat s) := by
  unfold execBatfetToLinear
  repeat' first
    | with_reducible assumption
    | (intro t ht; have hg : State.Inv t := ht; clear hg)
    | intro _
    | with_reducible first | apply State.when_inv | apply State.setSat_inv | apply State.set_inv | apply outInv_next

theorem execBatfetFastOn_inv (s : State) (hs : s.Inv) :
    OutInv (execBatfetFastOn s) := by
  unfold execBatfetFastOn
  repeat' first
    | with_reducible assumption
    | (intro t ht; have hg : State.Inv t := ht; clear hg)
    | ((try lift_lets); intro x; refine (show State.Inv x → _ from ?_) ?_; (on_goal 2 => subst x); (on_goal 1 => (intro hx; clear_value x)))
    | ((try lift_lets); intro x; clear_value x)
    | intro _
    | fail_if_no_progress (with_reducible apply inv_upd)
    | with_reducible first | apply State.when_inv | apply State.set_inv | apply State.probePassed_inv
        | apply outInv_next
    | split

theorem execBatfetReverseOff_inv (s : State) (hs : s.Inv) :
    OutInv (execBatfetReverseOff s) := by
  unfold execBatfetReverseOff
  repeat' first
    | with_reducible assumption
    | (intro t ht; have hg : State.Inv t := ht; clear hg)
    | ((try lift_lets); intro x; clear_value x)
    | intro _
    | fail_if_no_progress (with_reducible apply inv_upd)
    | with_reducible first | apply State.when_inv | apply outInv_next

theorem execBatfetLinearResume_inv (s : State) (hs : s.Inv) :
    OutInv (execBatfetLinearResume s) := by
  unfold execBatfetLinearResume
  repeat' first
    | with_reducible assumption
    | (intro t ht; have hg : State.Inv t := ht; clear hg)
    | ((try lift_lets); intro x; clear_value x)
    | intro _
    | fail_if_no_progress (with_reducible apply inv_upd)
    | with_reducible first | apply State.when_inv | apply outInv_next

theorem State.pathFault_inv (s : State) (cause : Nat) (p : Fin 4) (b : Fin 2) (hs : s.Inv) :
    (State.pathFault s cause p b).Inv := by
  unfold State.pathFault
  repeat' first
    | with_reducible assumption
    | with_reducible first | apply State.raiseFault_inv

theorem execSinkDrop_inv (b : Fin 2) (vin : Nat) (s : State) (hs : s.Inv) :
    OutInv (execSinkDrop b vin s) := by
  unfold execSinkDrop
  repeat' first
    | with_reducible assumption
    | (intro t ht; have hg : State.Inv t := ht; clear hg)
    | ((try lift_lets); intro x; refine (show State.Inv x → _ from ?_) ?_; (on_goal 2 => subst x); (on_goal 1 => (intro hx; clear_value x)))
    | ((try lift_lets); intro x; clear_value x)
    | intro _
    | with_reducible first | apply State.when_inv | apply State.setSat_inv | apply State.set_inv
        | apply State.parStop_inv | apply State.setBit_inv | apply State.pathFault_inv | apply State.loseSink_inv
        | apply State.abortSelect_inv | apply State.autoSelect_inv | apply outInv_next
    | split

theorem State.openHeld_inv (s : State) (b : Fin 2) (p : Fin 4) (why : HoldWhy) (hs : s.Inv) :
    (State.openHeld s b p why).Inv := by
  unfold State.openHeld
  repeat' first
    | with_reducible assumption
    | intro _
    | fail_if_no_progress (with_reducible apply inv_upd)
    | with_reducible first | apply State.loseSink_inv | apply State.modBus_inv

theorem execSinkOvp_inv (b : Fin 2) (vin : Nat) (s : State) (hs : s.Inv) :
    OutInv (execSinkOvp b vin s) := by
  unfold execSinkOvp
  repeat' first
    | with_reducible assumption
    | (intro t ht; have hg : State.Inv t := ht; clear hg)
    | ((try lift_lets); intro x; refine (show State.Inv x → _ from ?_) ?_; (on_goal 2 => subst x); (on_goal 1 => (intro hx; clear_value x)))
    | ((try lift_lets); intro x; clear_value x)
    | intro _
    | fail_if_no_progress (with_reducible apply inv_upd)
    | with_reducible exact inv_regReset _ _
    | with_reducible apply hfn
    | with_reducible apply State.when_inv
    | with_reducible apply State.setSat_inv
    | with_reducible apply State.set_inv
    | with_reducible apply State.parStop_inv
    | with_reducible apply State.modPath_inv
    | with_reducible apply State.pathFault_inv
    | with_reducible apply State.setBit_inv
    | with_reducible apply State.loseSink_inv
    | with_reducible apply State.abortSelect_inv
    | with_reducible apply State.autoSelect_inv
    | with_reducible apply State.openHeld_inv
    | with_reducible apply outInv_next
    | with_reducible apply inv_foldl
    | with_reducible apply inv_foldlFst
    | with_reducible apply inv_foldlSnd
    | split

theorem State.reclose_inv (s : State) (b : Fin 2) (hs : s.Inv) :
    (State.reclose s b).Inv := by
  unfold State.reclose
  repeat' first
    | with_reducible assumption
    | ((try lift_lets); intro x; refine (show State.Inv x → _ from ?_) ?_; (on_goal 2 => subst x); (on_goal 1 => (intro hx; clear_value x)))
    | intro _
    | fail_if_no_progress (with_reducible apply inv_upd)
    | with_reducible first | apply State.modBus_inv | apply State.beginConnect_inv | apply State.autoSelect_inv
    | split

theorem execSinkOvpReclose_inv (b : Fin 2) (s : State) (hs : s.Inv) :
    OutInv (execSinkOvpReclose b s) := by
  unfold execSinkOvpReclose
  repeat' first
    | with_reducible assumption
    | (intro t ht; have hg : State.Inv t := ht; clear hg)
    | intro _
    | fail_if_no_progress (with_reducible apply inv_upd)
    | with_reducible first | apply State.when_inv | apply State.reclose_inv | apply outInv_next

theorem execSinkReverse_inv (b : Fin 2) (iin : Int) (s : State) (hs : s.Inv) :
    OutInv (execSinkReverse b iin s) := by
  unfold execSinkReverse
  repeat' first
    | with_reducible assumption
    | (intro t ht; have hg : State.Inv t := ht; clear hg)
    | ((try lift_lets); intro x; refine (show State.Inv x → _ from ?_) ?_; (on_goal 2 => subst x); (on_goal 1 => (intro hx; clear_value x)))
    | ((try lift_lets); intro x; clear_value x)
    | intro _
    | with_reducible first | apply State.when_inv | apply State.seti_inv | apply State.set_inv
        | apply State.pathFault_inv | apply State.openHeld_inv | apply State.abortSelect_inv | apply outInv_next

theorem execSinkRevReconnect_inv (b : Fin 2) (s : State) (hs : s.Inv) :
    OutInv (execSinkRevReconnect b s) := by
  unfold execSinkRevReconnect
  repeat' first
    | with_reducible assumption
    | (intro t ht; have hg : State.Inv t := ht; clear hg)
    | intro _
    | fail_if_no_progress (with_reducible apply inv_upd)
    | with_reducible first | apply State.when_inv | apply State.reclose_inv | apply outInv_next

theorem execSourceBusReady_inv (p : Fin 4) (s : State) (hs : s.Inv) :
    OutInv (execSourceBusReady p s) := by
  unfold execSourceBusReady
  repeat' first
    | with_reducible assumption
    | (intro t ht; have hg : State.Inv t := ht; clear hg)
    | intro _
    | fail_if_no_progress (with_reducible apply inv_upd)
    | with_reducible first | apply State.when_inv | apply State.modPath_inv | apply State.modBus_inv
        | apply outInv_next
    | split

theorem State.sourceFault_inv (s : State) (p : Fin 4) (cause : Nat) (hs : s.Inv) :
    (State.sourceFault s p cause).Inv := by
  unfold State.sourceFault
  repeat' first
    | with_reducible assumption
    | with_reducible first | apply State.pathFault_inv | apply State.errorRecovery_inv

theorem execSourceOverload_inv (p : Fin 4) (s : State) (hs : s.Inv) :
    OutInv (execSourceOverload p s) := by
  unfold execSourceOverload
  repeat' first
    | with_reducible assumption
    | (intro t ht; have hg : State.Inv t := ht; clear hg)
    | intro _
    | with_reducible first | apply State.when_inv | apply State.setBit_inv | apply State.sourceFault_inv
        | apply State.set_inv | apply outInv_next

theorem execSourceShort_inv (p : Fin 4) (s : State) (hs : s.Inv) :
    OutInv (execSourceShort p s) := by
  unfold execSourceShort
  repeat' first
    | with_reducible assumption
    | (intro t ht; have hg : State.Inv t := ht; clear hg)
    | intro _
    | with_reducible first | apply State.when_inv | apply State.setBit_inv | apply State.sourceFault_inv
        | apply State.set_inv | apply outInv_next

theorem execSourceReverse_inv (p : Fin 4) (s : State) (hs : s.Inv) :
    OutInv (execSourceReverse p s) := by
  unfold execSourceReverse
  repeat' first
    | with_reducible assumption
    | (intro t ht; have hg : State.Inv t := ht; clear hg)
    | intro _
    | with_reducible first | apply State.when_inv | apply State.setBit_inv | apply State.sourceFault_inv
        | apply State.set_inv | apply outInv_next

end Sys2Proof.Machine
end

