-- ==== Sys2Proof/Laws/InvLink.lean ====
section
/-! SUPPORT. Every operation of Machine/Link.lean keeps the canonical form of the register space. -/

set_option Elab.async false

namespace Sys2Proof.Machine

theorem State.attachTest_inv (s : State) (p : Fin 4) (hs : s.Inv) :
    (State.attachTest s p).Inv := by
  unfold State.attachTest
  repeat' first
    | with_reducible assumption
    | intro _
    | fail_if_no_progress (with_reducible apply inv_upd)
    | with_reducible first | apply State.modTc_inv
    | split

theorem execCcRpDetect_inv (p : Fin 4) (src : Bool) (cc2 : Bool) (ra : Bool) (level : Fin 3) (s : State) (hs : s.Inv) :
    OutInv (execCcRpDetect p src cc2 ra level s) := by
  unfold execCcRpDetect
  repeat' first
    | with_reducible assumption
    | (intro t ht; have hg : State.Inv t := ht; clear hg)
    | ((try lift_lets); intro x; refine (show State.Inv x → _ from ?_) ?_; (on_goal 2 => subst x); (on_goal 1 => (intro hx; clear_value x)))
    | intro _
    | fail_if_no_progress (with_reducible apply inv_upd)
    | with_reducible first | apply State.when_inv | apply State.setb_inv | apply State.set_inv | apply State.modTc_inv
        | apply State.setTc_inv | apply State.attachTest_inv | apply outInv_next

theorem execAttachWaitCcOpen_inv (p : Fin 4) (s : State) (hs : s.Inv) :
    OutInv (execAttachWaitCcOpen p s) := by
  unfold execAttachWaitCcOpen
  repeat' first
    | with_reducible assumption
    | (intro t ht; have hg : State.Inv t := ht; clear hg)
    | ((try lift_lets); intro x; refine (show State.Inv x → _ from ?_) ?_; (on_goal 2 => subst x); (on_goal 1 => (intro hx; clear_value x)))
    | intro _
    | fail_if_no_progress (with_reducible apply inv_upd)
    | with_reducible first | apply State.when_inv | apply State.set_inv | apply State.modTc_inv
        | apply State.setTc_inv | apply outInv_next

theorem State.attachSink_inv (s : State) (p : Fin 4) (hs : s.Inv) :
    (State.attachSink s p).Inv := by
  unfold State.attachSink
  repeat' first
    | with_reducible assumption
    | ((try lift_lets); intro x; refine (show State.Inv x → _ from ?_) ?_; (on_goal 2 => subst x); (on_goal 1 => (intro hx; clear_value x)))
    | intro _
    | fail_if_no_progress (with_reducible apply inv_upd)
    | with_reducible exact inv_regReset _ _
    | with_reducible apply hfn
    | with_reducible apply State.setTerm_inv
    | with_reducible apply State.modTc_inv
    | with_reducible apply State.modPe_inv
    | with_reducible apply State.set_inv
    | with_reducible apply State.setTc_inv
    | with_reducible apply State.abandonKa_inv
    | with_reducible apply State.attachRestart_inv
    | with_reducible apply State.setContract_inv
    | with_reducible apply State.setPe_inv
    | with_reducible apply State.autoSelect_inv
    | with_reducible apply outInv_next
    | with_reducible apply inv_foldl
    | with_reducible apply inv_foldlFst
    | with_reducible apply inv_foldlSnd
    | split

theorem execSinkAttach_inv (p : Fin 4) (vbus : Nat) (s : State) (hs : s.Inv) :
    OutInv (execSinkAttach p vbus s) := by
  unfold execSinkAttach
  repeat' first
    | with_reducible assumption
    | (intro t ht; have hg : State.Inv t := ht; clear hg)
    | ((try lift_lets); intro x; refine (show State.Inv x → _ from ?_) ?_; (on_goal 2 => subst x); (on_goal 1 => (intro hx; clear_value x)))
    | intro _
    | fail_if_no_progress (with_reducible apply inv_upd)
    | with_reducible exact inv_regReset _ _
    | with_reducible apply hfn
    | with_reducible apply State.when_inv
    | with_reducible apply State.setSat_inv
    | with_reducible apply State.setTerm_inv
    | with_reducible apply State.setTc_inv
    | with_reducible apply State.attachSink_inv
    | with_reducible apply State.set_inv
    | with_reducible apply outInv_next
    | with_reducible apply inv_foldl
    | with_reducible apply inv_foldlFst
    | with_reducible apply inv_foldlSnd
    | split

theorem State.attachSource_inv (s : State) (p : Fin 4) (hs : s.Inv) :
    (State.attachSource s p).Inv := by
  unfold State.attachSource
  repeat' first
    | with_reducible assumption
    | ((try lift_lets); intro x; refine (show State.Inv x → _ from ?_) ?_; (on_goal 2 => subst x); (on_goal 1 => (intro hx; clear_value x)))
    | intro _
    | fail_if_no_progress (with_reducible apply inv_upd)
    | with_reducible first | apply State.setTerm_inv | apply State.modTc_inv | apply State.modPe_inv
        | apply State.set_inv | apply State.setTc_inv | apply State.abandonKa_inv | apply State.startSource_inv

theorem execSourceAttach_inv (p : Fin 4) (vbus : Nat) (s : State) (hs : s.Inv) :
    OutInv (execSourceAttach p vbus s) := by
  unfold execSourceAttach
  repeat' first
    | with_reducible assumption
    | (intro t ht; have hg : State.Inv t := ht; clear hg)
    | ((try lift_lets); intro x; refine (show State.Inv x → _ from ?_) ?_; (on_goal 2 => subst x); (on_goal 1 => (intro hx; clear_value x)))
    | intro _
    | with_reducible first | apply State.when_inv | apply State.setSat_inv | apply State.setTerm_inv
        | apply State.setTc_inv | apply State.attachSource_inv | apply State.set_inv | apply outInv_next
    | split

theorem execRpChange_inv (p : Fin 4) (level : Fin 3) (s : State) (hs : s.Inv) :
    OutInv (execRpChange p level s) := by
  unfold execRpChange
  repeat' first
    | with_reducible assumption
    | (intro t ht; have hg : State.Inv t := ht; clear hg)
    | intro _
    | with_reducible first | apply State.when_inv | apply State.set_inv | apply outInv_next
    | split

theorem State.unattach_inv (s : State) (p : Fin 4) (hs : s.Inv) :
    (State.unattach s p).Inv := by
  unfold State.unattach
  repeat' first
    | with_reducible assumption
    | ((try lift_lets); intro x; refine (show State.Inv x → _ from ?_) ?_; (on_goal 2 => subst x); (on_goal 1 => (intro hx; clear_value x)))
    | intro _
    | fail_if_no_progress (with_reducible apply inv_upd)
    | with_reducible exact inv_regReset _ _
    | with_reducible apply hfn
    | with_reducible apply State.detachPort_inv
    | with_reducible apply State.modTc_inv
    | with_reducible apply State.setPe_inv
    | with_reducible apply State.set_inv
    | with_reducible apply State.setTerm_inv
    | with_reducible apply State.setTc_inv
    | with_reducible apply State.autoSelect_inv

theorem execSinkDetach_inv (p : Fin 4) (vbus : Nat) (s : State) (hs : s.Inv) :
    OutInv (execSinkDetach p vbus s) := by
  unfold execSinkDetach
  repeat' first
    | with_reducible assumption
    | (intro t ht; have hg : State.Inv t := ht; clear hg)
    | intro _
    | fail_if_no_progress (with_reducible apply inv_upd)
    | with_reducible exact inv_regReset _ _
    | with_reducible apply hfn
    | with_reducible apply State.when_inv
    | with_reducible apply State.setSat_inv
    | with_reducible apply State.unattach_inv
    | with_reducible apply State.set_inv
    | with_reducible apply outInv_next

theorem execSourceDetach_inv (p : Fin 4) (s : State) (hs : s.Inv) :
    OutInv (execSourceDetach p s) := by
  unfold execSourceDetach
  repeat' first
    | with_reducible assumption
    | (intro t ht; have hg : State.Inv t := ht; clear hg)
    | intro _
    | fail_if_no_progress (with_reducible apply inv_upd)
    | with_reducible exact inv_regReset _ _
    | with_reducible apply hfn
    | with_reducible apply State.when_inv
    | with_reducible apply State.unattach_inv
    | with_reducible apply outInv_next

theorem State.accEvent_inv (s : State) (p : Fin 4) (hs : s.Inv) :
    (State.accEvent s p).Inv := by
  unfold State.accEvent
  repeat' first
    | with_reducible assumption
    | with_reducible first | apply State.set_inv | apply State.raisePd_inv

theorem execAccessoryAttach_inv (p : Fin 4) (kind : Fin 3) (l1 : Fin 3) (l2 : Fin 3) (s : State) (hs : s.Inv) :
    OutInv (execAccessoryAttach p kind l1 l2 s) := by
  unfold execAccessoryAttach
  repeat' first
    | with_reducible assumption
    | (intro t ht; have hg : State.Inv t := ht; clear hg)
    | ((try lift_lets); intro x; refine (show State.Inv x → _ from ?_) ?_; (on_goal 2 => subst x); (on_goal 1 => (intro hx; clear_value x)))
    | intro _
    | fail_if_no_progress (with_reducible apply inv_upd)
    | with_reducible exact inv_regReset _ _
    | with_reducible apply hfn
    | with_reducible apply State.when_inv
    | with_reducible apply State.set_inv
    | with_reducible apply State.modTc_inv
    | with_reducible apply State.abandonKa_inv
    | with_reducible apply State.setTc_inv
    | with_reducible apply State.accEvent_inv
    | with_reducible apply State.startSource_inv
    | with_reducible apply State.setb_inv
    | with_reducible apply State.setContract_inv
    | with_reducible apply State.autoSelect_inv
    | with_reducible apply outInv_next
    | with_reducible apply inv_foldl
    | with_reducible apply inv_foldlFst
    | with_reducible apply inv_foldlSnd
    | split

theorem execAccessoryDetach_inv (p : Fin 4) (s : State) (hs : s.Inv) :
    OutInv (execAccessoryDetach p s) := by
  unfold execAccessoryDetach
  repeat' first
    | with_reducible assumption
    | (intro t ht; have hg : State.Inv t := ht; clear hg)
    | intro _
    | fail_if_no_progress (with_reducible apply inv_upd)
    | with_reducible exact inv_regReset _ _
    | with_reducible apply hfn
    | with_reducible apply State.when_inv
    | with_reducible apply State.unattach_inv
    | with_reducible apply State.accEvent_inv
    | with_reducible apply outInv_next

theorem execDrpToggle_inv (p : Fin 4) (s : State) (hs : s.Inv) :
    OutInv (execDrpToggle p s) := by
  unfold execDrpToggle
  repeat' first
    | with_reducible assumption
    | (intro t ht; have hg : State.Inv t := ht; clear hg)
    | intro _
    | with_reducible first | apply State.when_inv | apply State.setTerm_inv | apply State.setTc_inv
        | apply State.set_inv | apply outInv_next
    | split

theorem execTryTimeout_inv (p : Fin 4) (s : State) (hs : s.Inv) :
    OutInv (execTryTimeout p s) := by
  unfold execTryTimeout
  repeat' first
    | with_reducible assumption
    | (intro t ht; have hg : State.Inv t := ht; clear hg)
    | intro _
    | with_reducible first | apply State.when_inv | apply State.setTerm_inv | apply State.setTc_inv
        | apply State.set_inv | apply outInv_next
    | split

theorem execErrorRecoveryEnd_inv (p : Fin 4) (s : State) (hs : s.Inv) :
    OutInv (execErrorRecoveryEnd p s) := by
  unfold execErrorRecoveryEnd
  repeat' first
    | with_reducible assumption
    | (intro t ht; have hg : State.Inv t := ht; clear hg)
    | ((try lift_lets); intro x; refine (show State.Inv x → _ from ?_) ?_; (on_goal 2 => subst x); (on_goal 1 => (intro hx; clear_value x)))
    | intro _
    | with_reducible first | apply State.when_inv | apply State.set_inv | apply State.setTerm_inv
        | apply State.setPe_inv | apply State.setTc_inv | apply outInv_next

theorem execRpLevelRaise_inv (p : Fin 4) (s : State) (hs : s.Inv) :
    OutInv (execRpLevelRaise p s) := by
  unfold execRpLevelRaise
  repeat' first
    | with_reducible assumption
    | (intro t ht; have hg : State.Inv t := ht; clear hg)
    | intro _
    | fail_if_no_progress (with_reducible apply inv_upd)
    | with_reducible first | apply State.when_inv | apply State.setTerm_inv | apply State.set_inv | apply outInv_next
    | split

theorem State.stopDiscover_inv (s : State) (p : Fin 4) (hs : s.Inv) :
    (State.stopDiscover s p).Inv := by
  unfold State.stopDiscover
  repeat' first
    | with_reducible assumption
    | with_reducible first | apply State.endDiscover_inv
    | split

theorem execVconnOcp_inv (p : Fin 4) (s : State) (hs : s.Inv) :
    OutInv (execVconnOcp p s) := by
  unfold execVconnOcp
  repeat' first
    | with_reducible assumption
    | (intro t ht; have hg : State.Inv t := ht; clear hg)
    | ((try lift_lets); intro x; refine (show State.Inv x → _ from ?_) ?_; (on_goal 2 => subst x); (on_goal 1 => (intro hx; clear_value x)))
    | intro _
    | fail_if_no_progress (with_reducible apply inv_upd)
    | with_reducible exact inv_regReset _ _
    | with_reducible apply hfn
    | with_reducible apply State.when_inv
    | with_reducible apply State.vconnOff_inv
    | with_reducible apply State.set_inv
    | with_reducible apply State.modTc_inv
    | with_reducible apply State.raiseFault_inv
    | with_reducible apply State.stopDiscover_inv
    | with_reducible apply outInv_next

theorem execVconnReverse_inv (p : Fin 4) (s : State) (hs : s.Inv) :
    OutInv (execVconnReverse p s) := by
  unfold execVconnReverse
  repeat' first
    | with_reducible assumption
    | (intro t ht; have hg : State.Inv t := ht; clear hg)
    | ((try lift_lets); intro x; refine (show State.Inv x → _ from ?_) ?_; (on_goal 2 => subst x); (on_goal 1 => (intro hx; clear_value x)))
    | intro _
    | with_reducible first | apply State.when_inv | apply State.set_inv | apply State.raiseFault_inv
        | apply State.stopDiscover_inv | apply outInv_next

theorem execVbusDischargeDone_inv (p : Fin 4) (vbus : Nat) (s : State) (hs : s.Inv) :
    OutInv (execVbusDischargeDone p vbus s) := by
  unfold execVbusDischargeDone
  repeat' first
    | with_reducible assumption
    | (intro t ht; have hg : State.Inv t := ht; clear hg)
    | intro _
    | fail_if_no_progress (with_reducible apply inv_upd)
    | with_reducible first | apply State.when_inv | apply State.discharge_inv | apply State.setSat_inv
        | apply State.modTc_inv | apply State.set_inv | apply outInv_next

theorem execMoistScan_inv (p : Fin 4) (s : State) (hs : s.Inv) :
    OutInv (execMoistScan p s) := by
  unfold execMoistScan
  repeat' first
    | with_reducible assumption
    | (intro t ht; have hg : State.Inv t := ht; clear hg)
    | intro _
    | fail_if_no_progress (with_reducible apply inv_upd)
    | with_reducible first | apply State.when_inv | apply State.modTc_inv | apply outInv_next

theorem State.moistZ_inv (s : State) (p : Fin 4) (pins : Nat) (z : List Nat) (hs : s.Inv) :
    (State.moistZ s p pins z).Inv := by
  unfold State.moistZ
  repeat' first
    | with_reducible assumption
    | ((try lift_lets); intro x; refine (show (∀ t y z, State.Inv t → State.Inv (x t y z)) → _ from ?_) ?_; (on_goal 2 => (subst x; intro _ _ _ _; beta_reduce)); (on_goal 1 => (intro hfn; clear_value x)))
    | with_reducible first | apply hfn | apply State.setSat_inv | apply State.set_inv
    | split

theorem State.declareWet_inv (s : State) (p : Fin 4) (pins : Nat) (gal : Bool) (hs : s.Inv) :
    (State.declareWet s p pins gal).Inv := by
  unfold State.declareWet
  repeat' first
    | with_reducible assumption
    | ((try lift_lets); intro x; refine (show State.Inv x → _ from ?_) ?_; (on_goal 2 => subst x); (on_goal 1 => (intro hx; clear_value x)))
    | intro _
    | fail_if_no_progress (with_reducible apply inv_upd)
    | with_reducible exact inv_regReset _ _
    | with_reducible apply hfn
    | with_reducible apply State.set_inv
    | with_reducible apply State.setb_inv
    | with_reducible apply State.bump_inv
    | with_reducible apply State.raiseMoist_inv
    | with_reducible apply State.vconnOff_inv
    | with_reducible apply State.setTerm_inv
    | with_reducible apply State.modTc_inv
    | with_reducible apply State.setTc_inv
    | with_reducible apply outInv_next
    | with_reducible apply inv_foldl
    | with_reducible apply inv_foldlFst
    | with_reducible apply inv_foldlSnd
    | split

theorem State.declareDry_inv (s : State) (p : Fin 4) (hs : s.Inv) :
    (State.declareDry s p).Inv := by
  unfold State.declareDry
  repeat' first
    | with_reducible assumption
    | ((try lift_lets); intro x; refine (show State.Inv x → _ from ?_) ?_; (on_goal 2 => subst x); (on_goal 1 => (intro hx; clear_value x)))
    | intro _
    | fail_if_no_progress (with_reducible apply inv_upd)
    | with_reducible exact inv_regReset _ _
    | with_reducible apply hfn
    | with_reducible apply State.set_inv
    | with_reducible apply State.raiseMoist_inv
    | with_reducible apply State.modTc_inv
    | with_reducible apply State.sendHardReset_inv
    | with_reducible apply State.setPe_inv
    | with_reducible apply State.setTerm_inv
    | with_reducible apply State.setTc_inv
    | with_reducible apply outInv_next
    | with_reducible apply inv_foldl
    | with_reducible apply inv_foldlFst
    | with_reducible apply inv_foldlSnd
    | split

theorem State.wetResult_inv (s : State) (p : Fin 4) (clean : Bool) (hs : s.Inv) :
    (State.wetResult s p clean).Inv := by
  unfold State.wetResult
  repeat' first
    | with_reducible assumption
    | ((try lift_lets); intro x; refine (show State.Inv x → _ from ?_) ?_; (on_goal 2 => subst x); (on_goal 1 => (intro hx; clear_value x)))
    | ((try lift_lets); intro x; clear_value x)
    | intro _
    | fail_if_no_progress (with_reducible apply inv_upd)
    | with_reducible exact inv_regReset _ _
    | with_reducible apply hfn
    | with_reducible apply State.set_inv
    | with_reducible apply State.declareDry_inv
    | with_reducible apply outInv_next
    | with_reducible apply inv_foldl
    | with_reducible apply inv_foldlFst
    | with_reducible apply inv_foldlSnd
    | split

theorem State.dryResult_inv (s : State) (p : Fin 4) (bad : Nat) (gal : Bool) (hs : s.Inv) :
    (State.dryResult s p bad gal).Inv := by
  unfold State.dryResult
  repeat' first
    | with_reducible assumption
    | intro _
    | fail_if_no_progress (with_reducible apply inv_upd)
    | with_reducible exact inv_regReset _ _
    | with_reducible apply hfn
    | with_reducible apply State.modTc_inv
    | with_reducible apply State.declareWet_inv
    | with_reducible apply outInv_next
    | with_reducible apply inv_foldl
    | with_reducible apply inv_foldlFst
    | with_reducible apply inv_foldlSnd
    | split

theorem execMoistTestDone_inv (p : Fin 4) (z : List Nat) (ocv : List Int) (s : State) (hs : s.Inv) :
    OutInv (execMoistTestDone p z ocv s) := by
  unfold execMoistTestDone
  repeat' first
    | with_reducible assumption
    | (intro t ht; have hg : State.Inv t := ht; clear hg)
    | ((try lift_lets); intro x; refine (show State.Inv x → _ from ?_) ?_; (on_goal 2 => subst x); (on_goal 1 => (intro hx; clear_value x)))
    | ((try lift_lets); intro x; clear_value x)
    | intro _
    | fail_if_no_progress (with_reducible apply inv_upd)
    | with_reducible first | apply State.when_inv | apply State.modTc_inv | apply State.moistZ_inv
        | apply State.wetResult_inv | apply State.dryResult_inv | apply outInv_next
    | split

theorem execMoistRetest_inv (p : Fin 4) (s : State) (hs : s.Inv) :
    OutInv (execMoistRetest p s) := by
  unfold execMoistRetest
  repeat' first
    | with_reducible assumption
    | (intro t ht; have hg : State.Inv t := ht; clear hg)
    | intro _
    | fail_if_no_progress (with_reducible apply inv_upd)
    | with_reducible first | apply State.when_inv | apply State.modTc_inv | apply outInv_next

theorem execMoistTestAbort_inv (p : Fin 4) (s : State) (hs : s.Inv) :
    OutInv (execMoistTestAbort p s) := by
  unfold execMoistTestAbort
  repeat' first
    | with_reducible assumption
    | (intro t ht; have hg : State.Inv t := ht; clear hg)
    | intro _
    | fail_if_no_progress (with_reducible apply inv_upd)
    | with_reducible first | apply State.when_inv | apply State.modTc_inv | apply outInv_next

theorem State.txFailed_inv (s : State) (p : Fin 4) (m : TxMsg) (hs : s.Inv) :
    (State.txFailed s p m).Inv := by
  unfold State.txFailed
  repeat' first
    | with_reducible assumption
    | ((try lift_lets); intro x; refine (show State.Inv x → _ from ?_) ?_; (on_goal 2 => subst x); (on_goal 1 => (intro hx; clear_value x)))
    | intro _
    | fail_if_no_progress (with_reducible apply inv_upd)
    | with_reducible exact inv_regReset _ _
    | with_reducible apply hfn
    | with_reducible apply State.request_inv
    | with_reducible apply State.runSeq_inv
    | with_reducible apply State.awaits_inv
    | with_reducible apply State.setPe_inv
    | with_reducible apply State.sendHardReset_inv
    | with_reducible apply State.endSeq_inv
    | with_reducible apply State.peEvent_inv
    | with_reducible apply State.errorRecovery_inv
    | with_reducible apply State.resetLink_inv
    | with_reducible apply State.finishFor_inv
    | with_reducible apply State.set_inv
    | with_reducible apply outInv_next
    | with_reducible apply inv_foldl
    | with_reducible apply inv_foldlFst
    | with_reducible apply inv_foldlSnd
    | split

theorem execPdTxRetry_inv (p : Fin 4) (s : State) (hs : s.Inv) :
    OutInv (execPdTxRetry p s) := by
  unfold execPdTxRetry
  repeat' first
    | with_reducible assumption
    | (intro t ht; have hg : State.Inv t := ht; clear hg)
    | ((try lift_lets); intro x; refine (show State.Inv x → _ from ?_) ?_; (on_goal 2 => subst x); (on_goal 1 => (intro hx; clear_value x)))
    | intro _
    | fail_if_no_progress (with_reducible apply inv_upd)
    | with_reducible exact inv_regReset _ _
    | with_reducible apply hfn
    | with_reducible apply State.when_inv
    | with_reducible apply State.modTc_inv
    | with_reducible apply State.emit_inv
    | with_reducible apply State.bump_inv
    | with_reducible apply State.set_inv
    | with_reducible apply State.txFailed_inv
    | with_reducible apply outInv_next
    | with_reducible apply inv_foldl
    | with_reducible apply inv_foldlFst
    | with_reducible apply inv_foldlSnd
    | split

theorem State.txDone_inv (s : State) (p : Fin 4) (m : TxMsg) (hs : s.Inv) :
    (State.txDone s p m).Inv := by
  unfold State.txDone
  repeat' first
    | with_reducible assumption
    | ((try lift_lets); intro x; refine (show State.Inv x → _ from ?_) ?_; (on_goal 2 => subst x); (on_goal 1 => (intro hx; clear_value x)))
    | intro _
    | fail_if_no_progress (with_reducible apply inv_upd)
    | with_reducible first | apply State.modPe_inv | apply State.finishFor_inv | apply State.enterSeq_inv
        | apply State.setPe_inv | apply State.endSeq_inv | apply State.set_inv
    | split

theorem execGoodcrcRx_inv (p : Fin 4) (s : State) (hs : s.Inv) :
    OutInv (execGoodcrcRx p s) := by
  unfold execGoodcrcRx
  repeat' first
    | with_reducible assumption
    | (intro t ht; have hg : State.Inv t := ht; clear hg)
    | ((try lift_lets); intro x; refine (show State.Inv x → _ from ?_) ?_; (on_goal 2 => subst x); (on_goal 1 => (intro hx; clear_value x)))
    | intro _
    | fail_if_no_progress (with_reducible apply inv_upd)
    | with_reducible first | apply State.when_inv | apply State.modTc_inv | apply State.txDone_inv | apply outInv_next
    | split

theorem execChunkTimeout_inv (p : Fin 4) (s : State) (hs : s.Inv) :
    OutInv (execChunkTimeout p s) := by
  unfold execChunkTimeout
  repeat' first
    | with_reducible assumption
    | (intro t ht; have hg : State.Inv t := ht; clear hg)
    | ((try lift_lets); intro x; refine (show State.Inv x → _ from ?_) ?_; (on_goal 2 => subst x); (on_goal 1 => (intro hx; clear_value x)))
    | ((try lift_lets); intro x; clear_value x)
    | intro _
    | fail_if_no_progress (with_reducible apply inv_upd)
    | with_reducible first | apply State.when_inv | apply State.modTc_inv | apply State.finishFor_inv
        | apply State.endSeq_inv | apply outInv_next
    | split

theorem execDiscoverIdentityRetry_inv (p : Fin 4) (s : State) (hs : s.Inv) :
    OutInv (execDiscoverIdentityRetry p s) := by
  unfold execDiscoverIdentityRetry
  repeat' first
    | with_reducible assumption
    | (intro t ht; have hg : State.Inv t := ht; clear hg)
    | ((try lift_lets); intro x; clear_value x)
    | intro _
    | fail_if_no_progress (with_reducible apply inv_upd)
    | with_reducible first | apply State.when_inv | apply State.modTc_inv | apply State.send_inv
        | apply State.endDiscover_inv | apply outInv_next
    | split

theorem execCableIdentityRx_inv (p : Fin 4) (amps5 : Bool) (epr : Bool) (active : Bool) (rev2 : Bool) (vmax : Fin 4) (vid : Fin 65536) (s : State) (hs : s.Inv) :
    OutInv (execCableIdentityRx p amps5 epr active rev2 vmax vid s) := by
  unfold execCableIdentityRx
  repeat' first
    | with_reducible assumption
    | (intro t ht; have hg : State.Inv t := ht; clear hg)
    | ((try lift_lets); intro x; refine (show State.Inv x → _ from ?_) ?_; (on_goal 2 => subst x); (on_goal 1 => (intro hx; clear_value x)))
    | intro _
    | with_reducible first | apply State.when_inv | apply State.set_inv | apply State.setb_inv
        | apply State.endDiscover_inv | apply outInv_next

theorem execBistRx_inv (p : Fin 4) (bistMode : Fin 3) (vbus : Nat) (s : State) (hs : s.Inv) :
    OutInv (execBistRx p bistMode vbus s) := by
  unfold execBistRx
  repeat' first
    | with_reducible assumption
    | (intro t ht; have hg : State.Inv t := ht; clear hg)
    | ((try lift_lets); intro x; refine (show State.Inv x → _ from ?_) ?_; (on_goal 2 => subst x); (on_goal 1 => (intro hx; clear_value x)))
    | intro _
    | fail_if_no_progress (with_reducible apply inv_upd)
    | with_reducible first | apply State.when_inv | apply State.modPe_inv | apply State.modTc_inv
        | apply State.setPe_inv | apply State.set_inv | apply outInv_next

theorem execBistCarrierEnd_inv (p : Fin 4) (s : State) (hs : s.Inv) :
    OutInv (execBistCarrierEnd p s) := by
  unfold execBistCarrierEnd
  repeat' first
    | with_reducible assumption
    | (intro t ht; have hg : State.Inv t := ht; clear hg)
    | intro _
    | fail_if_no_progress (with_reducible apply inv_upd)
    | with_reducible first | apply State.when_inv | apply State.modTc_inv | apply State.setPe_inv
        | apply State.set_inv | apply outInv_next

theorem execHardResetRx_inv (p : Fin 4) (s : State) (hs : s.Inv) :
    OutInv (execHardResetRx p s) := by
  unfold execHardResetRx
  repeat' first
    | with_reducible assumption
    | (intro t ht; have hg : State.Inv t := ht; clear hg)
    | intro _
    | with_reducible first | apply State.when_inv | apply State.hardReset_inv | apply State.set_inv
        | apply outInv_next

theorem execSoftResetRx_inv (p : Fin 4) (s : State) (hs : s.Inv) :
    OutInv (execSoftResetRx p s) := by
  unfold execSoftResetRx
  repeat' first
    | with_reducible assumption
    | (intro t ht; have hg : State.Inv t := ht; clear hg)
    | ((try lift_lets); intro x; refine (show State.Inv x → _ from ?_) ?_; (on_goal 2 => subst x); (on_goal 1 => (intro hx; clear_value x)))
    | intro _
    | fail_if_no_progress (with_reducible apply inv_upd)
    | with_reducible exact inv_regReset _ _
    | with_reducible apply hfn
    | with_reducible apply State.when_inv
    | with_reducible apply State.modTc_inv
    | with_reducible apply State.finishCmd_inv
    | with_reducible apply State.modPe_inv
    | with_reducible apply State.endSeq_inv
    | with_reducible apply State.setPe_inv
    | with_reducible apply State.send_inv
    | with_reducible apply State.set_inv
    | with_reducible apply outInv_next

end Sys2Proof.Machine
end

