-- ==== Sys2Proof/Laws/InvPolicy.lean ====
section
/-! SUPPORT. Every operation of Machine/Policy.lean keeps the canonical form of the register space. -/

set_option Elab.async false

namespace Sys2Proof.Machine

theorem State.takeCaps_inv (s : State) (p : Fin 4) (epr : Bool) (objs : List Nat) (hs : s.Inv) :
    (State.takeCaps s p epr objs).Inv := by
  unfold State.takeCaps
  repeat' first
    | with_reducible assumption
    | ((try lift_lets); intro x; refine (show State.Inv x → _ from ?_) ?_; (on_goal 2 => subst x); (on_goal 1 => (intro hx; clear_value x)))
    | intro _
    | fail_if_no_progress (with_reducible apply inv_upd)
    | with_reducible first | apply State.putTable_inv | apply State.modPe_inv | apply State.setPe_inv
        | apply State.evaluate_inv | apply State.set_inv
    | with_reducible apply State.breakOff_inv
    | split

theorem execSrcCapsRx_inv (p : Fin 4) (epr : Bool) (rev2 : Bool) (vbus : Nat) (objs : List Nat) (s : State) (hs : s.Inv) :
    OutInv (execSrcCapsRx p epr rev2 vbus objs s) := by
  unfold execSrcCapsRx
  repeat' first
    | with_reducible assumption
    | (intro t ht; have hg : State.Inv t := ht; clear hg)
    | intro _
    | with_reducible first | apply State.when_inv | apply State.setSat_inv | apply State.noteRev_inv
        | apply State.takeCaps_inv | apply State.set_inv | apply outInv_next

theorem execAcceptRx_inv (p : Fin 4) (s : State) (hs : s.Inv) :
    OutInv (execAcceptRx p s) := by
  unfold execAcceptRx
  repeat' first
    | with_reducible assumption
    | (intro t ht; have hg : State.Inv t := ht; clear hg)
    | ((try lift_lets); intro x; refine (show State.Inv x → _ from ?_) ?_; (on_goal 2 => subst x); (on_goal 1 => (intro hx; clear_value x)))
    | ((try lift_lets); intro x; clear_value x)
    | intro _
    | fail_if_no_progress (with_reducible apply inv_upd)
    | with_reducible first | apply State.when_inv | apply State.modPath_inv | apply State.modPe_inv
        | apply State.setPe_inv | apply State.set_inv | apply outInv_next

theorem State.readSinkTx_inv (s : State) (p : Fin 4) (hs : s.Inv) :
    (State.readSinkTx s p).Inv := by
  unfold State.readSinkTx
  repeat' first
    | with_reducible assumption
    | with_reducible first | apply State.set_inv
    | split

theorem State.sinkContract_inv (s : State) (p : Fin 4) (c : Contract) (hs : s.Inv) :
    (State.sinkContract s p c).Inv := by
  unfold State.sinkContract
  repeat' first
    | with_reducible assumption
    | ((try lift_lets); intro x; refine (show State.Inv x → _ from ?_) ?_; (on_goal 2 => subst x); (on_goal 1 => (intro hx; clear_value x)))
    | intro _
    | fail_if_no_progress (with_reducible apply inv_upd)
    | with_reducible first | apply State.setContract_inv | apply State.set_inv | apply State.modPe_inv
        | apply State.peEvent_inv | apply State.readSinkTx_inv | apply State.setPe_inv

theorem execPsRdyRxSink_inv (p : Fin 4) (s : State) (hs : s.Inv) :
    OutInv (execPsRdyRxSink p s) := by
  unfold execPsRdyRxSink
  repeat' first
    | with_reducible assumption
    | (intro t ht; have hg : State.Inv t := ht; clear hg)
    | ((try lift_lets); intro x; refine (show State.Inv x → _ from ?_) ?_; (on_goal 2 => subst x); (on_goal 1 => (intro hx; clear_value x)))
    | ((try lift_lets); intro x; clear_value x)
    | intro _
    | with_reducible first | apply State.when_inv | apply State.sinkContract_inv | apply State.request_inv
        | apply State.finishFor_inv | apply State.endSeq_inv | apply State.startSeq_inv | apply State.autoSelect_inv
        | apply outInv_next
    | split

theorem execRejectRx_inv (p : Fin 4) (s : State) (hs : s.Inv) :
    OutInv (execRejectRx p s) := by
  unfold execRejectRx
  repeat' first
    | with_reducible assumption
    | (intro t ht; have hg : State.Inv t := ht; clear hg)
    | ((try lift_lets); intro x; refine (show State.Inv x → _ from ?_) ?_; (on_goal 2 => subst x); (on_goal 1 => (intro hx; clear_value x)))
    | ((try lift_lets); intro x; clear_value x)
    | intro _
    | fail_if_no_progress (with_reducible apply inv_upd)
    | with_reducible first | apply State.when_inv | apply State.modPe_inv | apply State.peEvent_inv
        | apply State.finishFor_inv | apply State.request_inv | apply State.setPe_inv | apply State.endSeq_inv
        | apply State.set_inv | apply outInv_next
    | split

theorem execWaitRx_inv (p : Fin 4) (s : State) (hs : s.Inv) :
    OutInv (execWaitRx p s) := by
  unfold execWaitRx
  repeat' first
    | with_reducible assumption
    | (intro t ht; have hg : State.Inv t := ht; clear hg)
    | ((try lift_lets); intro x; refine (show State.Inv x → _ from ?_) ?_; (on_goal 2 => subst x); (on_goal 1 => (intro hx; clear_value x)))
    | ((try lift_lets); intro x; clear_value x)
    | intro _
    | fail_if_no_progress (with_reducible apply inv_upd)
    | with_reducible first | apply State.when_inv | apply State.modPe_inv | apply State.finishFor_inv
        | apply State.request_inv | apply outInv_next
    | split

theorem execSinkRequestRetry_inv (p : Fin 4) (s : State) (hs : s.Inv) :
    OutInv (execSinkRequestRetry p s) := by
  unfold execSinkRequestRetry
  repeat' first
    | with_reducible assumption
    | (intro t ht; have hg : State.Inv t := ht; clear hg)
    | intro _
    | fail_if_no_progress (with_reducible apply inv_upd)
    | with_reducible first | apply State.when_inv | apply State.modPe_inv | apply State.request_inv
        | apply State.resend_inv | apply outInv_next
    | split

theorem State.eprFail_inv (s : State) (p : Fin 4) (hs : s.Inv) :
    (State.eprFail s p).Inv := by
  unfold State.eprFail
  repeat' first
    | with_reducible assumption
    | ((try lift_lets); intro x; refine (show State.Inv x → _ from ?_) ?_; (on_goal 2 => subst x); (on_goal 1 => (intro hx; clear_value x)))
    | intro _
    | fail_if_no_progress (with_reducible apply inv_upd)
    | with_reducible first | apply State.modPe_inv | apply State.peEvent_inv | apply State.setPe_inv
        | apply State.endSeq_inv

theorem execSenderResponseTimeout_inv (p : Fin 4) (s : State) (hs : s.Inv) :
    OutInv (execSenderResponseTimeout p s) := by
  unfold execSenderResponseTimeout
  repeat' first
    | with_reducible assumption
    | (intro t ht; have hg : State.Inv t := ht; clear hg)
    | intro _
    | fail_if_no_progress (with_reducible apply inv_upd)
    | with_reducible exact inv_regReset _ _
    | with_reducible apply hfn
    | with_reducible apply State.when_inv
    | with_reducible apply State.eprFail_inv
    | with_reducible apply State.resetLink_inv
    | with_reducible apply State.setPe_inv
    | with_reducible apply State.endSeq_inv
    | with_reducible apply State.sendHardReset_inv
    | with_reducible apply State.errorRecovery_inv
    | with_reducible apply State.finishFor_inv
    | with_reducible apply State.set_inv
    | with_reducible apply outInv_next
    | with_reducible apply inv_foldl
    | with_reducible apply inv_foldlFst
    | with_reducible apply inv_foldlSnd
    | split

theorem execPsTransitionTimeout_inv (p : Fin 4) (s : State) (hs : s.Inv) :
    OutInv (execPsTransitionTimeout p s) := by
  unfold execPsTransitionTimeout
  repeat' first
    | with_reducible assumption
    | (intro t ht; have hg : State.Inv t := ht; clear hg)
    | intro _
    | with_reducible first | apply State.when_inv | apply State.resetLink_inv | apply State.set_inv
        | apply outInv_next

theorem State.goImplicit_inv (s : State) (p : Fin 4) (hs : s.Inv) :
    (State.goImplicit s p).Inv := by
  unfold State.goImplicit
  repeat' first
    | with_reducible assumption
    | with_reducible first | apply State.setContract_inv | apply State.setPe_inv | apply State.autoSelect_inv

theorem execSinkWaitCapTimeout_inv (p : Fin 4) (s : State) (hs : s.Inv) :
    OutInv (execSinkWaitCapTimeout p s) := by
  unfold execSinkWaitCapTimeout
  repeat' first
    | with_reducible assumption
    | (intro t ht; have hg : State.Inv t := ht; clear hg)
    | intro _
    | fail_if_no_progress (with_reducible apply inv_upd)
    | with_reducible first | apply State.when_inv | apply State.goImplicit_inv | apply State.modPe_inv
        | apply State.sendHardReset_inv | apply State.set_inv | apply outInv_next
    | split

theorem execPpsKeepalive_inv (p : Fin 4) (s : State) (hs : s.Inv) :
    OutInv (execPpsKeepalive p s) := by
  unfold execPpsKeepalive
  repeat' first
    | with_reducible assumption
    | (intro t ht; have hg : State.Inv t := ht; clear hg)
    | intro _
    | with_reducible first | apply State.when_inv | apply State.kaDue_inv | apply State.request_inv
        | apply outInv_next

theorem execEprEntryStart_inv (p : Fin 4) (s : State) (hs : s.Inv) :
    OutInv (execEprEntryStart p s) := by
  unfold execEprEntryStart
  repeat' first
    | with_reducible assumption
    | (intro t ht; have hg : State.Inv t := ht; clear hg)
    | intro _
    | with_reducible first | apply State.when_inv | apply State.startSeq_inv | apply outInv_next

theorem execEprModeRx_inv (p : Fin 4) (action : Fin 4) (s : State) (hs : s.Inv) :
    OutInv (execEprModeRx p action s) := by
  unfold execEprModeRx
  repeat' first
    | with_reducible assumption
    | (intro t ht; have hg : State.Inv t := ht; clear hg)
    | ((try lift_lets); intro x; clear_value x)
    | intro _
    | fail_if_no_progress (with_reducible apply inv_upd)
    | with_reducible exact inv_regReset _ _
    | with_reducible apply hfn
    | with_reducible apply State.when_inv
    | with_reducible apply State.endEpr_inv
    | with_reducible apply State.modPe_inv
    | with_reducible apply State.set_inv
    | with_reducible apply State.awaits_inv
    | with_reducible apply State.eprFail_inv
    | with_reducible apply outInv_next
    | with_reducible apply inv_foldl
    | with_reducible apply inv_foldlFst
    | with_reducible apply inv_foldlSnd
    | split

theorem execEprEnterTimeout_inv (p : Fin 4) (s : State) (hs : s.Inv) :
    OutInv (execEprEnterTimeout p s) := by
  unfold execEprEnterTimeout
  repeat' first
    | with_reducible assumption
    | (intro t ht; have hg : State.Inv t := ht; clear hg)
    | intro _
    | with_reducible first | apply State.when_inv | apply State.eprFail_inv | apply outInv_next

theorem execEprKeepalive_inv (p : Fin 4) (s : State) (hs : s.Inv) :
    OutInv (execEprKeepalive p s) := by
  unfold execEprKeepalive
  repeat' first
    | with_reducible assumption
    | (intro t ht; have hg : State.Inv t := ht; clear hg)
    | intro _
    | with_reducible first | apply State.when_inv | apply State.kaDue_inv | apply outInv_next

theorem execEprKeepaliveAckRx_inv (p : Fin 4) (s : State) (hs : s.Inv) :
    OutInv (execEprKeepaliveAckRx p s) := by
  unfold execEprKeepaliveAckRx
  repeat' first
    | with_reducible assumption
    | (intro t ht; have hg : State.Inv t := ht; clear hg)
    | intro _
    | with_reducible first | apply State.when_inv | apply State.endSeq_inv | apply outInv_next

theorem execSourceCapsSend_inv (p : Fin 4) (s : State) (hs : s.Inv) :
    OutInv (execSourceCapsSend p s) := by
  unfold execSourceCapsSend
  repeat' first
    | with_reducible assumption
    | (intro t ht; have hg : State.Inv t := ht; clear hg)
    | ((try lift_lets); intro x; refine (show State.Inv x → _ from ?_) ?_; (on_goal 2 => subst x); (on_goal 1 => (intro hx; clear_value x)))
    | intro _
    | fail_if_no_progress (with_reducible apply inv_upd)
    | with_reducible exact inv_regReset _ _
    | with_reducible apply hfn
    | with_reducible apply State.when_inv
    | with_reducible apply State.clearContract_inv
    | with_reducible apply State.modPe_inv
    | with_reducible apply State.setTerm_inv
    | with_reducible apply State.setPe_inv
    | with_reducible apply State.sendSrcCaps_inv
    | with_reducible apply State.set_inv
    | with_reducible apply outInv_next
    | with_reducible apply inv_foldl
    | with_reducible apply inv_foldlFst
    | with_reducible apply inv_foldlSnd
    | split

theorem State.rejectRequest_inv (s : State) (p : Fin 4) (again : Bool) (hs : s.Inv) :
    (State.rejectRequest s p again).Inv := by
  unfold State.rejectRequest
  repeat' first
    | with_reducible assumption
    | ((try lift_lets); intro x; refine (show State.Inv x → _ from ?_) ?_; (on_goal 2 => subst x); (on_goal 1 => (intro hx; clear_value x)))
    | with_reducible first | apply State.send_inv | apply State.setPe_inv | apply State.sendSrcCaps_inv
        | apply State.endSeq_inv | apply State.set_inv
    | split

theorem State.acceptRequest_inv (s : State) (p : Fin 4) (c : Contract) (hs : s.Inv) :
    (State.acceptRequest s p c).Inv := by
  unfold State.acceptRequest
  repeat' first
    | with_reducible assumption
    | ((try lift_lets); intro x; refine (show State.Inv x → _ from ?_) ?_; (on_goal 2 => subst x); (on_goal 1 => (intro hx; clear_value x)))
    | ((try lift_lets); intro x; clear_value x)
    | intro _
    | fail_if_no_progress (with_reducible apply inv_upd)
    | with_reducible first | apply State.send_inv | apply State.modPe_inv | apply State.modPath_inv
        | apply State.setPe_inv | apply State.set_inv
    | split

theorem execRequestRx_inv (p : Fin 4) (rdo : Nat) (rev2 : Bool) (s : State) (hs : s.Inv) :
    OutInv (execRequestRx p rdo rev2 s) := by
  unfold execRequestRx
  repeat' first
    | with_reducible assumption
    | (intro t ht; have hg : State.Inv t := ht; clear hg)
    | ((try lift_lets); intro x; refine (show State.Inv x → _ from ?_) ?_; (on_goal 2 => subst x); (on_goal 1 => (intro hx; clear_value x)))
    | intro _
    | fail_if_no_progress (with_reducible apply inv_upd)
    | with_reducible exact inv_regReset _ _
    | with_reducible apply hfn
    | with_reducible apply State.when_inv
    | with_reducible apply State.noteRev_inv
    | with_reducible apply State.set_inv
    | with_reducible apply State.setPe_inv
    | with_reducible apply State.awaits_inv
    | with_reducible apply State.rejectRequest_inv
    | with_reducible apply State.acceptRequest_inv
    | with_reducible apply outInv_next
    | with_reducible apply inv_foldl
    | with_reducible apply inv_foldlFst
    | with_reducible apply inv_foldlSnd
    | split

theorem execSrcTransitionStart_inv (p : Fin 4) (s : State) (hs : s.Inv) :
    OutInv (execSrcTransitionStart p s) := by
  unfold execSrcTransitionStart
  repeat' first
    | with_reducible assumption
    | (intro t ht; have hg : State.Inv t := ht; clear hg)
    | ((try lift_lets); intro x; clear_value x)
    | intro _
    | fail_if_no_progress (with_reducible apply inv_upd)
    | with_reducible first | apply State.when_inv | apply State.modPath_inv | apply outInv_next
    | split

theorem State.newString_inv (s : State) (p : Fin 4) (power : Nat) (hs : s.Inv) :
    (State.newString s p power).Inv := by
  unfold State.newString
  repeat' first
    | with_reducible assumption
    | ((try lift_lets); intro x; refine (show State.Inv x → _ from ?_) ?_; (on_goal 2 => subst x); (on_goal 1 => (intro hx; clear_value x)))
    | intro _
    | fail_if_no_progress (with_reducible apply inv_upd)
    | with_reducible first | apply State.modPb_inv | apply State.endShed_inv | apply State.set_inv

theorem State.sourceContract_inv (s : State) (p : Fin 4) (c : Contract) (hs : s.Inv) :
    (State.sourceContract s p c).Inv := by
  unfold State.sourceContract
  repeat' first
    | with_reducible assumption
    | ((try lift_lets); intro x; refine (show State.Inv x → _ from ?_) ?_; (on_goal 2 => subst x); (on_goal 1 => (intro hx; clear_value x)))
    | intro _
    | fail_if_no_progress (with_reducible apply inv_upd)
    | with_reducible exact inv_regReset _ _
    | with_reducible apply hfn
    | with_reducible apply State.send_inv
    | with_reducible apply State.setContract_inv
    | with_reducible apply State.set_inv
    | with_reducible apply State.modPath_inv
    | with_reducible apply State.modPe_inv
    | with_reducible apply State.newString_inv
    | with_reducible apply State.peEvent_inv
    | with_reducible apply State.setPe_inv

theorem execSrcPsRdy_inv (p : Fin 4) (vbus : Nat) (s : State) (hs : s.Inv) :
    OutInv (execSrcPsRdy p vbus s) := by
  unfold execSrcPsRdy
  repeat' first
    | with_reducible assumption
    | (intro t ht; have hg : State.Inv t := ht; clear hg)
    | ((try lift_lets); intro x; refine (show State.Inv x → _ from ?_) ?_; (on_goal 2 => subst x); (on_goal 1 => (intro hx; clear_value x)))
    | intro _
    | fail_if_no_progress (with_reducible apply inv_upd)
    | with_reducible exact inv_regReset _ _
    | with_reducible apply hfn
    | with_reducible apply State.when_inv
    | with_reducible apply State.setSat_inv
    | with_reducible apply State.sourceContract_inv
    | with_reducible apply State.endSeq_inv
    | with_reducible apply State.startSeq_inv
    | with_reducible apply State.set_inv
    | with_reducible apply outInv_next
    | with_reducible apply inv_foldl
    | with_reducible apply inv_foldlFst
    | with_reducible apply inv_foldlSnd
    | split

theorem execPpsSourceTimeout_inv (p : Fin 4) (s : State) (hs : s.Inv) :
    OutInv (execPpsSourceTimeout p s) := by
  unfold execPpsSourceTimeout
  repeat' first
    | with_reducible assumption
    | (intro t ht; have hg : State.Inv t := ht; clear hg)
    | intro _
    | with_reducible first | apply State.when_inv | apply State.resetLink_inv | apply State.set_inv
        | apply outInv_next

theorem execSinkCapsRx_inv (p : Fin 4) (objs : List Nat) (s : State) (hs : s.Inv) :
    OutInv (execSinkCapsRx p objs s) := by
  unfold execSinkCapsRx
  repeat' first
    | with_reducible assumption
    | (intro t ht; have hg : State.Inv t := ht; clear hg)
    | ((try lift_lets); intro x; refine (show State.Inv x → _ from ?_) ?_; (on_goal 2 => subst x); (on_goal 1 => (intro hx; clear_value x)))
    | intro _
    | with_reducible first | apply State.when_inv | apply State.putTable_inv | apply State.endSeq_inv
        | apply outInv_next
    | split

theorem execSinkTxOk_inv (p : Fin 4) (s : State) (hs : s.Inv) :
    OutInv (execSinkTxOk p s) := by
  unfold execSinkTxOk
  repeat' first
    | with_reducible assumption
    | (intro t ht; have hg : State.Inv t := ht; clear hg)
    | ((try lift_lets); intro x; refine (show State.Inv x → _ from ?_) ?_; (on_goal 2 => subst x); (on_goal 1 => (intro hx; clear_value x)))
    | ((try lift_lets); intro x; clear_value x)
    | intro _
    | with_reducible first | apply State.when_inv | apply State.set_inv | apply State.runHeld_inv | apply outInv_next
    | split

theorem execSinkTxWaitDrop_inv (p : Fin 4) (s : State) (hs : s.Inv) :
    OutInv (execSinkTxWaitDrop p s) := by
  unfold execSinkTxWaitDrop
  repeat' first
    | with_reducible assumption
    | (intro t ht; have hg : State.Inv t := ht; clear hg)
    | ((try lift_lets); intro x; refine (show State.Inv x → _ from ?_) ?_; (on_goal 2 => subst x); (on_goal 1 => (intro hx; clear_value x)))
    | ((try lift_lets); intro x; clear_value x)
    | intro _
    | fail_if_no_progress (with_reducible apply inv_upd)
    | with_reducible first | apply State.when_inv | apply State.request_inv | apply State.finishFor_inv
        | apply State.modPe_inv | apply outInv_next
    | with_reducible apply State.modTc_inv

theorem execTsinktxExpiry_inv (p : Fin 4) (s : State) (hs : s.Inv) :
    OutInv (execTsinktxExpiry p s) := by
  unfold execTsinktxExpiry
  repeat' first
    | with_reducible assumption
    | (intro t ht; have hg : State.Inv t := ht; clear hg)
    | intro _
    | with_reducible first | apply State.when_inv | apply State.runHeld_inv | apply outInv_next

theorem State.prsStart_inv (s : State) (p : Fin 4) (hs : s.Inv) :
    (State.prsStart s p).Inv := by
  unfold State.prsStart
  repeat' first
    | with_reducible assumption
    | ((try lift_lets); intro x; refine (show State.Inv x → _ from ?_) ?_; (on_goal 2 => subst x); (on_goal 1 => (intro hx; clear_value x)))
    | ((try lift_lets); intro x; clear_value x)
    | intro _
    | fail_if_no_progress (with_reducible apply inv_upd)
    | with_reducible exact inv_regReset _ _
    | with_reducible apply hfn
    | with_reducible apply State.modPe_inv
    | with_reducible apply State.setPe_inv
    | with_reducible apply State.clearContract_inv
    | with_reducible apply State.endInput_inv
    | with_reducible apply State.beginMove_inv
    | with_reducible apply State.leaveBus_inv
    | with_reducible apply State.set_inv
    | with_reducible apply outInv_next
    | with_reducible apply inv_foldl
    | with_reducible apply inv_foldlFst
    | with_reducible apply inv_foldlSnd
    | split

theorem State.dropOwnPrs_inv (s : State) (p : Fin 4) (hs : s.Inv) :
    (State.dropOwnPrs s p).Inv := by
  unfold State.dropOwnPrs
  repeat' first
    | with_reducible assumption
    | ((try lift_lets); intro x; refine (show State.Inv x → _ from ?_) ?_; (on_goal 2 => subst x); (on_goal 1 => (intro hx; clear_value x)))
    | ((try lift_lets); intro x; clear_value x)
    | intro _
    | fail_if_no_progress (with_reducible apply inv_upd)
    | with_reducible first | apply State.modPe_inv | apply State.finishFor_inv
    | split

theorem execPrSwapRx_inv (p : Fin 4) (s : State) (hs : s.Inv) :
    OutInv (execPrSwapRx p s) := by
  unfold execPrSwapRx
  repeat' first
    | with_reducible assumption
    | (intro t ht; have hg : State.Inv t := ht; clear hg)
    | ((try lift_lets); intro x; refine (show State.Inv x → _ from ?_) ?_; (on_goal 2 => subst x); (on_goal 1 => (intro hx; clear_value x)))
    | intro _
    | fail_if_no_progress (with_reducible apply inv_upd)
    | with_reducible exact inv_regReset _ _
    | with_reducible apply hfn
    | with_reducible apply State.when_inv
    | with_reducible apply State.dropOwnPrs_inv
    | with_reducible apply State.send_inv
    | with_reducible apply State.prsStart_inv
    | with_reducible apply outInv_next
    | with_reducible apply inv_foldl
    | with_reducible apply inv_foldlFst
    | with_reducible apply inv_foldlSnd
    | with_reducible apply State.breakOff_inv
    | split

theorem execPrSwapSourceOff_inv (p : Fin 4) (s : State) (hs : s.Inv) :
    OutInv (execPrSwapSourceOff p s) := by
  unfold execPrSwapSourceOff
  repeat' first
    | with_reducible assumption
    | (intro t ht; have hg : State.Inv t := ht; clear hg)
    | intro _
    | with_reducible first | apply State.when_inv | apply State.stopSource_inv | apply State.clearContract_inv
        | apply outInv_next

theorem execPrSwapVbusLow_inv (p : Fin 4) (vbus : Nat) (s : State) (hs : s.Inv) :
    OutInv (execPrSwapVbusLow p vbus s) := by
  unfold execPrSwapVbusLow
  repeat' first
    | with_reducible assumption
    | (intro t ht; have hg : State.Inv t := ht; clear hg)
    | ((try lift_lets); intro x; refine (show State.Inv x → _ from ?_) ?_; (on_goal 2 => subst x); (on_goal 1 => (intro hx; clear_value x)))
    | intro _
    | fail_if_no_progress (with_reducible apply inv_upd)
    | with_reducible exact inv_regReset _ _
    | with_reducible apply hfn
    | with_reducible apply State.when_inv
    | with_reducible apply State.setSat_inv
    | with_reducible apply State.setTerm_inv
    | with_reducible apply State.set_inv
    | with_reducible apply State.modTc_inv
    | with_reducible apply State.discharge_inv
    | with_reducible apply State.send_inv
    | with_reducible apply State.modPe_inv
    | with_reducible apply outInv_next

theorem State.becomeSink_inv (s : State) (p : Fin 4) (hs : s.Inv) :
    (State.becomeSink s p).Inv := by
  unfold State.becomeSink
  repeat' first
    | with_reducible assumption
    | ((try lift_lets); intro x; refine (show State.Inv x → _ from ?_) ?_; (on_goal 2 => subst x); (on_goal 1 => (intro hx; clear_value x)))
    | intro _
    | fail_if_no_progress (with_reducible apply inv_upd)
    | with_reducible first | apply State.modTc_inv | apply State.modPe_inv | apply State.setTc_inv
        | apply State.setPe_inv | apply State.swapDone_inv

theorem State.becomeSource_inv (s : State) (p : Fin 4) (hs : s.Inv) :
    (State.becomeSource s p).Inv := by
  unfold State.becomeSource
  repeat' first
    | with_reducible assumption
    | ((try lift_lets); intro x; refine (show State.Inv x → _ from ?_) ?_; (on_goal 2 => subst x); (on_goal 1 => (intro hx; clear_value x)))
    | intro _
    | fail_if_no_progress (with_reducible apply inv_upd)
    | with_reducible first | apply State.modPe_inv | apply State.setTerm_inv | apply State.startSource_inv

theorem State.frsNewSource_inv (s : State) (p : Fin 4) (hs : s.Inv) :
    (State.frsNewSource s p).Inv := by
  unfold State.frsNewSource
  repeat' first
    | with_reducible assumption
    | ((try lift_lets); intro x; refine (show State.Inv x → _ from ?_) ?_; (on_goal 2 => subst x); (on_goal 1 => (intro hx; clear_value x)))
    | intro _
    | fail_if_no_progress (with_reducible apply inv_upd)
    | with_reducible exact inv_regReset _ _
    | with_reducible apply hfn
    | with_reducible apply State.setTerm_inv
    | with_reducible apply State.set_inv
    | with_reducible apply State.setTc_inv
    | with_reducible apply State.modTc_inv
    | with_reducible apply State.send_inv
    | with_reducible apply State.modPe_inv
    | with_reducible apply State.setPe_inv
    | with_reducible apply State.swapDone_inv

theorem State.giveVconn_inv (s : State) (p : Fin 4) (hs : s.Inv) :
    (State.giveVconn s p).Inv := by
  unfold State.giveVconn
  repeat' first
    | with_reducible assumption
    | ((try lift_lets); intro x; refine (show State.Inv x → _ from ?_) ?_; (on_goal 2 => subst x); (on_goal 1 => (intro hx; clear_value x)))
    | with_reducible first | apply State.vconnOff_inv | apply State.set_inv | apply State.setPe_inv
        | apply State.swapDone_inv

theorem execPsRdyRxSwap_inv (p : Fin 4) (s : State) (hs : s.Inv) :
    OutInv (execPsRdyRxSwap p s) := by
  unfold execPsRdyRxSwap
  repeat' first
    | with_reducible assumption
    | (intro t ht; have hg : State.Inv t := ht; clear hg)
    | ((try lift_lets); intro x; clear_value x)
    | intro _
    | fail_if_no_progress (with_reducible apply inv_upd)
    | with_reducible exact inv_regReset _ _
    | with_reducible apply hfn
    | with_reducible apply State.when_inv
    | with_reducible apply State.becomeSink_inv
    | with_reducible apply State.becomeSource_inv
    | with_reducible apply State.giveVconn_inv
    | with_reducible apply State.frsNewSource_inv
    | with_reducible apply outInv_next
    | with_reducible apply inv_foldl
    | with_reducible apply inv_foldlFst
    | with_reducible apply inv_foldlSnd
    | split

theorem execSwapPsRdyTimeout_inv (p : Fin 4) (s : State) (hs : s.Inv) :
    OutInv (execSwapPsRdyTimeout p s) := by
  unfold execSwapPsRdyTimeout
  repeat' first
    | with_reducible assumption
    | (intro t ht; have hg : State.Inv t := ht; clear hg)
    | intro _
    | with_reducible first | apply State.when_inv | apply State.errorRecovery_inv | apply outInv_next

theorem State.takeVconn_inv (s : State) (p : Fin 4) (hs : s.Inv) :
    (State.takeVconn s p).Inv := by
  unfold State.takeVconn
  repeat' first
    | with_reducible assumption
    | ((try lift_lets); intro x; refine (show State.Inv x → _ from ?_) ?_; (on_goal 2 => subst x); (on_goal 1 => (intro hx; clear_value x)))
    | with_reducible first | apply State.set_inv | apply State.setPe_inv | apply State.send_inv
        | apply State.swapDone_inv | apply State.vconnOn_inv

theorem State.vcsStart_inv (s : State) (p : Fin 4) (hs : s.Inv) :
    (State.vcsStart s p).Inv := by
  unfold State.vcsStart
  repeat' first
    | with_reducible assumption
    | ((try lift_lets); intro x; refine (show State.Inv x → _ from ?_) ?_; (on_goal 2 => subst x); (on_goal 1 => (intro hx; clear_value x)))
    | intro _
    | fail_if_no_progress (with_reducible apply inv_upd)
    | with_reducible first | apply State.modPe_inv | apply State.setPe_inv | apply State.takeVconn_inv
        | apply State.set_inv
    | split

theorem execVconnSwapRx_inv (p : Fin 4) (s : State) (hs : s.Inv) :
    OutInv (execVconnSwapRx p s) := by
  unfold execVconnSwapRx
  repeat' first
    | with_reducible assumption
    | (intro t ht; have hg : State.Inv t := ht; clear hg)
    | intro _
    | with_reducible first | apply State.when_inv | apply State.send_inv | apply State.vcsStart_inv
        | apply outInv_next
    | with_reducible apply State.breakOff_inv
    | split

theorem execVconnSourceTimeout_inv (p : Fin 4) (s : State) (hs : s.Inv) :
    OutInv (execVconnSourceTimeout p s) := by
  unfold execVconnSourceTimeout
  repeat' first
    | with_reducible assumption
    | (intro t ht; have hg : State.Inv t := ht; clear hg)
    | intro _
    | with_reducible first | apply State.when_inv | apply State.resetLink_inv | apply State.set_inv
        | apply outInv_next

theorem State.drSwapped_inv (s : State) (p : Fin 4) (hs : s.Inv) :
    (State.drSwapped s p).Inv := by
  unfold State.drSwapped
  repeat' first
    | with_reducible assumption
    | ((try lift_lets); intro x; refine (show State.Inv x → _ from ?_) ?_; (on_goal 2 => subst x); (on_goal 1 => (intro hx; clear_value x)))
    | with_reducible first | apply State.setb_inv | apply State.setPe_inv | apply State.swapDone_inv

theorem execSwapReplyRx_inv (p : Fin 4) (reply : Fin 3) (s : State) (hs : s.Inv) :
    OutInv (execSwapReplyRx p reply s) := by
  unfold execSwapReplyRx
  repeat' first
    | with_reducible assumption
    | (intro t ht; have hg : State.Inv t := ht; clear hg)
    | ((try lift_lets); intro x; refine (show State.Inv x → _ from ?_) ?_; (on_goal 2 => subst x); (on_goal 1 => (intro hx; clear_value x)))
    | ((try lift_lets); intro x; clear_value x)
    | intro _
    | fail_if_no_progress (with_reducible apply inv_upd)
    | with_reducible exact inv_regReset _ _
    | with_reducible apply hfn
    | with_reducible apply State.when_inv
    | with_reducible apply State.modPe_inv
    | with_reducible apply State.errorRecovery_inv
    | with_reducible apply State.prsStart_inv
    | with_reducible apply State.vcsStart_inv
    | with_reducible apply State.drSwapped_inv
    | with_reducible apply State.setPe_inv
    | with_reducible apply State.finishFor_inv
    | with_reducible apply State.endSeq_inv
    | with_reducible apply State.set_inv
    | with_reducible apply outInv_next
    | with_reducible apply inv_foldl
    | with_reducible apply inv_foldlFst
    | with_reducible apply inv_foldlSnd
    | split

theorem State.frsTurn_inv (s : State) (p : Fin 4) (b : Fin 2) (hs : s.Inv) :
    (State.frsTurn s p b).Inv := by
  unfold State.frsTurn
  repeat' first
    | with_reducible assumption
    | ((try lift_lets); intro x; refine (show State.Inv x → _ from ?_) ?_; (on_goal 2 => subst x); (on_goal 1 => (intro hx; clear_value x)))
    | intro _
    | fail_if_no_progress (with_reducible apply inv_upd)
    | with_reducible exact inv_regReset _ _
    | with_reducible apply hfn
    | with_reducible apply State.modPath_inv
    | with_reducible apply State.groupDir_inv
    | with_reducible apply State.setBit_inv
    | with_reducible apply State.clearContract_inv
    | with_reducible apply State.endInput_inv
    | with_reducible apply State.chargeInputLost_inv
    | with_reducible apply State.handOver_inv

theorem execFrsSignalDetect_inv (p : Fin 4) (s : State) (hs : s.Inv) :
    OutInv (execFrsSignalDetect p s) := by
  unfold execFrsSignalDetect
  repeat' first
    | with_reducible assumption
    | (intro t ht; have hg : State.Inv t := ht; clear hg)
    | ((try lift_lets); intro x; refine (show State.Inv x → _ from ?_) ?_; (on_goal 2 => subst x); (on_goal 1 => (intro hx; clear_value x)))
    | intro _
    | fail_if_no_progress (with_reducible apply inv_upd)
    | with_reducible exact inv_regReset _ _
    | with_reducible apply hfn
    | with_reducible apply State.when_inv
    | with_reducible apply State.finishCmd_inv
    | with_reducible apply State.modPe_inv
    | with_reducible apply State.frsTurn_inv
    | with_reducible apply State.peEvent_inv
    | with_reducible apply State.setPe_inv
    | with_reducible apply State.runSeq_inv
    | with_reducible apply State.set_inv
    | with_reducible apply outInv_next
    | with_reducible apply inv_foldl
    | with_reducible apply inv_foldlFst
    | with_reducible apply inv_foldlSnd
    | split

theorem execFrSwapRx_inv (p : Fin 4) (s : State) (hs : s.Inv) :
    OutInv (execFrSwapRx p s) := by
  unfold execFrSwapRx
  repeat' first
    | with_reducible assumption
    | (intro t ht; have hg : State.Inv t := ht; clear hg)
    | ((try lift_lets); intro x; refine (show State.Inv x → _ from ?_) ?_; (on_goal 2 => subst x); (on_goal 1 => (intro hx; clear_value x)))
    | intro _
    | fail_if_no_progress (with_reducible apply inv_upd)
    | with_reducible exact inv_regReset _ _
    | with_reducible apply hfn
    | with_reducible apply State.when_inv
    | with_reducible apply State.send_inv
    | with_reducible apply State.setTerm_inv
    | with_reducible apply State.set_inv
    | with_reducible apply State.clearContract_inv
    | with_reducible apply State.modTc_inv
    | with_reducible apply State.discharge_inv
    | with_reducible apply State.modPe_inv
    | with_reducible apply outInv_next

theorem execFrsSourceWaitExpiry_inv (p : Fin 4) (s : State) (hs : s.Inv) :
    OutInv (execFrsSourceWaitExpiry p s) := by
  unfold execFrsSourceWaitExpiry
  repeat' first
    | with_reducible assumption
    | (intro t ht; have hg : State.Inv t := ht; clear hg)
    | intro _
    | with_reducible first | apply State.when_inv | apply State.errorRecovery_inv | apply State.discharge_inv
        | apply outInv_next

theorem execHrSinkAllowanceEnd_inv (p : Fin 4) (vbus : Nat) (s : State) (hs : s.Inv) :
    OutInv (execHrSinkAllowanceEnd p vbus s) := by
  unfold execHrSinkAllowanceEnd
  repeat' first
    | with_reducible assumption
    | (intro t ht; have hg : State.Inv t := ht; clear hg)
    | ((try lift_lets); intro x; refine (show State.Inv x → _ from ?_) ?_; (on_goal 2 => subst x); (on_goal 1 => (intro hx; clear_value x)))
    | intro _
    | with_reducible first | apply State.when_inv | apply State.setSat_inv | apply State.setPe_inv
        | apply State.unattach_inv | apply State.set_inv | apply outInv_next
    | split

theorem execHrSinkVbusReturn_inv (p : Fin 4) (vbus : Nat) (s : State) (hs : s.Inv) :
    OutInv (execHrSinkVbusReturn p vbus s) := by
  unfold execHrSinkVbusReturn
  repeat' first
    | with_reducible assumption
    | (intro t ht; have hg : State.Inv t := ht; clear hg)
    | intro _
    | with_reducible first | apply State.when_inv | apply State.setSat_inv | apply State.setPe_inv
        | apply State.set_inv | apply outInv_next

theorem execHrSourceVbusOff_inv (p : Fin 4) (s : State) (hs : s.Inv) :
    OutInv (execHrSourceVbusOff p s) := by
  unfold execHrSourceVbusOff
  repeat' first
    | with_reducible assumption
    | (intro t ht; have hg : State.Inv t := ht; clear hg)
    | intro _
    | with_reducible first | apply State.when_inv | apply State.stopSource_inv | apply State.vconnOff_inv
        | apply outInv_next

theorem execHrSourceRecover_inv (p : Fin 4) (s : State) (hs : s.Inv) :
    OutInv (execHrSourceRecover p s) := by
  unfold execHrSourceRecover
  repeat' first
    | with_reducible assumption
    | (intro t ht; have hg : State.Inv t := ht; clear hg)
    | intro _
    | with_reducible first | apply State.when_inv | apply State.startSource_inv | apply outInv_next

theorem execSoftResetAcceptRx_inv (p : Fin 4) (s : State) (hs : s.Inv) :
    OutInv (execSoftResetAcceptRx p s) := by
  unfold execSoftResetAcceptRx
  repeat' first
    | with_reducible assumption
    | (intro t ht; have hg : State.Inv t := ht; clear hg)
    | intro _
    | with_reducible first | apply State.when_inv | apply State.setPe_inv | apply State.endSeq_inv
        | apply State.set_inv | apply outInv_next

theorem State.autoReply_inv (s : State) (p : Fin 4) (kind : MsgKind) (hs : s.Inv) :
    (State.autoReply s p kind).Inv := by
  unfold State.autoReply
  repeat' first
    | with_reducible assumption
    | fail_if_no_progress (with_reducible apply inv_upd)
    | with_reducible first | apply State.send_inv
    | split

theorem State.pdFragments_inv (s : State) (p : Fin 4) (flags : Nat) (hdr : Nat) (ext : Nat) (data : List Byte) (n : Nat) (hs : s.Inv) :
    (State.pdFragments s p flags hdr ext data n).Inv := by
  unfold State.pdFragments
  repeat' first
    | with_reducible assumption
    | (intro t y ht; have hg : State.Inv t := ht; clear hg)
    | intro _
    | with_reducible first | apply State.raise_inv | apply inv_foldl

theorem State.toHost_inv (s : State) (p : Fin 4) (sop1 : Bool) (needs : Bool) (hdr : Nat) (ext : Nat) (data : List Byte) (hs : s.Inv) :
    (State.toHost s p sop1 needs hdr ext data).Inv := by
  unfold State.toHost
  repeat' first
    | with_reducible assumption
    | with_reducible first | apply State.pdFragments_inv

theorem State.askHost_inv (s : State) (p : Fin 4) (sop1 : Bool) (kind : MsgKind) (hdr : Nat) (ext : Nat) (data : List Byte) (hs : s.Inv) :
    (State.askHost s p sop1 kind hdr ext data).Inv := by
  unfold State.askHost
  repeat' first
    | with_reducible assumption
    | ((try lift_lets); intro x; refine (show State.Inv x → _ from ?_) ?_; (on_goal 2 => subst x); (on_goal 1 => (intro hx; clear_value x)))
    | intro _
    | fail_if_no_progress (with_reducible apply inv_upd)
    | with_reducible first | apply State.set_inv | apply State.modPe_inv | apply State.toHost_inv
        | apply State.autoReply_inv | apply State.peEvent_inv
    | split

theorem State.hostRouted_inv (s : State) (p : Fin 4) (sop1 : Bool) (needs : Bool) (kind : MsgKind) (hdr : Nat) (ext : Nat) (data : List Byte) (hs : s.Inv) :
    (State.hostRouted s p sop1 needs kind hdr ext data).Inv := by
  unfold State.hostRouted
  repeat' first
    | with_reducible assumption
    | ((try lift_lets); intro x; refine (show State.Inv x → _ from ?_) ?_; (on_goal 2 => subst x); (on_goal 1 => (intro hx; clear_value x)))
    | ((try lift_lets); intro x; clear_value x)
    | with_reducible first | apply State.askHost_inv | apply State.toHost_inv | apply State.autoReply_inv
        | apply State.send_inv
    | with_reducible apply State.startSeq_inv
    | with_reducible apply State.endSeq_inv
    | split

theorem execHostRoutedRx_inv (p : Fin 4) (sop1 : Bool) (needs : Bool) (kind : MsgKind) (hdr : Fin 65536) (ext : Fin 65536) (data : List Byte) (s : State) (hs : s.Inv) :
    OutInv (execHostRoutedRx p sop1 needs kind hdr ext data s) := by
  unfold execHostRoutedRx
  repeat' first
    | with_reducible assumption
    | (intro t ht; have hg : State.Inv t := ht; clear hg)
    | intro _
    | with_reducible first | apply State.when_inv | apply State.hostRouted_inv | apply outInv_next

theorem execDrSwapRx_inv (p : Fin 4) (hdr : Fin 65536) (s : State) (hs : s.Inv) :
    OutInv (execDrSwapRx p hdr s) := by
  unfold execDrSwapRx
  repeat' first
    | with_reducible assumption
    | (intro t ht; have hg : State.Inv t := ht; clear hg)
    | intro _
    | fail_if_no_progress (with_reducible apply inv_upd)
    | with_reducible first | apply State.when_inv | apply State.send_inv | apply State.modPe_inv
        | apply State.setPe_inv | apply State.askHost_inv | apply State.set_inv | apply outInv_next
    | with_reducible apply State.breakOff_inv
    | split

theorem State.drsOver_inv (s : State) (p : Fin 4) (kind : Option MsgKind) (hs : s.Inv) :
    (State.drsOver s p kind).Inv := by
  unfold State.drsOver
  repeat' first
    | with_reducible assumption
    | with_reducible first | apply State.setPe_inv | apply State.endSeq_inv | apply State.set_inv
    | split

theorem execHostReplyTimeout_inv (p : Fin 4) (s : State) (hs : s.Inv) :
    OutInv (execHostReplyTimeout p s) := by
  unfold execHostReplyTimeout
  repeat' first
    | with_reducible assumption
    | (intro t ht; have hg : State.Inv t := ht; clear hg)
    | ((try lift_lets); intro x; refine (show State.Inv x → _ from ?_) ?_; (on_goal 2 => subst x); (on_goal 1 => (intro hx; clear_value x)))
    | ((try lift_lets); intro x; clear_value x)
    | intro _
    | fail_if_no_progress (with_reducible apply inv_upd)
    | with_reducible exact inv_regReset _ _
    | with_reducible apply hfn
    | with_reducible apply State.when_inv
    | with_reducible apply State.autoReply_inv
    | with_reducible apply State.set_inv
    | with_reducible apply State.modPe_inv
    | with_reducible apply State.peEvent_inv
    | with_reducible apply State.drsOver_inv
    | with_reducible apply outInv_next
    | with_reducible apply inv_foldl
    | with_reducible apply inv_foldlFst
    | with_reducible apply inv_foldlSnd
    | split

theorem State.answerFree_inv (s : State) (p : Fin 4) (kind : MsgKind) (hs : s.Inv) :
    (State.answerFree s p kind).Inv := by
  unfold State.answerFree
  repeat' first
    | with_reducible assumption
    | ((try lift_lets); intro x; refine (show State.Inv (Prod.snd x) → _ from ?_) ?_; (on_goal 2 => subst x); (on_goal 1 => (intro hx; clear_value x)))
    | with_reducible first | apply State.draw_inv | apply State.send_inv

theorem State.answerSrcCaps_inv (s : State) (p : Fin 4) (hs : s.Inv) :
    (State.answerSrcCaps s p).Inv := by
  unfold State.answerSrcCaps
  repeat' first
    | with_reducible assumption
    | with_reducible first | apply State.sendSrcCaps_inv | apply State.breakOff_inv | apply State.send_inv
        | apply State.putTable_inv
    | split

theorem State.tableAnswer_inv (s : State) (p : Fin 4) (kind : MsgKind) (hs : s.Inv) :
    (State.tableAnswer s p kind).Inv := by
  unfold State.tableAnswer
  repeat' first
    | with_reducible assumption
    | fail_if_no_progress (with_reducible apply inv_upd)
    | with_reducible first | apply State.send_inv | apply State.sendSrcCaps_inv | apply State.answerFree_inv
    | with_reducible apply State.answerSrcCaps_inv
    | split

theorem execTableRequestRx_inv (p : Fin 4) (kind : MsgKind) (s : State) (hs : s.Inv) :
    OutInv (execTableRequestRx p kind s) := by
  unfold execTableRequestRx
  repeat' first
    | with_reducible assumption
    | (intro t ht; have hg : State.Inv t := ht; clear hg)
    | intro _
    | with_reducible first | apply State.when_inv | apply State.tableAnswer_inv | apply outInv_next

theorem State.deliver_inv (s : State) (p : Fin 4) (sop1 : Bool) (kind : MsgKind) (hdr : Nat) (ext : Nat) (data : List Byte) (hs : s.Inv) :
    (State.deliver s p sop1 kind hdr ext data).Inv := by
  unfold State.deliver
  repeat' first
    | with_reducible assumption
    | with_reducible first | apply State.takeCaps_inv | apply State.hostRouted_inv
    | split

theorem State.takeChunk_inv (s : State) (p : Fin 4) (sop1 : Bool) (kind : MsgKind) (hdr : Nat) (ext : Nat) (bytes : List Byte) (hs : s.Inv) :
    (State.takeChunk s p sop1 kind hdr ext bytes).Inv := by
  unfold State.takeChunk
  repeat' first
    | with_reducible assumption
    | ((try lift_lets); intro x; refine (show State.Inv x → _ from ?_) ?_; (on_goal 2 => subst x); (on_goal 1 => (intro hx; clear_value x)))
    | ((try lift_lets); intro x; clear_value x)
    | intro _
    | fail_if_no_progress (with_reducible apply inv_upd)
    | with_reducible first | apply State.modTc_inv | apply State.deliver_inv | apply State.send_inv
    | split

theorem execChunkRx_inv (p : Fin 4) (sop1 : Bool) (kind : MsgKind) (hdr : Fin 65536) (ext : Fin 65536) (bytes : List Byte) (s : State) (hs : s.Inv) :
    OutInv (execChunkRx p sop1 kind hdr ext bytes s) := by
  unfold execChunkRx
  repeat' first
    | with_reducible assumption
    | (intro t ht; have hg : State.Inv t := ht; clear hg)
    | intro _
    | fail_if_no_progress (with_reducible apply inv_upd)
    | with_reducible first | apply State.when_inv | apply State.send_inv | apply State.sendChunk_inv
        | apply State.takeChunk_inv | apply outInv_next
    | split

end Sys2Proof.Machine
end

