-- ==== Sys2Proof/Laws/InvPdCmd.lean ====
section
/-! SUPPORT. Every operation of Machine/PdCmd.lean keeps the canonical form of the register space. -/

set_option Elab.async false

namespace Sys2Proof.Machine

theorem State.cmdSeq_inv (s : State) (p : Fin 4) (h : Nat) (q : PeSeq) (hs : s.Inv) :
    (State.cmdSeq s p h q).Inv := by
  unfold State.cmdSeq
  repeat' first
    | with_reducible assumption
    | intro _
    | fail_if_no_progress (with_reducible apply inv_upd)
    | with_reducible first | apply State.modPe_inv | apply State.startSeq_inv

theorem State.putPolicyFlags_inv (s : State) (p : Fin 4) (f : Nat) (pref : Nat) (frs : Nat) (hs : s.Inv) :
    (State.putPolicyFlags s p f pref frs).Inv := by
  unfold State.putPolicyFlags
  repeat' first
    | with_reducible assumption
    | ((try lift_lets); intro x; refine (show State.Inv x → _ from ?_) ?_; (on_goal 2 => subst x); (on_goal 1 => (intro hx; clear_value x)))
    | with_reducible first | apply State.setb_inv | apply State.set_inv

theorem State.putPolicyNums_inv (s : State) (p : Fin 4) (c : Cmd) (h : s.Inv) : (s.putPolicyNums p c).Inv := by
  unfold State.putPolicyNums
  dsimp only
  split
  · repeat' first
      | with_reducible assumption
      | with_reducible first | apply State.set_inv
  · exact h

theorem State.eprCleared_inv (s : State) (p : Fin 4) (hs : s.Inv) :
    (State.eprCleared s p).Inv := by
  unfold State.eprCleared
  repeat' first
    | with_reducible assumption
    | with_reducible first | apply State.startSeq_inv
    | split

theorem opPdSetPortPolicy_inv (c : Cmd) (s : State) (hs : s.Inv) :
    (opPdSetPortPolicy c s).2.Inv := by
  unfold opPdSetPortPolicy
  repeat' first
    | with_reducible assumption
    | ((try lift_lets); intro x; refine (show State.Inv x → _ from ?_) ?_; (on_goal 2 => subst x); (on_goal 1 => (intro hx; clear_value x)))
    | ((try lift_lets); intro x; clear_value x)
    | intro _
    | fail_if_no_progress (with_reducible apply inv_upd)
    | with_reducible exact inv_regReset _ _
    | with_reducible apply hfn
    | with_reducible apply State.putPolicyFlags_inv
    | with_reducible apply State.putPolicyNums_inv
    | with_reducible apply State.eprCleared_inv
    | with_reducible apply State.modPe_inv
    | with_reducible apply State.startSeq_inv
    | with_reducible apply outInv_next
    | with_reducible apply inv_foldl
    | with_reducible apply inv_foldlFst
    | with_reducible apply inv_foldlSnd
    | split

theorem execPdSetPortPolicy_inv (s : State) (hs : s.Inv) :
    OutInv (execPdSetPortPolicy s) := by
  unfold execPdSetPortPolicy
  repeat' first
    | with_reducible assumption
    | (intro t ht; have hg : State.Inv t := ht; clear hg)
    | (intro y t ht; have hg : State.Inv t := ht; clear hg)
    | intro _
    | fail_if_no_progress (with_reducible apply inv_upd)
    | with_reducible exact inv_regReset _ _
    | with_reducible apply hfn
    | with_reducible apply State.when_inv
    | with_reducible apply State.runCmd_inv
    | with_reducible apply opPdSetPortPolicy_inv
    | with_reducible apply outInv_next

theorem State.sourceTableChanged_inv (s : State) (p : Fin 4) (hs : s.Inv) :
    (State.sourceTableChanged s p).Inv := by
  unfold State.sourceTableChanged
  repeat' first
    | with_reducible assumption
    | with_reducible first | apply State.startSeq_inv
    | split

theorem opPdSetSourceCaps_inv (c : Cmd) (s : State) (hs : s.Inv) :
    (opPdSetSourceCaps c s).2.Inv := by
  unfold opPdSetSourceCaps
  repeat' first
    | with_reducible assumption
    | ((try lift_lets); intro x; refine (show State.Inv x → _ from ?_) ?_; (on_goal 2 => subst x); (on_goal 1 => (intro hx; clear_value x)))
    | ((try lift_lets); intro x; clear_value x)
    | fail_if_no_progress (with_reducible apply inv_upd)
    | with_reducible first | apply State.putTable_inv | apply State.sourceTableChanged_inv
    | split

theorem execPdSetSourceCaps_inv (s : State) (hs : s.Inv) :
    OutInv (execPdSetSourceCaps s) := by
  unfold execPdSetSourceCaps
  repeat' first
    | with_reducible assumption
    | (intro t ht; have hg : State.Inv t := ht; clear hg)
    | (intro y t ht; have hg : State.Inv t := ht; clear hg)
    | intro _
    | with_reducible first | apply State.when_inv | apply State.runCmd_inv | apply opPdSetSourceCaps_inv
        | apply outInv_next

theorem opPdSetSinkCaps_inv (c : Cmd) (s : State) (hs : s.Inv) :
    (opPdSetSinkCaps c s).2.Inv := by
  unfold opPdSetSinkCaps
  repeat' first
    | with_reducible assumption
    | ((try lift_lets); intro x; clear_value x)
    | intro _
    | fail_if_no_progress (with_reducible apply inv_upd)
    | with_reducible first | apply State.putTable_inv
    | split

theorem execPdSetSinkCaps_inv (s : State) (hs : s.Inv) :
    OutInv (execPdSetSinkCaps s) := by
  unfold execPdSetSinkCaps
  repeat' first
    | with_reducible assumption
    | (intro t ht; have hg : State.Inv t := ht; clear hg)
    | (intro y t ht; have hg : State.Inv t := ht; clear hg)
    | intro _
    | with_reducible first | apply State.when_inv | apply State.runCmd_inv | apply opPdSetSinkCaps_inv
        | apply outInv_next

theorem opPdRequest_inv (c : Cmd) (s : State) (hs : s.Inv) :
    (opPdRequest c s).2.Inv := by
  unfold opPdRequest
  repeat' first
    | with_reducible assumption
    | ((try lift_lets); intro x; refine (show State.Inv x → _ from ?_) ?_; (on_goal 2 => subst x); (on_goal 1 => (intro hx; clear_value x)))
    | ((try lift_lets); intro x; clear_value x)
    | intro _
    | fail_if_no_progress (with_reducible apply inv_upd)
    | with_reducible first | apply State.modPe_inv | apply State.cmdSeq_inv | apply State.request_inv
    | split

theorem execPdRequest_inv (s : State) (hs : s.Inv) :
    OutInv (execPdRequest s) := by
  unfold execPdRequest
  repeat' first
    | with_reducible assumption
    | (intro t ht; have hg : State.Inv t := ht; clear hg)
    | (intro y t ht; have hg : State.Inv t := ht; clear hg)
    | intro _
    | with_reducible first | apply State.when_inv | apply State.runCmd_inv | apply opPdRequest_inv | apply outInv_next

theorem State.hostReply_inv (s : State) (p : Fin 4) (sop : Nat) (k : MsgKind) (objs : List Nat) (hs : s.Inv) :
    (State.hostReply s p sop k objs).Inv := by
  unfold State.hostReply
  repeat' first
    | with_reducible assumption
    | ((try lift_lets); intro x; refine (show State.Inv x → _ from ?_) ?_; (on_goal 2 => subst x); (on_goal 1 => (intro hx; clear_value x)))
    | ((try lift_lets); intro x; clear_value x)
    | intro _
    | fail_if_no_progress (with_reducible apply inv_upd)
    | with_reducible first | apply State.set_inv | apply State.modPe_inv | apply State.send_inv | apply State.setb_inv
        | apply State.setPe_inv | apply State.peEvent_inv
    | split

theorem State.hostSend_inv (s : State) (p : Fin 4) (h : Nat) (sop : Nat) (reply : Bool) (k : MsgKind) (objs : List Nat) (ext : Option (List Byte)) (hs : s.Inv) :
    (State.hostSend s p h sop reply k objs ext).Inv := by
  unfold State.hostSend
  repeat' first
    | with_reducible assumption
    | ((try lift_lets); intro x; refine (show State.Inv x → _ from ?_) ?_; (on_goal 2 => subst x); (on_goal 1 => (intro hx; clear_value x)))
    | ((try lift_lets); intro x; clear_value x)
    | intro _
    | fail_if_no_progress (with_reducible apply inv_upd)
    | with_reducible exact inv_regReset _ _
    | with_reducible apply hfn
    | with_reducible apply State.modPe_inv
    | with_reducible apply State.cmdSeq_inv
    | with_reducible apply State.hostReply_inv
    | with_reducible apply State.sendChunk_inv
    | with_reducible apply State.modTc_inv
    | with_reducible apply State.startSeq_inv
    | with_reducible apply outInv_next
    | with_reducible apply inv_foldl
    | with_reducible apply inv_foldlFst
    | with_reducible apply inv_foldlSnd
    | split

theorem opPdSendMsg_inv (data : List Byte) (c : Cmd) (s : State) (hs : s.Inv) :
    (opPdSendMsg data c s).2.Inv := by
  unfold opPdSendMsg
  repeat' first
    | with_reducible assumption
    | ((try lift_lets); intro x; refine (show State.Inv x → _ from ?_) ?_; (on_goal 2 => subst x); (on_goal 1 => (intro hx; clear_value x)))
    | ((try lift_lets); intro x; clear_value x)
    | intro _
    | fail_if_no_progress (with_reducible apply inv_upd)
    | with_reducible exact inv_regReset _ _
    | with_reducible apply hfn
    | with_reducible apply State.emit_inv
    | with_reducible apply State.hostSend_inv
    | with_reducible apply State.modPe_inv
    | with_reducible apply outInv_next
    | with_reducible apply inv_foldl
    | with_reducible apply inv_foldlFst
    | with_reducible apply inv_foldlSnd
    | split

theorem execPdSendMsg_inv (data : List Byte) (s : State) (hs : s.Inv) :
    OutInv (execPdSendMsg data s) := by
  unfold execPdSendMsg
  repeat' first
    | with_reducible assumption
    | (intro t ht; have hg : State.Inv t := ht; clear hg)
    | (intro y t ht; have hg : State.Inv t := ht; clear hg)
    | intro _
    | with_reducible first | apply State.when_inv | apply State.runCmd_inv | apply opPdSendMsg_inv | apply outInv_next

theorem State.swapCmd_inv (s : State) (c : Cmd) (forbid : Bool) (q : PeSeq) (hs : s.Inv) :
    (State.swapCmd s c forbid q).2.Inv := by
  unfold State.swapCmd
  repeat' first
    | with_reducible assumption
    | ((try lift_lets); intro x; clear_value x)
    | with_reducible first | apply State.cmdSeq_inv
    | split

theorem opPdSwapPr_inv (c : Cmd) (s : State) (hs : s.Inv) :
    (opPdSwapPr c s).2.Inv := by
  unfold opPdSwapPr
  repeat' first
    | with_reducible assumption
    | with_reducible first | apply State.swapCmd_inv

theorem opPdSwapVconn_inv (c : Cmd) (s : State) (hs : s.Inv) :
    (opPdSwapVconn c s).2.Inv := by
  unfold opPdSwapVconn
  repeat' first
    | with_reducible assumption
    | with_reducible first | apply State.swapCmd_inv

theorem opPdSwapDr_inv (c : Cmd) (s : State) (hs : s.Inv) :
    (opPdSwapDr c s).2.Inv := by
  unfold opPdSwapDr
  repeat' first
    | with_reducible assumption
    | with_reducible first | apply State.swapCmd_inv

theorem execPdSwapPr_inv (s : State) (hs : s.Inv) :
    OutInv (execPdSwapPr s) := by
  unfold execPdSwapPr
  repeat' first
    | with_reducible assumption
    | (intro t ht; have hg : State.Inv t := ht; clear hg)
    | (intro y t ht; have hg : State.Inv t := ht; clear hg)
    | intro _
    | with_reducible first | apply State.when_inv | apply State.runCmd_inv | apply opPdSwapPr_inv | apply outInv_next

theorem execPdSwapVconn_inv (s : State) (hs : s.Inv) :
    OutInv (execPdSwapVconn s) := by
  unfold execPdSwapVconn
  repeat' first
    | with_reducible assumption
    | (intro t ht; have hg : State.Inv t := ht; clear hg)
    | (intro y t ht; have hg : State.Inv t := ht; clear hg)
    | intro _
    | with_reducible first | apply State.when_inv | apply State.runCmd_inv | apply opPdSwapVconn_inv
        | apply outInv_next

theorem execPdSwapDr_inv (s : State) (hs : s.Inv) :
    OutInv (execPdSwapDr s) := by
  unfold execPdSwapDr
  repeat' first
    | with_reducible assumption
    | (intro t ht; have hg : State.Inv t := ht; clear hg)
    | (intro y t ht; have hg : State.Inv t := ht; clear hg)
    | intro _
    | with_reducible first | apply State.when_inv | apply State.runCmd_inv | apply opPdSwapDr_inv | apply outInv_next

theorem opPdHardReset_inv (c : Cmd) (s : State) (hs : s.Inv) :
    (opPdHardReset c s).2.Inv := by
  unfold opPdHardReset
  repeat' first
    | with_reducible assumption
    | ((try lift_lets); intro x; clear_value x)
    | with_reducible first | apply State.sendHardReset_inv | apply State.set_inv
    | split

theorem execPdHardReset_inv (s : State) (hs : s.Inv) :
    OutInv (execPdHardReset s) := by
  unfold execPdHardReset
  repeat' first
    | with_reducible assumption
    | (intro t ht; have hg : State.Inv t := ht; clear hg)
    | (intro y t ht; have hg : State.Inv t := ht; clear hg)
    | intro _
    | with_reducible first | apply State.when_inv | apply State.runCmd_inv | apply opPdHardReset_inv
        | apply State.set_inv | apply outInv_next

theorem State.setDisable_inv (s : State) (p : Fin 4) (v : Bool) (hs : s.Inv) :
    (State.setDisable s p v).Inv := by
  unfold State.setDisable
  repeat' first
    | with_reducible assumption
    | ((try lift_lets); intro x; refine (show State.Inv x → _ from ?_) ?_; (on_goal 2 => subst x); (on_goal 1 => (intro hx; clear_value x)))
    | ((try lift_lets); intro x; clear_value x)
    | intro _
    | fail_if_no_progress (with_reducible apply inv_upd)
    | with_reducible exact inv_regReset _ _
    | with_reducible apply hfn
    | with_reducible apply State.set_inv
    | with_reducible apply State.detachPort_inv
    | with_reducible apply State.modTc_inv
    | with_reducible apply State.setPe_inv
    | with_reducible apply State.setTerm_inv
    | with_reducible apply State.setTc_inv
    | with_reducible apply State.autoSelect_inv
    | with_reducible apply outInv_next
    | with_reducible apply inv_foldl
    | with_reducible apply inv_foldlFst
    | with_reducible apply inv_foldlSnd
    | split

theorem opPdPortDisable_inv (c : Cmd) (s : State) (hs : s.Inv) :
    (opPdPortDisable c s).2.Inv := by
  unfold opPdPortDisable
  repeat' first
    | with_reducible assumption
    | ((try lift_lets); intro x; clear_value x)
    | intro _
    | fail_if_no_progress (with_reducible apply inv_upd)
    | with_reducible exact inv_regReset _ _
    | with_reducible apply hfn
    | with_reducible apply State.setDisable_inv
    | with_reducible apply State.set_inv
    | with_reducible apply outInv_next
    | with_reducible apply inv_foldl
    | with_reducible apply inv_foldlFst
    | with_reducible apply inv_foldlSnd
    | split

theorem execPdPortDisable_inv (s : State) (hs : s.Inv) :
    OutInv (execPdPortDisable s) := by
  unfold execPdPortDisable
  repeat' first
    | with_reducible assumption
    | (intro t ht; have hg : State.Inv t := ht; clear hg)
    | (intro y t ht; have hg : State.Inv t := ht; clear hg)
    | intro _
    | with_reducible first | apply State.when_inv | apply State.runCmd_inv | apply opPdPortDisable_inv
        | apply outInv_next

end Sys2Proof.Machine
end

