-- ==== Sys2Proof/Laws/InvBudget.lean ====
section
/-! SUPPORT. Every operation of Machine/Budget.lean keeps the canonical form of the register space. -/

set_option Elab.async false

namespace Sys2Proof.Machine

theorem State.updRelief_inv (s : State) (hs : s.Inv) :
    (State.updRelief s).Inv := by
  unfold State.updRelief
  repeat' first
    | with_reducible assumption
    | ((try lift_lets); intro x; clear_value x)
    | with_reducible first | apply State.set_inv | apply State.raiseBudget_inv
    | split

theorem State.putIn_inv (s : State) (hs : s.Inv) :
    (State.putIn s).Inv := by
  unfold State.putIn
  repeat' first
    | with_reducible assumption
    | (intro t y ht; have hg : State.Inv t := ht; clear hg)
    | intro _
    | with_reducible first | apply State.eachPort_inv | apply State.set_inv

theorem State.setGrant_inv (s : State) (p : Fin 4) (w : Option OvlWindow) (hs : s.Inv) :
    (State.setGrant s p w).Inv := by
  unfold State.setGrant
  repeat' first
    | with_reducible assumption
    | intro _
    | fail_if_no_progress (with_reducible apply inv_upd)
    | with_reducible first | apply State.modPb_inv | apply State.setBit_inv

theorem State.ageGrant_inv (s : State) (p : Fin 4) (hs : s.Inv) :
    (State.ageGrant s p).Inv := by
  unfold State.ageGrant
  repeat' first
    | with_reducible assumption
    | ((try lift_lets); intro x; clear_value x)
    | fail_if_no_progress (with_reducible apply inv_upd)
    | with_reducible first | apply State.setGrant_inv | apply State.set_inv
    | split

theorem State.grantOvl_inv (s : State) (gap : Int) (p : Fin 4) (hs : s.Inv) :
    (State.grantOvl s gap p).Inv := by
  unfold State.grantOvl
  repeat' first
    | with_reducible assumption
    | ((try lift_lets); intro x; clear_value x)
    | fail_if_no_progress (with_reducible apply inv_upd)
    | with_reducible first | apply State.setGrant_inv | apply State.set_inv
    | split

theorem State.cutTo_inv (s : State) (p : Fin 4) (x : Nat) (hs : s.Inv) :
    (State.cutTo s p x).Inv := by
  unfold State.cutTo
  repeat' first
    | with_reducible assumption
    | ((try lift_lets); intro x; refine (show State.Inv x → _ from ?_) ?_; (on_goal 2 => subst x); (on_goal 1 => (intro hx; clear_value x)))
    | ((try lift_lets); intro x; clear_value x)
    | intro _
    | fail_if_no_progress (with_reducible apply inv_upd)
    | with_reducible first | apply State.modPb_inv | apply State.set_inv | apply State.setBit_inv
        | apply State.raiseBudget_inv | apply State.startSeq_inv
    | split

theorem State.modFarGrant_inv (s : State) (u : Fin 4) (f : Grant → Grant) (hs : s.Inv) :
    (State.modFarGrant s u f).Inv := by
  unfold State.modFarGrant
  repeat' first
    | with_reducible assumption
    | ((try lift_lets); intro x; clear_value x)
    | fail_if_no_progress (with_reducible apply inv_upd)

theorem State.grantStr_inv (s : State) (u : Fin 4) (p : Fin 4) (x : Nat) (hs : s.Inv) :
    (State.grantStr s u p x).Inv := by
  unfold State.grantStr
  repeat' first
    | with_reducible assumption
    | intro _
    | fail_if_no_progress (with_reducible apply inv_upd)
    | with_reducible first | apply State.modFarGrant_inv

theorem State.cutAll_inv (s : State) (left : Nat) (l : List CutPort) (h : s.Inv) : (s.cutAll left l).Inv := by
  induction l generalizing s left with
  | nil => exact h
  | cons c rest ih =>
    unfold State.cutAll
    dsimp only
    split
    · exact ih _ _ h
    · apply ih
      split
      · exact State.cutTo_inv _ _ _ h
      · exact State.grantStr_inv _ _ _ _ h

theorem State.assertThrot_inv (s : State) (hs : s.Inv) :
    (State.assertThrot s).Inv := by
  unfold State.assertThrot
  repeat' first
    | with_reducible assumption
    | with_reducible first | apply State.set_inv | apply State.bump_inv | apply State.raiseBudget_inv
    | split

theorem State.putBudget_inv (s : State) (ps : List Byte) (hs : s.Inv) :
    (State.putBudget s ps).Inv := by
  unfold State.putBudget
  repeat' first
    | with_reducible assumption
    | ((try lift_lets); intro x; refine (show State.Inv x → _ from ?_) ?_; (on_goal 2 => subst x); (on_goal 1 => (intro hx; clear_value x)))
    | intro _
    | fail_if_no_progress (with_reducible apply inv_upd)
    | with_reducible first | apply State.set_inv
    | split

theorem State.applyPolicies_inv (s : State) (hs : s.Inv) :
    (State.applyPolicies s).Inv := by
  unfold State.applyPolicies
  repeat' first
    | with_reducible assumption
    | (intro t y ht; have hg : State.Inv t := ht; clear hg)
    | ((try lift_lets); intro x; clear_value x)
    | intro _
    | fail_if_no_progress (with_reducible apply inv_upd)
    | with_reducible first | apply State.putBudget_inv | apply State.complete_inv | apply inv_foldl

theorem State.stepCredit_inv (s : State) (ibat : Int) (hs : s.Inv) :
    (State.stepCredit s ibat).Inv := by
  unfold State.stepCredit
  repeat' first
    | with_reducible assumption
    | ((try lift_lets); intro x; refine (show State.Inv x → _ from ?_) ?_; (on_goal 2 => subst x); (on_goal 1 => (intro hx; clear_value x)))
    | ((try lift_lets); intro x; clear_value x)
    | fail_if_no_progress (with_reducible apply inv_upd)
    | with_reducible first | apply State.set_inv

theorem State.budgetMeas_inv (s : State) (v : BudgetSample) (hs : s.Inv) :
    (State.budgetMeas s v).Inv := by
  unfold State.budgetMeas
  repeat' first
    | with_reducible assumption
    | ((try lift_lets); intro x; refine (show State.Inv x → _ from ?_) ?_; (on_goal 2 => subst x); (on_goal 1 => (intro hx; clear_value x)))
    | with_reducible first | apply State.setSat_inv | apply State.seti_inv

theorem State.putTerms_inv (s : State) (t : Terms) (m : Nat × Nat × Nat) (sup : Nat) (chg : Nat) (ovl : Nat) (ov : Int) (cOwn : Nat) (hs : s.Inv) :
    (State.putTerms s t m sup chg ovl ov cOwn).Inv := by
  unfold State.putTerms
  repeat' first
    | with_reducible assumption
    | ((try lift_lets); intro x; refine (show State.Inv x → _ from ?_) ?_; (on_goal 2 => subst x); (on_goal 1 => (intro hx; clear_value x)))
    | ((try lift_lets); intro x; clear_value x)
    | intro _
    | fail_if_no_progress (with_reducible apply inv_upd)
    | with_reducible first | apply State.set_inv

theorem State.putGrants_inv (s : State) (t : Terms) (total : Nat) (hs : s.Inv) :
    (State.putGrants s t total).Inv := by
  unfold State.putGrants
  repeat' first
    | with_reducible assumption
    | ((try lift_lets); intro x; refine (show (∀ t y, State.Inv t → State.Inv (x t y)) → _ from ?_) ?_; (on_goal 2 => (subst x; intro _ _ _; beta_reduce)); (on_goal 1 => (intro hfn; clear_value x)))
    | intro _
    | fail_if_no_progress (with_reducible apply inv_upd)
    | with_reducible first | apply hfn | apply State.modFarGrant_inv | apply inv_foldl | apply inv_foldlFst
        | apply inv_foldlSnd
    | split

theorem State.lowerRp_inv (s : State) (p : Fin 4) (hs : s.Inv) :
    (State.lowerRp s p).Inv := by
  unfold State.lowerRp
  repeat' first
    | with_reducible assumption
    | fail_if_no_progress (with_reducible apply inv_upd)
    | with_reducible first | apply State.setTerm_inv | apply State.set_inv
    | split

theorem State.compute_inv (s : State) (v : BudgetSample) (hs : s.Inv) :
    (State.compute s v).Inv := by
  unfold State.compute
  repeat' first
    | with_reducible assumption
    | (intro t y ht; have hg : State.Inv t := ht; clear hg)
    | ((try lift_lets); intro x; refine (show State.Inv x → _ from ?_) ?_; (on_goal 2 => subst x); (on_goal 1 => (intro hx; clear_value x)))
    | ((try lift_lets); intro x; clear_value x)
    | intro _
    | fail_if_no_progress (with_reducible apply inv_upd)
    | with_reducible exact inv_regReset _ _
    | with_reducible apply hfn
    | with_reducible apply State.applyPolicies_inv
    | with_reducible apply State.budgetMeas_inv
    | with_reducible apply State.stepCredit_inv
    | with_reducible apply State.eachPort_inv
    | with_reducible apply State.ageGrant_inv
    | with_reducible apply State.grantOvl_inv
    | with_reducible apply State.putTerms_inv
    | with_reducible apply State.putGrants_inv
    | with_reducible apply State.putIn_inv
    | with_reducible apply State.cutAll_inv
    | with_reducible apply State.assertThrot_inv
    | with_reducible apply State.updRelief_inv
    | with_reducible apply State.lowerRp_inv
    | with_reducible apply outInv_next
    | with_reducible apply inv_foldl
    | with_reducible apply inv_foldlFst
    | with_reducible apply inv_foldlSnd
    | split

theorem execPuppeteerCompute_inv (v : BudgetSample) (s : State) (hs : s.Inv) :
    OutInv (execPuppeteerCompute v s) := by
  unfold execPuppeteerCompute
  repeat' first
    | with_reducible assumption
    | (intro t ht; have hg : State.Inv t := ht; clear hg)
    | intro _
    | fail_if_no_progress (with_reducible apply inv_upd)
    | with_reducible exact inv_regReset _ _
    | with_reducible apply hfn
    | with_reducible apply State.when_inv
    | with_reducible apply State.compute_inv
    | with_reducible apply outInv_next

theorem execOvlGrantEnd_inv (p : Fin 4) (usedUs : Nat) (s : State) (hs : s.Inv) :
    OutInv (execOvlGrantEnd p usedUs s) := by
  unfold execOvlGrantEnd
  repeat' first
    | with_reducible assumption
    | (intro t ht; have hg : State.Inv t := ht; clear hg)
    | intro _
    | fail_if_no_progress (with_reducible apply inv_upd)
    | with_reducible first | apply State.when_inv | apply State.setGrant_inv | apply State.putIn_inv
        | apply State.set_inv | apply outInv_next
    | split

theorem execOvlWindowEnd_inv (p : Fin 4) (s : State) (hs : s.Inv) :
    OutInv (execOvlWindowEnd p s) := by
  unfold execOvlWindowEnd
  repeat' first
    | with_reducible assumption
    | (intro t ht; have hg : State.Inv t := ht; clear hg)
    | intro _
    | with_reducible first | apply State.when_inv | apply State.setGrant_inv | apply State.putIn_inv
        | apply State.set_inv | apply outInv_next

theorem execLocalArbiterEval_inv (v : BudgetSample) (s : State) (hs : s.Inv) :
    OutInv (execLocalArbiterEval v s) := by
  unfold execLocalArbiterEval
  repeat' first
    | with_reducible assumption
    | (intro t ht; have hg : State.Inv t := ht; clear hg)
    | ((try lift_lets); intro x; refine (show State.Inv x → _ from ?_) ?_; (on_goal 2 => subst x); (on_goal 1 => (intro hx; clear_value x)))
    | ((try lift_lets); intro x; clear_value x)
    | intro _
    | fail_if_no_progress (with_reducible apply inv_upd)
    | with_reducible first | apply State.when_inv | apply State.set_inv | apply State.assertThrot_inv
        | apply State.updRelief_inv | apply outInv_next
    | split

theorem execLocalArbiterPmaxUpdate_inv (s : State) (hs : s.Inv) :
    OutInv (execLocalArbiterPmaxUpdate s) := by
  unfold execLocalArbiterPmaxUpdate
  repeat' first
    | with_reducible assumption
    | (intro t ht; have hg : State.Inv t := ht; clear hg)
    | intro _
    | with_reducible first | apply State.when_inv | apply State.writePmax_inv | apply outInv_next

theorem execChgShedDeadline_inv (power : Nat) (s : State) (hs : s.Inv) :
    OutInv (execChgShedDeadline power s) := by
  unfold execChgShedDeadline
  repeat' first
    | with_reducible assumption
    | (intro t ht; have hg : State.Inv t := ht; clear hg)
    | ((try lift_lets); intro x; refine (show State.Inv x → _ from ?_) ?_; (on_goal 2 => subst x); (on_goal 1 => (intro hx; clear_value x)))
    | ((try lift_lets); intro x; clear_value x)
    | intro _
    | fail_if_no_progress (with_reducible apply inv_upd)
    | with_reducible first | apply State.when_inv | apply State.seti_inv | apply State.set_inv
        | apply State.raiseBudget_inv | apply outInv_next

theorem execShedTExpiry_inv (p : Fin 4) (s : State) (hs : s.Inv) :
    OutInv (execShedTExpiry p s) := by
  unfold execShedTExpiry
  repeat' first
    | with_reducible assumption
    | (intro t ht; have hg : State.Inv t := ht; clear hg)
    | intro _
    | fail_if_no_progress (with_reducible apply inv_upd)
    | with_reducible first | apply State.when_inv | apply State.modPb_inv | apply State.set_inv | apply outInv_next
    | split

theorem execShedHardReset_inv (p : Fin 4) (s : State) (hs : s.Inv) :
    OutInv (execShedHardReset p s) := by
  unfold execShedHardReset
  repeat' first
    | with_reducible assumption
    | (intro t ht; have hg : State.Inv t := ht; clear hg)
    | ((try lift_lets); intro x; refine (show State.Inv x → _ from ?_) ?_; (on_goal 2 => subst x); (on_goal 1 => (intro hx; clear_value x)))
    | intro _
    | fail_if_no_progress (with_reducible apply inv_upd)
    | with_reducible exact inv_regReset _ _
    | with_reducible apply hfn
    | with_reducible apply State.when_inv
    | with_reducible apply State.setBit_inv
    | with_reducible apply State.endShed_inv
    | with_reducible apply State.sendHardReset_inv
    | with_reducible apply State.modPb_inv
    | with_reducible apply State.set_inv
    | with_reducible apply outInv_next
    | with_reducible apply inv_foldl
    | with_reducible apply inv_foldlFst
    | with_reducible apply inv_foldlSnd
    | split

theorem execSourceRestore_inv (p : Fin 4) (s : State) (hs : s.Inv) :
    OutInv (execSourceRestore p s) := by
  unfold execSourceRestore
  repeat' first
    | with_reducible assumption
    | (intro t ht; have hg : State.Inv t := ht; clear hg)
    | ((try lift_lets); intro x; clear_value x)
    | intro _
    | fail_if_no_progress (with_reducible apply inv_upd)
    | with_reducible first | apply State.when_inv | apply State.modPb_inv | apply State.startSeq_inv
        | apply outInv_next

theorem execThrotDeassert_inv (s : State) (hs : s.Inv) :
    OutInv (execThrotDeassert s) := by
  unfold execThrotDeassert
  repeat' first
    | with_reducible assumption
    | (intro t ht; have hg : State.Inv t := ht; clear hg)
    | intro _
    | with_reducible first | apply State.when_inv | apply State.set_inv | apply State.raiseBudget_inv
        | apply State.updRelief_inv | apply outInv_next

theorem State.modIntent_inv (s : State) (k : Nat) (f : Intent → Intent) (hs : s.Inv) :
    (State.modIntent s k f).Inv := by
  unfold State.modIntent
  repeat' first
    | with_reducible assumption
    | ((try lift_lets); intro x; clear_value x)
    | intro _
    | fail_if_no_progress (with_reducible apply inv_upd)

theorem State.dropIntents_inv (s : State) (out : Intent → Bool) (hs : s.Inv) :
    (State.dropIntents s out).Inv := by
  unfold State.dropIntents
  repeat' first
    | with_reducible assumption
    | ((try lift_lets); intro x; clear_value x)
    | intro _
    | fail_if_no_progress (with_reducible apply inv_upd)

theorem State.armSupplement_inv (s : State) (hs : s.Inv) :
    (State.armSupplement s).Inv := by
  unfold State.armSupplement
  repeat' first
    | with_reducible assumption
    | ((try lift_lets); intro x; clear_value x)
    | fail_if_no_progress (with_reducible apply inv_upd)
    | split

theorem execIntentActivate_inv (slot : Fin 8) (s : State) (hs : s.Inv) :
    OutInv (execIntentActivate slot s) := by
  unfold execIntentActivate
  repeat' first
    | with_reducible assumption
    | (intro t ht; have hg : State.Inv t := ht; clear hg)
    | intro _
    | fail_if_no_progress (with_reducible apply inv_upd)
    | with_reducible first | apply State.when_inv | apply State.modIntent_inv | apply State.armSupplement_inv
        | apply outInv_next

theorem execIntentExpire_inv (slot : Fin 8) (s : State) (hs : s.Inv) :
    OutInv (execIntentExpire slot s) := by
  unfold execIntentExpire
  repeat' first
    | with_reducible assumption
    | (intro t ht; have hg : State.Inv t := ht; clear hg)
    | intro _
    | with_reducible first | apply State.when_inv | apply State.dropIntents_inv | apply outInv_next

theorem State.addIntent_inv (s : State) (k : Fin 8) (dP : Nat) (start : Nat) (stop : Nat) (owner : Nat) (hs : s.Inv) :
    (State.addIntent s k dP start stop owner).2.Inv := by
  unfold State.addIntent
  repeat' first
    | with_reducible assumption
    | ((try lift_lets); intro x; refine (show State.Inv x → _ from ?_) ?_; (on_goal 2 => subst x); (on_goal 1 => (intro hx; clear_value x)))
    | ((try lift_lets); intro x; clear_value x)
    | fail_if_no_progress (with_reducible apply inv_upd)
    | with_reducible first | apply State.set_inv | apply State.armSupplement_inv
    | split

theorem opBudgetIntent_inv (c : Cmd) (s : State) (hs : s.Inv) : (opBudgetIntent c s).2.Inv := by
  unfold opBudgetIntent
  extract_lets dP dur t stop cs
  clear_value dP dur t stop cs
  split
  · exact hs
  · split
    · exact hs
    · split
      · exact hs
      · split
        · exact hs
        · extract_lets r s1
          have h1 : s1.Inv := State.addIntent_inv _ _ _ _ _ _ hs
          show State.Inv (if s1.follows then _ else _)
          split
          · exact inv_upd h1
          · exact h1

theorem execBudgetIntent_inv (s : State) (hs : s.Inv) :
    OutInv (execBudgetIntent s) := by
  unfold execBudgetIntent
  repeat' first
    | with_reducible assumption
    | (intro t ht; have hg : State.Inv t := ht; clear hg)
    | (intro y t ht; have hg : State.Inv t := ht; clear hg)
    | intro _
    | with_reducible first | apply State.when_inv | apply State.runCmd_inv | apply opBudgetIntent_inv
        | apply outInv_next

theorem opBudgetCancelIntent_inv (c : Cmd) (s : State) (hs : s.Inv) :
    (opBudgetCancelIntent c s).2.Inv := by
  unfold opBudgetCancelIntent
  repeat' first
    | with_reducible assumption
    | ((try lift_lets); intro x; clear_value x)
    | intro _
    | with_reducible first | apply State.dropIntents_inv
    | split

theorem execBudgetCancelIntent_inv (s : State) (hs : s.Inv) :
    OutInv (execBudgetCancelIntent s) := by
  unfold execBudgetCancelIntent
  repeat' first
    | with_reducible assumption
    | (intro t ht; have hg : State.Inv t := ht; clear hg)
    | (intro y t ht; have hg : State.Inv t := ht; clear hg)
    | intro _
    | with_reducible first | apply State.when_inv | apply State.runCmd_inv | apply opBudgetCancelIntent_inv
        | apply outInv_next

theorem opBudgetSetPolicy_inv (c : Cmd) (s : State) (hs : s.Inv) :
    (opBudgetSetPolicy c s).2.Inv := by
  unfold opBudgetSetPolicy
  repeat' first
    | with_reducible assumption
    | ((try lift_lets); intro x; clear_value x)
    | fail_if_no_progress (with_reducible apply inv_upd)

theorem execBudgetSetPolicy_inv (s : State) (hs : s.Inv) :
    OutInv (execBudgetSetPolicy s) := by
  unfold execBudgetSetPolicy
  repeat' first
    | with_reducible assumption
    | (intro t ht; have hg : State.Inv t := ht; clear hg)
    | (intro y t ht; have hg : State.Inv t := ht; clear hg)
    | intro _
    | with_reducible first | apply State.when_inv | apply State.runCmd_inv | apply opBudgetSetPolicy_inv
        | apply outInv_next

theorem opBudgetQuery_inv (u_ : Cmd) (s : State) (hs : s.Inv) :
    (opBudgetQuery u_ s).2.Inv := by
  unfold opBudgetQuery
  repeat' first
    | with_reducible assumption
    | ((try lift_lets); intro x; refine (show State.Inv x → _ from ?_) ?_; (on_goal 2 => subst x); (on_goal 1 => (intro hx; clear_value x)))
    | ((try lift_lets); intro x; clear_value x)
    | with_reducible first | apply State.set_inv | apply State.setSat_inv

theorem execBudgetQuery_inv (s : State) (hs : s.Inv) :
    OutInv (execBudgetQuery s) := by
  unfold execBudgetQuery
  repeat' first
    | with_reducible assumption
    | (intro t ht; have hg : State.Inv t := ht; clear hg)
    | (intro y t ht; have hg : State.Inv t := ht; clear hg)
    | intro _
    | with_reducible first | apply State.when_inv | apply State.runCmd_inv | apply opBudgetQuery_inv
        | apply outInv_next

end Sys2Proof.Machine
end

