-- ==== Sys2Proof/Laws/InvLowPower.lean ====
section
/-! SUPPORT. Every operation of Machine/LowPower.lean keeps the canonical form of the register space. -/

set_option Elab.async false

namespace Sys2Proof.Machine

theorem State.recheckKa_inv (s : State) (hs : s.Inv) :
    (State.recheckKa s).Inv := by
  unfold State.recheckKa
  repeat' first
    | with_reducible assumption
    | with_reducible first | apply State.abandonKa_inv
    | split

theorem State.sleepClocks_inv (s : State) (hs : s.Inv) :
    (State.sleepClocks s).Inv := by
  unfold State.sleepClocks
  repeat' first
    | with_reducible assumption
    | with_reducible first | apply State.set_inv

theorem State.jackSleep_inv (s : State) (hs : s.Inv) :
    (State.jackSleep s).Inv := by
  unfold State.jackSleep
  repeat' first
    | with_reducible assumption
    | ((try lift_lets); intro x; refine (show State.Inv x → _ from ?_) ?_; (on_goal 2 => subst x); (on_goal 1 => (intro hx; clear_value x)))
    | ((try lift_lets); intro x; clear_value x)
    | fail_if_no_progress (with_reducible apply inv_upd)
    | with_reducible first | apply State.set_inv
    | split

theorem State.freshPeriod_inv (s : State) (hs : s.Inv) :
    (State.freshPeriod s).Inv := by
  unfold State.freshPeriod
  repeat' first
    | with_reducible assumption
    | ((try lift_lets); intro x; refine (show State.Inv x → _ from ?_) ?_; (on_goal 2 => subst x); (on_goal 1 => (intro hx; clear_value x)))
    | ((try lift_lets); intro x; clear_value x)
    | fail_if_no_progress (with_reducible apply inv_upd)
    | with_reducible first | apply State.set_inv

theorem State.jackWake_inv (s : State) (hs : s.Inv) :
    (State.jackWake s).Inv := by
  unfold State.jackWake
  repeat' first
    | with_reducible assumption
    | with_reducible first | apply State.set_inv | apply State.freshPeriod_inv
    | split

theorem State.enterKa_inv (s : State) (cause : Nat) (hs : s.Inv) :
    (State.enterKa s cause).Inv := by
  unfold State.enterKa
  repeat' first
    | with_reducible assumption
    | ((try lift_lets); intro x; refine (show State.Inv x → _ from ?_) ?_; (on_goal 2 => subst x); (on_goal 1 => (intro hx; clear_value x)))
    | ((try lift_lets); intro x; clear_value x)
    | fail_if_no_progress (with_reducible apply inv_upd)
    | with_reducible first | apply State.set_inv | apply State.jackSleep_inv | apply State.sleepClocks_inv
        | apply State.setMode_inv
    | split

theorem State.kaGo_inv (s : State) (cause : Nat) (hs : s.Inv) :
    (State.kaGo s cause).Inv := by
  unfold State.kaGo
  repeat' first
    | with_reducible assumption
    | ((try lift_lets); intro x; clear_value x)
    | fail_if_no_progress (with_reducible apply inv_upd)
    | with_reducible first | apply State.abandonKa_inv | apply State.set_inv | apply State.enterKa_inv
    | split

theorem State.autoKa_inv (s : State) (hs : s.Inv) :
    (State.autoKa s).Inv := by
  unfold State.autoKa
  repeat' first
    | with_reducible assumption
    | with_reducible first | apply State.kaGo_inv
    | split

theorem State.wakeClocks_inv (s : State) (hs : s.Inv) :
    (State.wakeClocks s).Inv := by
  unfold State.wakeClocks
  repeat' first
    | with_reducible assumption
    | with_reducible first | apply State.set_inv

theorem State.wakeUp_inv (s : State) (returns : Bool) (burst : Bool) (hs : s.Inv) :
    (State.wakeUp s returns burst).Inv := by
  unfold State.wakeUp
  repeat' first
    | with_reducible assumption
    | ((try lift_lets); intro x; refine (show State.Inv x → _ from ?_) ?_; (on_goal 2 => subst x); (on_goal 1 => (intro hx; clear_value x)))
    | ((try lift_lets); intro x; clear_value x)
    | fail_if_no_progress (with_reducible apply inv_upd)
    | with_reducible first | apply State.wakeClocks_inv | apply State.jackWake_inv | apply State.emit_inv
        | apply State.setMode_inv | apply State.set_inv
    | split

end Sys2Proof.Machine
end

