-- ==== Sys2Proof/Laws/InvRails.lean ====
section
/-! SUPPORT. Every operation of Machine/Rails.lean keeps the canonical form of the register space. -/

set_option Elab.async false

namespace Sys2Proof.Machine

theorem State.setRail_inv (s : State) (n : Fin 12) (st : Nat) (hs : s.Inv) :
    (State.setRail s n st).Inv := by
  unfold State.setRail
  repeat' first
    | with_reducible assumption
    | ((try lift_lets); intro x; refine (show State.Inv x → _ from ?_) ?_; (on_goal 2 => subst x); (on_goal 1 => (intro hx; clear_value x)))
    | ((try lift_lets); intro x; clear_value x)
    | with_reducible first | apply State.set_inv | apply State.setBit_inv
    | split

theorem State.eachRail_inv (s : State) (m : Nat) (f : State → Fin 12 → State) (hs : s.Inv) (hf : ∀ (x0 : State) (x1 : Fin 12), x0.Inv → (f x0 x1).Inv) :
    (State.eachRail s m f).Inv := by
  unfold State.eachRail
  repeat' first
    | with_reducible assumption
    | (intro t y ht; have hg : State.Inv t := ht; clear hg)
    | intro _
    | with_reducible first | apply hf | apply inv_foldl | apply inv_foldlFst | apply inv_foldlSnd
    | split

theorem State.raiseSeq_inv (s : State) (rail : Nat) (kind : Nat) (st : Nat) (group : Nat) (hs : s.Inv) :
    (State.raiseSeq s rail kind st group).Inv := by
  unfold State.raiseSeq
  repeat' first
    | with_reducible assumption
    | with_reducible first | apply State.raise_inv

theorem State.railEvent_inv (s : State) (n : Fin 12) (kind : Nat) (hs : s.Inv) :
    (State.railEvent s n kind).Inv := by
  unfold State.railEvent
  repeat' first
    | with_reducible assumption
    | with_reducible first | apply State.raiseSeq_inv

theorem State.runEvent_inv (s : State) (r : SeqRun) (kind : Nat) (hs : s.Inv) :
    (State.runEvent s r kind).Inv := by
  unfold State.runEvent
  repeat' first
    | with_reducible assumption
    | with_reducible first | apply State.raiseSeq_inv

theorem State.modSeq_inv (s : State) (f : Sequencer → Sequencer) (hs : s.Inv) :
    (State.modSeq s f).Inv := by
  unfold State.modSeq
  repeat' first
    | with_reducible assumption
    | fail_if_no_progress (with_reducible apply inv_upd)

theorem State.setPlatform_inv (s : State) (v : Nat) (hs : s.Inv) :
    (State.setPlatform s v).Inv := by
  unfold State.setPlatform
  repeat' first
    | with_reducible assumption
    | with_reducible first | apply State.set_inv | apply State.setb_inv

theorem State.endRun_inv (s : State) (r : SeqRun) (status : Nat) (code : Nat) (hs : s.Inv) :
    (State.endRun s r status code).Inv := by
  unfold State.endRun
  repeat' first
    | with_reducible assumption
    | (intro t y ht; have hg : State.Inv t := ht; clear hg)
    | intro _
    | with_reducible first | apply State.complete_inv | apply inv_foldl

theorem State.breakUp_inv (s : State) (r : SeqRun) (status : Nat) (code : Nat) (hs : s.Inv) :
    (State.breakUp s r status code).Inv := by
  unfold State.breakUp
  repeat' first
    | with_reducible assumption
    | ((try lift_lets); intro x; refine (show State.Inv x → _ from ?_) ?_; (on_goal 2 => subst x); (on_goal 1 => (intro hx; clear_value x)))
    | intro _
    | fail_if_no_progress (with_reducible apply inv_upd)
    | with_reducible first | apply State.modSeq_inv | apply State.setPlatform_inv | apply State.endRun_inv
        | apply State.set_inv
    | split

theorem State.finishUp_inv (s : State) (r : SeqRun) (hs : s.Inv) :
    (State.finishUp s r).Inv := by
  unfold State.finishUp
  repeat' first
    | with_reducible assumption
    | ((try lift_lets); intro x; refine (show State.Inv x → _ from ?_) ?_; (on_goal 2 => subst x); (on_goal 1 => (intro hx; clear_value x)))
    | intro _
    | fail_if_no_progress (with_reducible apply inv_upd)
    | with_reducible first | apply State.modSeq_inv | apply State.setPlatform_inv | apply State.runEvent_inv
        | apply State.endRun_inv | apply State.set_inv
    | split

theorem State.finishUps_inv (s : State) (hs : s.Inv) :
    (State.finishUps s).Inv := by
  unfold State.finishUps
  repeat' first
    | with_reducible assumption
    | (intro t y ht; have hg : State.Inv t := ht; clear hg)
    | with_reducible first | apply State.finishUp_inv | apply inv_foldl

theorem State.finishDown_inv (s : State) (r : SeqRun) (hs : s.Inv) :
    (State.finishDown s r).Inv := by
  unfold State.finishDown
  repeat' first
    | with_reducible assumption
    | ((try lift_lets); intro x; refine (show State.Inv x → _ from ?_) ?_; (on_goal 2 => subst x); (on_goal 1 => (intro hx; clear_value x)))
    | intro _
    | fail_if_no_progress (with_reducible apply inv_upd)
    | with_reducible first | apply State.modSeq_inv | apply State.setPlatform_inv | apply State.runEvent_inv
        | apply State.endRun_inv | apply State.autoKa_inv | apply State.set_inv
    | split

theorem State.finishDowns_inv (s : State) (hs : s.Inv) :
    (State.finishDowns s).Inv := by
  unfold State.finishDowns
  repeat' first
    | with_reducible assumption
    | (intro t y ht; have hg : State.Inv t := ht; clear hg)
    | with_reducible first | apply State.finishDown_inv | apply inv_foldl

theorem State.joinRun_inv (s : State) (r : SeqRun) (hs : s.Inv) :
    (State.joinRun s r).Inv := by
  unfold State.joinRun
  repeat' first
    | with_reducible assumption
    | intro _
    | fail_if_no_progress (with_reducible apply inv_upd)
    | with_reducible first | apply State.modSeq_inv

theorem State.startUp_inv (s : State) (r : SeqRun) (hs : s.Inv) :
    (State.startUp s r).Inv := by
  unfold State.startUp
  repeat' first
    | with_reducible assumption
    | (intro t y ht; have hg : State.Inv t := ht; clear hg)
    | ((try lift_lets); intro x; refine (show State.Inv x → _ from ?_) ?_; (on_goal 2 => subst x); (on_goal 1 => (intro hx; clear_value x)))
    | intro _
    | fail_if_no_progress (with_reducible apply inv_upd)
    | with_reducible exact inv_regReset _ _
    | with_reducible apply hfn
    | with_reducible apply State.joinRun_inv
    | with_reducible apply State.eachRail_inv
    | with_reducible apply State.setRail_inv
    | with_reducible apply State.setPlatform_inv
    | with_reducible apply State.modSeq_inv
    | with_reducible apply State.finishUps_inv
    | with_reducible apply State.set_inv
    | with_reducible apply outInv_next
    | with_reducible apply inv_foldl
    | with_reducible apply inv_foldlFst
    | with_reducible apply inv_foldlSnd
    | split

theorem State.requestOn_inv (s : State) (r : SeqRun) (hs : s.Inv) :
    (State.requestOn s r).Inv := by
  unfold State.requestOn
  repeat' first
    | with_reducible assumption
    | intro _
    | fail_if_no_progress (with_reducible apply inv_upd)
    | with_reducible exact inv_regReset _ _
    | with_reducible apply hfn
    | with_reducible apply State.modSeq_inv
    | with_reducible apply State.set_inv
    | with_reducible apply State.runEvent_inv
    | with_reducible apply State.startUp_inv
    | with_reducible apply outInv_next
    | with_reducible apply inv_foldl
    | with_reducible apply inv_foldlFst
    | with_reducible apply inv_foldlSnd
    | split

theorem State.clearLatch_inv (s : State) (hs : s.Inv) :
    (State.clearLatch s).Inv := by
  unfold State.clearLatch
  repeat' first
    | with_reducible assumption
    | (intro t y ht; have hg : State.Inv t := ht; clear hg)
    | ((try lift_lets); intro x; refine (show State.Inv x → _ from ?_) ?_; (on_goal 2 => subst x); (on_goal 1 => (intro hx; clear_value x)))
    | ((try lift_lets); intro x; clear_value x)
    | intro _
    | fail_if_no_progress (with_reducible apply inv_upd)
    | with_reducible first | apply State.modSeq_inv | apply State.set_inv | apply State.endRun_inv | apply inv_foldl

theorem State.breakUps_inv (s : State) (m : Nat) (byFault : Bool) (hs : s.Inv) :
    (State.breakUps s m byFault).Inv := by
  unfold State.breakUps
  repeat' first
    | with_reducible assumption
    | (intro t y ht; have hg : State.Inv t := ht; clear hg)
    | intro _
    | with_reducible first | apply State.breakUp_inv | apply State.runEvent_inv | apply inv_foldl | apply inv_foldlFst
        | apply inv_foldlSnd
    | split

theorem State.requestOff_inv (s : State) (r : SeqRun) (byFault : Bool) (hs : s.Inv) :
    (State.requestOff s r byFault).Inv := by
  unfold State.requestOff
  repeat' first
    | with_reducible assumption
    | (intro t y ht; have hg : State.Inv t := ht; clear hg)
    | ((try lift_lets); intro x; refine (show State.Inv x → _ from ?_) ?_; (on_goal 2 => subst x); (on_goal 1 => (intro hx; clear_value x)))
    | ((try lift_lets); intro x; clear_value x)
    | intro _
    | fail_if_no_progress (with_reducible apply inv_upd)
    | with_reducible exact inv_regReset _ _
    | with_reducible apply hfn
    | with_reducible apply State.clearLatch_inv
    | with_reducible apply State.joinRun_inv
    | with_reducible apply State.breakUps_inv
    | with_reducible apply State.eachRail_inv
    | with_reducible apply State.setRail_inv
    | with_reducible apply State.setPlatform_inv
    | with_reducible apply State.modSeq_inv
    | with_reducible apply State.finishDowns_inv
    | with_reducible apply State.set_inv
    | with_reducible apply outInv_next
    | with_reducible apply inv_foldl
    | with_reducible apply inv_foldlFst
    | with_reducible apply inv_foldlSnd
    | split

theorem State.bootGroup_inv (s : State) (hs : s.Inv) :
    (State.bootGroup s).Inv := by
  unfold State.bootGroup
  repeat' first
    | with_reducible assumption
    | with_reducible first | apply State.requestOn_inv

theorem State.platformOn_inv (s : State) (cmds : List Nat) (hs : s.Inv) :
    (State.platformOn s cmds).Inv := by
  unfold State.platformOn
  repeat' first
    | with_reducible assumption
    | with_reducible first | apply State.requestOn_inv

theorem State.stopRails_inv (s : State) (hs : s.Inv) :
    (State.stopRails s).Inv := by
  unfold State.stopRails
  repeat' first
    | with_reducible assumption
    | intro _
    | fail_if_no_progress (with_reducible apply inv_upd)
    | with_reducible exact inv_regReset _ _
    | with_reducible apply hfn
    | with_reducible apply State.requestOff_inv

theorem State.keepRails_inv (s : State) (hs : s.Inv) :
    (State.keepRails s).Inv := by
  unfold State.keepRails
  repeat' first
    | with_reducible assumption
    | (intro t y ht; have hg : State.Inv t := ht; clear hg)
    | ((try lift_lets); intro x; refine (show State.Inv x → _ from ?_) ?_; (on_goal 2 => subst x); (on_goal 1 => (intro hx; clear_value x)))
    | intro _
    | fail_if_no_progress (with_reducible apply inv_upd)
    | with_reducible first | apply State.modSeq_inv | apply State.eachRail_inv | apply State.setRail_inv
        | apply State.setPlatform_inv | apply State.set_inv
    | split

theorem State.markFault_inv (s : State) (n : Fin 12) (f : Fld) (kind : Nat) (hs : s.Inv) :
    (State.markFault s n f kind).Inv := by
  unfold State.markFault
  repeat' first
    | with_reducible assumption
    | (intro t y ht; have hg : State.Inv t := ht; clear hg)
    | ((try lift_lets); intro x; refine (show State.Inv x → _ from ?_) ?_; (on_goal 2 => subst x); (on_goal 1 => (intro hx; clear_value x)))
    | intro _
    | with_reducible first | apply State.setRail_inv | apply State.setBit_inv | apply State.railEvent_inv
        | apply State.breakUp_inv | apply State.set_inv | apply inv_foldl

theorem State.faultAction_inv (s : State) (n : Fin 12) (hs : s.Inv) :
    (State.faultAction s n).Inv := by
  unfold State.faultAction
  repeat' first
    | with_reducible assumption
    | ((try lift_lets); intro x; clear_value x)
    | intro _
    | fail_if_no_progress (with_reducible apply inv_upd)
    | with_reducible exact inv_regReset _ _
    | with_reducible apply hfn
    | with_reducible apply State.requestOff_inv
    | with_reducible apply outInv_next
    | with_reducible apply inv_foldl
    | with_reducible apply inv_foldlFst
    | with_reducible apply inv_foldlSnd
    | split

theorem State.faultRail_inv (s : State) (n : Fin 12) (f : Fld) (kind : Nat) (hs : s.Inv) :
    (State.faultRail s n f kind).Inv := by
  unfold State.faultRail
  repeat' first
    | with_reducible assumption
    | with_reducible first | apply State.markFault_inv | apply State.faultAction_inv

theorem State.syncUnused_inv (s : State) (n : Fin 12) (hs : s.Inv) :
    (State.syncUnused s n).Inv := by
  unfold State.syncUnused
  repeat' first
    | with_reducible assumption
    | with_reducible first | apply State.setRail_inv | apply State.set_inv
    | split

theorem State.applyR48_inv (s : State) (n : Fin 12) (hs : s.Inv) :
    (State.applyR48 s n).Inv := by
  unfold State.applyR48
  repeat' first
    | with_reducible assumption
    | ((try lift_lets); intro x; refine (show State.Inv x → _ from ?_) ?_; (on_goal 2 => subst x); (on_goal 1 => (intro hx; clear_value x)))
    | intro _
    | fail_if_no_progress (with_reducible apply inv_upd)
    | with_reducible first | apply State.modSeq_inv | apply State.setWord_inv | apply State.set_inv
        | apply State.syncUnused_inv
    | split

theorem State.railDefaults_inv (s : State) (hs : s.Inv) :
    (State.railDefaults s).Inv := by
  unfold State.railDefaults
  repeat' first
    | with_reducible assumption
    | (intro t y ht; have hg : State.Inv t := ht; clear hg)
    | intro _
    | fail_if_no_progress (with_reducible apply inv_upd)
    | with_reducible first | apply State.modSeq_inv | apply State.eachRail_inv | apply State.applyR48_inv

theorem execRailEnable_inv (n : Fin 12) (s : State) (hs : s.Inv) :
    OutInv (execRailEnable n s) := by
  unfold execRailEnable
  repeat' first
    | with_reducible assumption
    | (intro t ht; have hg : State.Inv t := ht; clear hg)
    | intro _
    | with_reducible first | apply State.when_inv | apply State.setRail_inv | apply State.set_inv | apply outInv_next

theorem execRailGood_inv (n : Fin 12) (s : State) (hs : s.Inv) :
    OutInv (execRailGood n s) := by
  unfold execRailGood
  repeat' first
    | with_reducible assumption
    | (intro t ht; have hg : State.Inv t := ht; clear hg)
    | intro _
    | with_reducible first | apply State.when_inv | apply State.setRail_inv | apply State.railEvent_inv
        | apply State.finishUps_inv | apply State.set_inv | apply outInv_next

theorem execRailPgTimeout_inv (n : Fin 12) (s : State) (hs : s.Inv) :
    OutInv (execRailPgTimeout n s) := by
  unfold execRailPgTimeout
  repeat' first
    | with_reducible assumption
    | (intro t ht; have hg : State.Inv t := ht; clear hg)
    | intro _
    | with_reducible first | apply State.when_inv | apply State.faultRail_inv | apply outInv_next

theorem execRailLossOfGood_inv (n : Fin 12) (s : State) (hs : s.Inv) :
    OutInv (execRailLossOfGood n s) := by
  unfold execRailLossOfGood
  repeat' first
    | with_reducible assumption
    | (intro t ht; have hg : State.Inv t := ht; clear hg)
    | intro _
    | with_reducible first | apply State.when_inv | apply State.ifDo_inv | apply State.wakeUp_inv
        | apply State.faultRail_inv | apply outInv_next

theorem execRailDisable_inv (n : Fin 12) (s : State) (hs : s.Inv) :
    OutInv (execRailDisable n s) := by
  unfold execRailDisable
  repeat' first
    | with_reducible assumption
    | (intro t ht; have hg : State.Inv t := ht; clear hg)
    | intro _
    | with_reducible first | apply State.when_inv | apply State.setRail_inv | apply State.set_inv | apply outInv_next

theorem execRailOff_inv (n : Fin 12) (s : State) (hs : s.Inv) :
    OutInv (execRailOff n s) := by
  unfold execRailOff
  repeat' first
    | with_reducible assumption
    | (intro t ht; have hg : State.Inv t := ht; clear hg)
    | intro _
    | with_reducible first | apply State.when_inv | apply State.setRail_inv | apply State.railEvent_inv
        | apply State.syncUnused_inv | apply State.applyR48_inv | apply State.finishDowns_inv | apply State.set_inv
        | apply outInv_next

theorem execRailStuck_inv (n : Fin 12) (s : State) (hs : s.Inv) :
    OutInv (execRailStuck n s) := by
  unfold execRailStuck
  repeat' first
    | with_reducible assumption
    | (intro t ht; have hg : State.Inv t := ht; clear hg)
    | intro _
    | with_reducible first | apply State.when_inv | apply State.setRail_inv | apply State.setBit_inv
        | apply State.railEvent_inv | apply State.finishDowns_inv | apply State.set_inv | apply outInv_next

theorem execLatchedPowerUp_inv (s : State) (hs : s.Inv) :
    OutInv (execLatchedPowerUp s) := by
  unfold execLatchedPowerUp
  repeat' first
    | with_reducible assumption
    | (intro t ht; have hg : State.Inv t := ht; clear hg)
    | (intro t y ht; have hg : State.Inv t := ht; clear hg)
    | ((try lift_lets); intro x; refine (show State.Inv x → _ from ?_) ?_; (on_goal 2 => subst x); (on_goal 1 => (intro hx; clear_value x)))
    | ((try lift_lets); intro x; clear_value x)
    | intro _
    | fail_if_no_progress (with_reducible apply inv_upd)
    | with_reducible exact inv_regReset _ _
    | with_reducible apply hfn
    | with_reducible apply State.when_inv
    | with_reducible apply State.modSeq_inv
    | with_reducible apply State.set_inv
    | with_reducible apply State.startUp_inv
    | with_reducible apply outInv_next
    | with_reducible apply inv_foldl

theorem execAuxOverload_inv (n : Fin 4) (s : State) (hs : s.Inv) :
    OutInv (execAuxOverload n s) := by
  unfold execAuxOverload
  repeat' first
    | with_reducible assumption
    | (intro t ht; have hg : State.Inv t := ht; clear hg)
    | ((try lift_lets); intro x; refine (show State.Inv x → _ from ?_) ?_; (on_goal 2 => subst x); (on_goal 1 => (intro hx; clear_value x)))
    | ((try lift_lets); intro x; clear_value x)
    | intro _
    | fail_if_no_progress (with_reducible apply inv_upd)
    | with_reducible exact inv_regReset _ _
    | with_reducible apply hfn
    | with_reducible apply State.when_inv
    | with_reducible apply State.setBit_inv
    | with_reducible apply State.railEvent_inv
    | with_reducible apply State.setRail_inv
    | with_reducible apply State.faultRail_inv
    | with_reducible apply State.set_inv
    | with_reducible apply outInv_next
    | with_reducible apply inv_foldl
    | with_reducible apply inv_foldlFst
    | with_reducible apply inv_foldlSnd
    | split

theorem execAuxUvlo_inv (vsys : Nat) (s : State) (hs : s.Inv) :
    OutInv (execAuxUvlo vsys s) := by
  unfold execAuxUvlo
  repeat' first
    | with_reducible assumption
    | (intro t ht; have hg : State.Inv t := ht; clear hg)
    | (intro t y ht; have hg : State.Inv t := ht; clear hg)
    | ((try lift_lets); intro x; refine (show State.Inv x → _ from ?_) ?_; (on_goal 2 => subst x); (on_goal 1 => (intro hx; clear_value x)))
    | ((try lift_lets); intro x; clear_value x)
    | intro _
    | with_reducible first | apply State.when_inv | apply State.setSat_inv | apply State.eachRail_inv
        | apply State.setRail_inv | apply State.markFault_inv | apply State.faultAction_inv | apply State.set_inv
        | apply outInv_next

theorem State.configRail_inv (s : State) (n : Fin 12) (c : Cmd) (hs : s.Inv) :
    (State.configRail s n c).Inv := by
  unfold State.configRail
  repeat' first
    | with_reducible assumption
    | ((try lift_lets); intro x; refine (show State.Inv x → _ from ?_) ?_; (on_goal 2 => subst x); (on_goal 1 => (intro hx; clear_value x)))
    | with_reducible first | apply State.set_inv | apply State.syncUnused_inv
    | split

theorem opRailConfig_inv (c : Cmd) (s : State) (hs : s.Inv) :
    (opRailConfig c s).2.Inv := by
  unfold opRailConfig
  repeat' first
    | with_reducible assumption
    | ((try lift_lets); intro x; clear_value x)
    | intro _
    | with_reducible first | apply State.configRail_inv
    | split

theorem execRailConfig_inv (s : State) (hs : s.Inv) :
    OutInv (execRailConfig s) := by
  unfold execRailConfig
  repeat' first
    | with_reducible assumption
    | (intro t ht; have hg : State.Inv t := ht; clear hg)
    | (intro y t ht; have hg : State.Inv t := ht; clear hg)
    | intro _
    | with_reducible first | apply State.when_inv | apply State.runCmd_inv | apply opRailConfig_inv
        | apply outInv_next

theorem opRailOn_inv (c : Cmd) (s : State) (hs : s.Inv) :
    (opRailOn c s).2.Inv := by
  unfold opRailOn
  repeat' first
    | with_reducible assumption
    | ((try lift_lets); intro x; clear_value x)
    | with_reducible first | apply State.requestOn_inv
    | split

theorem execRailOn_inv (s : State) (hs : s.Inv) :
    OutInv (execRailOn s) := by
  unfold execRailOn
  repeat' first
    | with_reducible assumption
    | (intro t ht; have hg : State.Inv t := ht; clear hg)
    | (intro y t ht; have hg : State.Inv t := ht; clear hg)
    | intro _
    | with_reducible first | apply State.when_inv | apply State.runCmd_inv | apply opRailOn_inv | apply outInv_next

theorem opRailOff_inv (c : Cmd) (s : State) (hs : s.Inv) :
    (opRailOff c s).2.Inv := by
  unfold opRailOff
  repeat' first
    | with_reducible assumption
    | intro _
    | fail_if_no_progress (with_reducible apply inv_upd)
    | with_reducible exact inv_regReset _ _
    | with_reducible apply hfn
    | with_reducible apply State.requestOff_inv
    | with_reducible apply outInv_next
    | with_reducible apply inv_foldl
    | with_reducible apply inv_foldlFst
    | with_reducible apply inv_foldlSnd
    | split

theorem execRailOffCmd_inv (s : State) (hs : s.Inv) :
    OutInv (execRailOffCmd s) := by
  unfold execRailOffCmd
  repeat' first
    | with_reducible assumption
    | (intro t ht; have hg : State.Inv t := ht; clear hg)
    | (intro y t ht; have hg : State.Inv t := ht; clear hg)
    | intro _
    | with_reducible first | apply State.when_inv | apply State.runCmd_inv | apply opRailOff_inv | apply outInv_next

theorem opPlatformOn_inv (c : Cmd) (s : State) (hs : s.Inv) :
    (opPlatformOn c s).2.Inv := by
  unfold opPlatformOn
  repeat' first
    | with_reducible assumption
    | with_reducible first | apply State.platformOn_inv
    | split

theorem execSeqPlatformOn_inv (s : State) (hs : s.Inv) :
    OutInv (execSeqPlatformOn s) := by
  unfold execSeqPlatformOn
  repeat' first
    | with_reducible assumption
    | (intro t ht; have hg : State.Inv t := ht; clear hg)
    | (intro y t ht; have hg : State.Inv t := ht; clear hg)
    | intro _
    | with_reducible first | apply State.when_inv | apply State.runCmd_inv | apply opPlatformOn_inv
        | apply outInv_next

theorem opPlatformOff_inv (c : Cmd) (s : State) (hs : s.Inv) :
    (opPlatformOff c s).2.Inv := by
  unfold opPlatformOff
  repeat' first
    | with_reducible assumption
    | intro _
    | fail_if_no_progress (with_reducible apply inv_upd)
    | with_reducible exact inv_regReset _ _
    | with_reducible apply hfn
    | with_reducible apply State.requestOff_inv
    | with_reducible apply outInv_next
    | with_reducible apply inv_foldl
    | with_reducible apply inv_foldlFst
    | with_reducible apply inv_foldlSnd
    | split

theorem execSeqPlatformOff_inv (s : State) (hs : s.Inv) :
    OutInv (execSeqPlatformOff s) := by
  unfold execSeqPlatformOff
  repeat' first
    | with_reducible assumption
    | (intro t ht; have hg : State.Inv t := ht; clear hg)
    | (intro y t ht; have hg : State.Inv t := ht; clear hg)
    | intro _
    | with_reducible first | apply State.when_inv | apply State.runCmd_inv | apply opPlatformOff_inv
        | apply outInv_next

end Sys2Proof.Machine
end

