-- ==== Sys2Proof/Laws/InvCapture.lean ====
section
/-! SUPPORT. Every operation of Machine/Capture.lean keeps the canonical form of the register space. -/

set_option Elab.async false

namespace Sys2Proof.Machine

theorem State.modStream_inv (s : State) (c : Fin 8) (f : CapStream → CapStream) (hs : s.Inv) :
    (State.modStream s c f).Inv := by
  unfold State.modStream
  repeat' first
    | with_reducible assumption
    | ((try lift_lets); intro x; clear_value x)
    | fail_if_no_progress (with_reducible apply inv_upd)

theorem State.setTail_inv (s : State) (c : Fin 8) (v : Nat) (hs : s.Inv) :
    (State.setTail s c v).Inv := by
  unfold State.setTail
  repeat' first
    | with_reducible assumption
    | with_reducible first | apply State.set_inv

theorem State.setHead_inv (s : State) (c : Fin 8) (v : Nat) (hs : s.Inv) :
    (State.setHead s c v).Inv := by
  unfold State.setHead
  repeat' first
    | with_reducible assumption
    | with_reducible first | apply State.set_inv

theorem State.capRefresh_inv (s : State) (hs : s.Inv) :
    (State.capRefresh s).Inv := by
  unfold State.capRefresh
  repeat' first
    | with_reducible assumption
    | ((try lift_lets); intro x; clear_value x)
    | intro _
    | with_reducible first | apply State.set_inv | apply State.setSat_inv

theorem State.raiseCap_inv (s : State) (ring : Nat) (kind : Nat) (frame : Nat) (gap : Nat) (hs : s.Inv) :
    (State.raiseCap s ring kind frame gap).Inv := by
  unfold State.raiseCap
  repeat' first
    | with_reducible assumption
    | ((try lift_lets); intro x; clear_value x)
    | with_reducible first | apply State.raise_inv

theorem State.writeStatus_inv (s : State) (hs : s.Inv) :
    (State.writeStatus s).Inv := by
  unfold State.writeStatus
  repeat' first
    | with_reducible assumption
    | ((try lift_lets); intro x; refine (show State.Inv x → _ from ?_) ?_; (on_goal 2 => subst x); (on_goal 1 => (intro hx; clear_value x)))
    | ((try lift_lets); intro x; clear_value x)
    | fail_if_no_progress (with_reducible apply inv_upd)
    | with_reducible first | apply State.emit_inv
    | split

theorem State.endRing_inv (s : State) (c : Fin 8) (code : Nat) (kind : Nat) (hs : s.Inv) :
    (State.endRing s c code kind).Inv := by
  unfold State.endRing
  repeat' first
    | with_reducible assumption
    | with_reducible first | apply State.set_inv | apply State.setBit_inv | apply State.modStream_inv
        | apply State.capRefresh_inv | apply State.raiseCap_inv

theorem State.finishStops_inv (s : State) (hs : s.Inv) :
    (State.finishStops s).Inv := by
  unfold State.finishStops
  repeat' first
    | with_reducible assumption
    | (intro t y ht; have hg : State.Inv t := ht; clear hg)
    | ((try lift_lets); intro x; refine (show State.Inv x → _ from ?_) ?_; (on_goal 2 => subst x); (on_goal 1 => (intro hx; clear_value x)))
    | ((try lift_lets); intro x; clear_value x)
    | intro _
    | fail_if_no_progress (with_reducible apply inv_upd)
    | with_reducible first | apply State.complete_inv | apply inv_foldl

theorem State.writeBlock_inv (s : State) (c : Fin 8) (b : CapBlock) (hs : s.Inv) :
    (State.writeBlock s c b).Inv := by
  unfold State.writeBlock
  repeat' first
    | with_reducible assumption
    | ((try lift_lets); intro x; refine (show State.Inv x → _ from ?_) ?_; (on_goal 2 => subst x); (on_goal 1 => (intro hx; clear_value x)))
    | ((try lift_lets); intro x; clear_value x)
    | intro _
    | fail_if_no_progress (with_reducible apply inv_upd)
    | with_reducible first | apply State.emit_inv | apply State.setTail_inv | apply State.modStream_inv

theorem State.drainRing_inv (s : State) (c : Fin 8) (fresh : Bool) (n : Nat) (hs : s.Inv) : (s.drainRing c fresh n).Inv := by
  induction n generalizing s fresh with
  | zero => exact hs
  | succ n ih =>
    unfold State.drainRing
    repeat' first
      | with_reducible assumption
      | intro _
      | fail_if_no_progress (with_reducible apply inv_upd)
      | with_reducible exact inv_regReset _ _
      | with_reducible apply hfn
      | with_reducible apply ih
      | with_reducible apply State.emit_inv
      | with_reducible apply State.modStream_inv
      | with_reducible apply State.writeBlock_inv
      | with_reducible apply outInv_next
      | with_reducible apply inv_foldl
      | with_reducible apply inv_foldlFst
      | with_reducible apply inv_foldlSnd
      | split

theorem State.drain_inv (s : State) (fresh : Bool) (c : Fin 8) (hs : s.Inv) :
    (State.drain s fresh c).Inv := by
  unfold State.drain
  repeat' first
    | with_reducible assumption
    | with_reducible first | apply State.drainRing_inv

theorem State.fireRing_inv (s : State) (c : Fin 8) (hs : s.Inv) :
    (State.fireRing s c).Inv := by
  unfold State.fireRing
  repeat' first
    | with_reducible assumption
    | intro _
    | fail_if_no_progress (with_reducible apply inv_upd)
    | with_reducible first | apply State.fire_inv | apply State.modStream_inv
    | split

theorem State.overRing_inv (s : State) (c : Fin 8) (hs : s.Inv) :
    (State.overRing s c).Inv := by
  unfold State.overRing
  repeat' first
    | with_reducible assumption
    | fail_if_no_progress (with_reducible apply inv_upd)
    | with_reducible first | apply State.endRing_inv
    | split

theorem State.publish_inv (s : State) (hs : s.Inv) :
    (State.publish s).Inv := by
  unfold State.publish
  repeat' first
    | with_reducible assumption
    | (intro t y ht; have hg : State.Inv t := ht; clear hg)
    | intro _
    | fail_if_no_progress (with_reducible apply inv_upd)
    | with_reducible exact inv_regReset _ _
    | with_reducible apply hfn
    | with_reducible apply State.fireRing_inv
    | with_reducible apply State.overRing_inv
    | with_reducible apply State.writeStatus_inv
    | with_reducible apply State.capRefresh_inv
    | with_reducible apply State.finishStops_inv
    | with_reducible apply outInv_next
    | with_reducible apply inv_foldl

theorem State.writeOut_inv (s : State) (hs : s.Inv) :
    (State.writeOut s).Inv := by
  unfold State.writeOut
  repeat' first
    | with_reducible assumption
    | (intro t y ht; have hg : State.Inv t := ht; clear hg)
    | intro _
    | with_reducible first | apply State.drain_inv | apply State.publish_inv | apply inv_foldl | apply inv_foldlFst
        | apply inv_foldlSnd
    | split

theorem State.takeHead_inv (s : State) (c : Fin 8) (v : Nat) (hs : s.Inv) :
    (State.takeHead s c v).Inv := by
  unfold State.takeHead
  repeat' first
    | with_reducible assumption
    | ((try lift_lets); intro x; refine (show State.Inv x → _ from ?_) ?_; (on_goal 2 => subst x); (on_goal 1 => (intro hx; clear_value x)))
    | ((try lift_lets); intro x; clear_value x)
    | intro _
    | fail_if_no_progress (with_reducible apply inv_upd)
    | with_reducible first | apply State.setHead_inv | apply State.endRing_inv | apply State.modStream_inv
        | apply State.fire_inv | apply State.finishStops_inv | apply State.set_inv
    | split

theorem State.fastSamples_inv (s : State) (ch : Nat) (cs : List Int) (hs : s.Inv) :
    (State.fastSamples s ch cs).Inv := by
  unfold State.fastSamples
  repeat' first
    | with_reducible assumption
    | ((try lift_lets); intro x; refine (show State.Inv x → _ from ?_) ?_; (on_goal 2 => subst x); (on_goal 1 => (intro hx; clear_value x)))
    | ((try lift_lets); intro x; clear_value x)
    | fail_if_no_progress (with_reducible apply inv_upd)
    | with_reducible first | apply State.set_inv | apply State.setBit_inv | apply inv_foldl | apply inv_foldlFst
        | apply inv_foldlSnd
    | split

theorem State.slowSample_inv (s : State) (ch : Fin 32) (v : Int) (ts : Nat) (hs : s.Inv) :
    (State.slowSample s ch v ts).Inv := by
  unfold State.slowSample
  repeat' first
    | with_reducible assumption
    | ((try lift_lets); intro x; refine (show State.Inv x → _ from ?_) ?_; (on_goal 2 => subst x); (on_goal 1 => (intro hx; clear_value x)))
    | ((try lift_lets); intro x; clear_value x)
    | fail_if_no_progress (with_reducible apply inv_upd)
    | with_reducible first | apply State.set_inv

theorem State.takeSamples_inv (s : State) (st : CapStream) (run : FrameRun) (hs : s.Inv) :
    (State.takeSamples s st run).Inv := by
  unfold State.takeSamples
  repeat' first
    | with_reducible assumption
    | (intro t y ht; have hg : State.Inv t := ht; clear hg)
    | ((try lift_lets); intro x; clear_value x)
    | intro _
    | fail_if_no_progress (with_reducible apply inv_upd)
    | with_reducible first | apply State.slowSample_inv | apply State.fastSamples_inv | apply inv_foldl
        | apply inv_foldlFst | apply inv_foldlSnd
    | split

theorem State.setLevel_inv (s : State) (l : Nat) (hs : s.Inv) :
    (State.setLevel s l).Inv := by
  unfold State.setLevel
  repeat' first
    | with_reducible assumption
    | ((try lift_lets); intro x; clear_value x)
    | with_reducible first | apply State.set_inv | apply State.raiseCap_inv
    | split

theorem State.capGap_inv (s : State) (c : Fin 8) (frame : Nat) (lost : Nat) (hs : s.Inv) :
    (State.capGap s c frame lost).Inv := by
  unfold State.capGap
  repeat' first
    | with_reducible assumption
    | with_reducible first | apply State.setBit_inv | apply State.raiseCap_inv | apply State.set_inv
    | split

theorem State.boundary_inv (s : State) (c : Fin 8) (forming : Nat) (hs : s.Inv) :
    (State.boundary s c forming).Inv := by
  unfold State.boundary
  repeat' first
    | with_reducible assumption
    | ((try lift_lets); intro x; refine (show State.Inv x → _ from ?_) ?_; (on_goal 2 => subst x); (on_goal 1 => (intro hx; clear_value x)))
    | ((try lift_lets); intro x; clear_value x)
    | intro _
    | fail_if_no_progress (with_reducible apply inv_upd)
    | with_reducible first | apply State.setLevel_inv | apply State.modStream_inv | apply State.capRefresh_inv

theorem State.closeBlock_inv (s : State) (c : Fin 8) (run : FrameRun) (lost : Nat) (forming : Nat) (stop : Bool) (hs : s.Inv) :
    (State.closeBlock s c run lost forming stop).Inv := by
  unfold State.closeBlock
  repeat' first
    | with_reducible assumption
    | ((try lift_lets); intro x; refine (show State.Inv x → _ from ?_) ?_; (on_goal 2 => subst x); (on_goal 1 => (intro hx; clear_value x)))
    | ((try lift_lets); intro x; clear_value x)
    | intro _
    | with_reducible first | apply State.takeSamples_inv | apply State.modStream_inv | apply State.capGap_inv
        | apply State.boundary_inv

theorem State.trigStream_inv (s : State) (c : Fin 8) (src : Nat) (idx : Nat) (frame : Nat) (hs : s.Inv) :
    (State.trigStream s c src idx frame).Inv := by
  unfold State.trigStream
  repeat' first
    | with_reducible assumption
    | ((try lift_lets); intro x; refine (show State.Inv x → _ from ?_) ?_; (on_goal 2 => subst x); (on_goal 1 => (intro hx; clear_value x)))
    | intro _
    | fail_if_no_progress (with_reducible apply inv_upd)
    | with_reducible first | apply State.modStream_inv | apply State.set_inv | apply State.setBit_inv
        | apply State.capRefresh_inv | apply State.raiseCap_inv

theorem State.trigAll_inv (s : State) (src : Nat) (idx : Nat) (frame : Nat) (hs : s.Inv) :
    (State.trigAll s src idx frame).Inv := by
  unfold State.trigAll
  repeat' first
    | with_reducible assumption
    | (intro t y ht; have hg : State.Inv t := ht; clear hg)
    | intro _
    | with_reducible first | apply State.trigStream_inv | apply inv_foldl | apply inv_foldlFst | apply inv_foldlSnd
    | split

theorem State.configStream_inv (s : State) (r : Fin 8) (c : Cmd) (hs : s.Inv) :
    (State.configStream s r c).Inv := by
  unfold State.configStream
  repeat' first
    | with_reducible assumption
    | ((try lift_lets); intro x; refine (show State.Inv x → _ from ?_) ?_; (on_goal 2 => subst x); (on_goal 1 => (intro hx; clear_value x)))
    | intro _
    | with_reducible first | apply State.modStream_inv | apply State.set_inv | apply State.capRefresh_inv

theorem opCaptureConfig_inv (c : Cmd) (s : State) (hs : s.Inv) :
    (opCaptureConfig c s).2.Inv := by
  unfold opCaptureConfig
  repeat' first
    | with_reducible assumption
    | ((try lift_lets); intro x; clear_value x)
    | fail_if_no_progress (with_reducible apply inv_upd)
    | with_reducible first | apply State.configStream_inv
    | split

theorem execCaptureConfig_inv (s : State) (hs : s.Inv) :
    OutInv (execCaptureConfig s) := by
  unfold execCaptureConfig
  repeat' first
    | with_reducible assumption
    | (intro t ht; have hg : State.Inv t := ht; clear hg)
    | (intro y t ht; have hg : State.Inv t := ht; clear hg)
    | intro _
    | with_reducible first | apply State.when_inv | apply State.runCmd_inv | apply opCaptureConfig_inv
        | apply outInv_next

theorem State.armRing_inv (s : State) (c : Fin 8) (hs : s.Inv) :
    (State.armRing s c).Inv := by
  unfold State.armRing
  repeat' first
    | with_reducible assumption
    | ((try lift_lets); intro x; refine (show State.Inv x → _ from ?_) ?_; (on_goal 2 => subst x); (on_goal 1 => (intro hx; clear_value x)))
    | intro _
    | fail_if_no_progress (with_reducible apply inv_upd)
    | with_reducible first | apply State.modStream_inv | apply State.fire_inv | apply State.set_inv
        | apply State.capRefresh_inv | apply State.raiseCap_inv

theorem State.armTrigger_inv (s : State) (force : Bool) (frame : Nat) (c : Fin 8) (hs : s.Inv) :
    (State.armTrigger s force frame c).Inv := by
  unfold State.armTrigger
  repeat' first
    | with_reducible assumption
    | ((try lift_lets); intro x; clear_value x)
    | with_reducible first | apply State.trigStream_inv
    | split

theorem opCaptureArm_inv (frame : Nat) (c : Cmd) (s : State) (hs : s.Inv) :
    (opCaptureArm frame c s).2.Inv := by
  unfold opCaptureArm
  repeat' first
    | with_reducible assumption
    | (intro t y ht; have hg : State.Inv t := ht; clear hg)
    | ((try lift_lets); intro x; refine (show State.Inv x → _ from ?_) ?_; (on_goal 2 => subst x); (on_goal 1 => (intro hx; clear_value x)))
    | ((try lift_lets); intro x; clear_value x)
    | intro _
    | with_reducible first | apply State.armRing_inv | apply State.armTrigger_inv | apply inv_foldl
        | apply inv_foldlFst | apply inv_foldlSnd
    | split

theorem execCaptureArm_inv (frame : Nat) (s : State) (hs : s.Inv) :
    OutInv (execCaptureArm frame s) := by
  unfold execCaptureArm
  repeat' first
    | with_reducible assumption
    | (intro t ht; have hg : State.Inv t := ht; clear hg)
    | (intro y t ht; have hg : State.Inv t := ht; clear hg)
    | intro _
    | with_reducible first | apply State.when_inv | apply State.runCmd_inv | apply opCaptureArm_inv
        | apply outInv_next

theorem State.stopRing_inv (s : State) (kind : Nat) (cur : List FrameRun) (c : Fin 8) (hs : s.Inv) :
    (State.stopRing s kind cur c).Inv := by
  unfold State.stopRing
  repeat' first
    | with_reducible assumption
    | intro _
    | fail_if_no_progress (with_reducible apply inv_upd)
    | with_reducible first | apply State.endRing_inv | apply State.closeBlock_inv | apply State.modStream_inv
    | split

theorem State.stopRings_inv (s : State) (kind : Nat) (mask : Nat) (cur : List FrameRun) (hs : s.Inv) :
    (State.stopRings s kind mask cur).Inv := by
  unfold State.stopRings
  repeat' first
    | with_reducible assumption
    | (intro t y ht; have hg : State.Inv t := ht; clear hg)
    | intro _
    | with_reducible first | apply State.stopRing_inv | apply inv_foldl

theorem opCaptureStop_inv (cur : List FrameRun) (c : Cmd) (s : State) (hs : s.Inv) :
    (opCaptureStop cur c s).2.Inv := by
  unfold opCaptureStop
  repeat' first
    | with_reducible assumption
    | ((try lift_lets); intro x; refine (show State.Inv x → _ from ?_) ?_; (on_goal 2 => subst x); (on_goal 1 => (intro hx; clear_value x)))
    | ((try lift_lets); intro x; clear_value x)
    | intro _
    | fail_if_no_progress (with_reducible apply inv_upd)
    | with_reducible first | apply State.stopRings_inv
    | split

theorem execCaptureStop_inv (cur : List FrameRun) (s : State) (hs : s.Inv) :
    OutInv (execCaptureStop cur s) := by
  unfold execCaptureStop
  repeat' first
    | with_reducible assumption
    | (intro t ht; have hg : State.Inv t := ht; clear hg)
    | (intro y t ht; have hg : State.Inv t := ht; clear hg)
    | intro _
    | with_reducible first | apply State.when_inv | apply State.runCmd_inv | apply opCaptureStop_inv
        | apply outInv_next

theorem State.attachRing_inv (s : State) (r : Fin 8) (c : Cmd) (hs : s.Inv) :
    (State.attachRing s r c).Inv := by
  unfold State.attachRing
  repeat' first
    | with_reducible assumption
    | ((try lift_lets); intro x; refine (show State.Inv x → _ from ?_) ?_; (on_goal 2 => subst x); (on_goal 1 => (intro hx; clear_value x)))
    | intro _
    | fail_if_no_progress (with_reducible apply inv_upd)
    | with_reducible first | apply State.set_inv | apply State.setTail_inv | apply State.setHead_inv
        | apply State.modStream_inv

theorem State.detachRing_inv (s : State) (r : Fin 8) (hs : s.Inv) :
    (State.detachRing s r).Inv := by
  unfold State.detachRing
  repeat' first
    | with_reducible assumption
    | ((try lift_lets); intro x; refine (show State.Inv x → _ from ?_) ?_; (on_goal 2 => subst x); (on_goal 1 => (intro hx; clear_value x)))
    | with_reducible first | apply State.set_inv

theorem opRingAttach_inv (c : Cmd) (s : State) (hs : s.Inv) :
    (opRingAttach c s).2.Inv := by
  unfold opRingAttach
  repeat' first
    | with_reducible assumption
    | ((try lift_lets); intro x; clear_value x)
    | with_reducible first | apply State.attachRing_inv
    | split

theorem opRingDetach_inv (c : Cmd) (s : State) (hs : s.Inv) :
    (opRingDetach c s).2.Inv := by
  unfold opRingDetach
  repeat' first
    | with_reducible assumption
    | ((try lift_lets); intro x; clear_value x)
    | with_reducible first | apply State.detachRing_inv
    | split

theorem execCaptureRingAttach_inv (s : State) (hs : s.Inv) :
    OutInv (execCaptureRingAttach s) := by
  unfold execCaptureRingAttach
  repeat' first
    | with_reducible assumption
    | (intro t ht; have hg : State.Inv t := ht; clear hg)
    | (intro y t ht; have hg : State.Inv t := ht; clear hg)
    | intro _
    | with_reducible first | apply State.when_inv | apply State.runCmd_inv | apply opRingAttach_inv
        | apply outInv_next

theorem execCaptureRingDetach_inv (s : State) (hs : s.Inv) :
    OutInv (execCaptureRingDetach s) := by
  unfold execCaptureRingDetach
  repeat' first
    | with_reducible assumption
    | (intro t ht; have hg : State.Inv t := ht; clear hg)
    | (intro y t ht; have hg : State.Inv t := ht; clear hg)
    | intro _
    | with_reducible first | apply State.when_inv | apply State.runCmd_inv | apply opRingDetach_inv
        | apply outInv_next

theorem execThresholdFire_inv (n : Fin 4) (before : Int) (after : Int) (frame : Nat) (s : State) (hs : s.Inv) :
    OutInv (execThresholdFire n before after frame s) := by
  unfold execThresholdFire
  repeat' first
    | with_reducible assumption
    | (intro t ht; have hg : State.Inv t := ht; clear hg)
    | intro _
    | with_reducible first | apply State.when_inv | apply State.trigAll_inv | apply outInv_next

theorem execCaptureTrigger_inv (c : Fin 8) (src : Nat) (idx : Nat) (frame : Nat) (s : State) (hs : s.Inv) :
    OutInv (execCaptureTrigger c src idx frame s) := by
  unfold execCaptureTrigger
  repeat' first
    | with_reducible assumption
    | (intro t ht; have hg : State.Inv t := ht; clear hg)
    | intro _
    | with_reducible first | apply State.when_inv | apply State.trigStream_inv | apply outInv_next

theorem execCaptureBlockClose_inv (c : Fin 8) (run : FrameRun) (lost : Nat) (forming : Nat) (s : State) (hs : s.Inv) :
    OutInv (execCaptureBlockClose c run lost forming s) := by
  unfold execCaptureBlockClose
  repeat' first
    | with_reducible assumption
    | (intro t ht; have hg : State.Inv t := ht; clear hg)
    | intro _
    | with_reducible first | apply State.when_inv | apply State.closeBlock_inv | apply outInv_next

theorem State.capEcc_inv (s : State) (corr : Nat) (bad : Nat) (hs : s.Inv) :
    (State.capEcc s corr bad).Inv := by
  unfold State.capEcc
  repeat' first
    | with_reducible assumption
    | (intro t y ht; have hg : State.Inv t := ht; clear hg)
    | ((try lift_lets); intro x; refine (show State.Inv x → _ from ?_) ?_; (on_goal 2 => subst x); (on_goal 1 => (intro hx; clear_value x)))
    | intro _
    | fail_if_no_progress (with_reducible apply inv_upd)
    | with_reducible first | apply State.setSat_inv | apply State.modStream_inv | apply State.bump_inv
        | apply State.setBit_inv | apply State.raiseCap_inv | apply State.set_inv | apply inv_foldl
        | apply inv_foldlFst | apply inv_foldlSnd
    | split

theorem execWriteOutStart_inv (corr : Nat) (bad : Nat) (s : State) (hs : s.Inv) :
    OutInv (execWriteOutStart corr bad s) := by
  unfold execWriteOutStart
  repeat' first
    | with_reducible assumption
    | (intro t ht; have hg : State.Inv t := ht; clear hg)
    | intro _
    | with_reducible first | apply State.when_inv | apply State.capEcc_inv | apply State.writeOut_inv
        | apply outInv_next

theorem execPressureRestore_inv (forming : Nat) (s : State) (hs : s.Inv) :
    OutInv (execPressureRestore forming s) := by
  unfold execPressureRestore
  repeat' first
    | with_reducible assumption
    | (intro t ht; have hg : State.Inv t := ht; clear hg)
    | ((try lift_lets); intro x; clear_value x)
    | intro _
    | fail_if_no_progress (with_reducible apply inv_upd)
    | with_reducible first | apply State.when_inv | apply State.setLevel_inv | apply State.capRefresh_inv
        | apply State.set_inv | apply outInv_next

theorem execSlowRateApply_inv (s : State) (hs : s.Inv) :
    OutInv (execSlowRateApply s) := by
  unfold execSlowRateApply
  repeat' first
    | with_reducible assumption
    | (intro t ht; have hg : State.Inv t := ht; clear hg)
    | ((try lift_lets); intro x; clear_value x)
    | intro _
    | fail_if_no_progress (with_reducible apply inv_upd)
    | with_reducible first | apply State.when_inv | apply outInv_next

theorem execOneshotDone_inv (mean : Int) (s : State) (hs : s.Inv) :
    OutInv (execOneshotDone mean s) := by
  unfold execOneshotDone
  repeat' first
    | with_reducible assumption
    | (intro t ht; have hg : State.Inv t := ht; clear hg)
    | intro _
    | with_reducible first | apply State.when_inv | apply State.set_inv | apply outInv_next

theorem State.capReset_inv (s : State) (hs : s.Inv) :
    (State.capReset s).Inv := by
  unfold State.capReset
  repeat' first
    | with_reducible assumption
    | (intro t y ht; have hg : State.Inv t := ht; clear hg)
    | ((try lift_lets); intro x; refine (show State.Inv x → _ from ?_) ?_; (on_goal 2 => subst x); (on_goal 1 => (intro hx; clear_value x)))
    | ((try lift_lets); intro x; clear_value x)
    | intro _
    | fail_if_no_progress (with_reducible apply inv_upd)
    | with_reducible first | apply State.complete_inv | apply inv_foldl

end Sys2Proof.Machine
end

