-- ==== Sys2Proof/Laws/InvHost.lean ====
section
/-! SUPPORT. Every operation of Machine/Host.lean keeps the canonical form of the register space. -/

set_option Elab.async false

namespace Sys2Proof.Machine

theorem State.requestFetch_inv (s : State) (hs : s.Inv) :
    (State.requestFetch s).Inv := by
  unfold State.requestFetch
  repeat' first
    | with_reducible assumption
    | with_reducible first | apply State.set_inv | apply State.emit_inv
    | split

theorem State.nextFetch_inv (s : State) (hs : s.Inv) :
    (State.nextFetch s).Inv := by
  unfold State.nextFetch
  repeat' first
    | with_reducible assumption
    | with_reducible first | apply State.set_inv | apply State.requestFetch_inv
    | split

theorem State.sqFail_inv (s : State) (q : Nat) (cause : Nat) (value : Nat) (hs : s.Inv) :
    (State.sqFail s q cause value).Inv := by
  unfold State.sqFail
  repeat' first
    | with_reducible assumption
    | with_reducible first | apply State.set_inv | apply State.ringError_inv
    | split

theorem State.takeTail_inv (s : State) (q : Nat) (v : Nat) (hs : s.Inv) :
    (State.takeTail s q v).Inv := by
  unfold State.takeTail
  repeat' first
    | with_reducible assumption
    | ((try lift_lets); intro x; refine (show State.Inv x → _ from ?_) ?_; (on_goal 2 => subst x); (on_goal 1 => (intro hx; clear_value x)))
    | with_reducible first | apply State.set_inv | apply State.sqFail_inv
    | split

theorem State.cqFail_inv (s : State) (c : Fin 8) (cause : Nat) (value : Nat) (hs : s.Inv) :
    (State.cqFail s c cause value).Inv := by
  unfold State.cqFail
  repeat' first
    | with_reducible assumption
    | (intro t y ht; have hg : State.Inv t := ht; clear hg)
    | ((try lift_lets); intro x; refine (show State.Inv x → _ from ?_) ?_; (on_goal 2 => subst x); (on_goal 1 => (intro hx; clear_value x)))
    | ((try lift_lets); intro x; clear_value x)
    | intro _
    | fail_if_no_progress (with_reducible apply inv_upd)
    | with_reducible first | apply State.ringError_inv | apply State.set_inv | apply State.setBit_inv
        | apply inv_foldl | apply inv_foldlFst | apply inv_foldlSnd
    | split

theorem State.takeCqHead_inv (s : State) (c : Fin 8) (v : Nat) (hs : s.Inv) :
    (State.takeCqHead s c v).Inv := by
  unfold State.takeCqHead
  repeat' first
    | with_reducible assumption
    | ((try lift_lets); intro x; refine (show State.Inv x → _ from ?_) ?_; (on_goal 2 => subst x); (on_goal 1 => (intro hx; clear_value x)))
    | ((try lift_lets); intro x; clear_value x)
    | with_reducible first | apply State.set_inv | apply State.cqFail_inv
    | split

theorem State.evqFail_inv (s : State) (cause : Nat) (value : Nat) (hs : s.Inv) :
    (State.evqFail s cause value).Inv := by
  unfold State.evqFail
  repeat' first
    | with_reducible assumption
    | ((try lift_lets); intro x; refine (show State.Inv x → _ from ?_) ?_; (on_goal 2 => subst x); (on_goal 1 => (intro hx; clear_value x)))
    | ((try lift_lets); intro x; clear_value x)
    | fail_if_no_progress (with_reducible apply inv_upd)
    | with_reducible first | apply State.setSat_inv | apply State.setb_inv | apply State.ringError_inv

theorem State.takeEvHead_inv (s : State) (v : Nat) (hs : s.Inv) :
    (State.takeEvHead s v).Inv := by
  unfold State.takeEvHead
  repeat' first
    | with_reducible assumption
    | ((try lift_lets); intro x; refine (show State.Inv x → _ from ?_) ?_; (on_goal 2 => subst x); (on_goal 1 => (intro hx; clear_value x)))
    | ((try lift_lets); intro x; clear_value x)
    | fail_if_no_progress (with_reducible apply inv_upd)
    | with_reducible first | apply State.evqFail_inv
    | split

theorem State.applyDoorbell_inv (s : State) (page : List Byte) (hs : s.Inv) :
    (State.applyDoorbell s page).Inv := by
  unfold State.applyDoorbell
  repeat' first
    | with_reducible assumption
    | (intro t y ht; have hg : State.Inv t := ht; clear hg)
    | ((try lift_lets); intro x; refine (show State.Inv x → _ from ?_) ?_; (on_goal 2 => subst x); (on_goal 1 => (intro hx; clear_value x)))
    | intro _
    | with_reducible first | apply State.takeTail_inv | apply State.takeCqHead_inv | apply State.takeEvHead_inv
        | apply State.flushEvents_inv | apply State.takeHead_inv | apply inv_foldl

theorem State.dbFail_inv (s : State) (cause : Nat) (hs : s.Inv) :
    (State.dbFail s cause).Inv := by
  unfold State.dbFail
  repeat' first
    | with_reducible assumption
    | with_reducible first | apply State.ringError_inv

theorem execDoorbellPoll_inv (s : State) (hs : s.Inv) :
    OutInv (execDoorbellPoll s) := by
  unfold execDoorbellPoll
  repeat' first
    | with_reducible assumption
    | (intro t ht; have hg : State.Inv t := ht; clear hg)
    | with_reducible first | apply State.when_inv | apply State.requestFetch_inv | apply outInv_next

theorem execDoorbellFetchDone_inv (err : Nat) (page : List Byte) (s : State) (hs : s.Inv) :
    OutInv (execDoorbellFetchDone err page s) := by
  unfold execDoorbellFetchDone
  repeat' first
    | with_reducible assumption
    | (intro t ht; have hg : State.Inv t := ht; clear hg)
    | ((try lift_lets); intro x; refine (show State.Inv x → _ from ?_) ?_; (on_goal 2 => subst x); (on_goal 1 => (intro hx; clear_value x)))
    | intro _
    | with_reducible first | apply State.when_inv | apply State.set_inv | apply State.applyDoorbell_inv
        | apply State.dbFail_inv | apply State.nextFetch_inv | apply State.fetchTurns_inv | apply outInv_next
    | split

theorem execFullHeadFetch_inv (c : Fin 8) (err : Nat) (page : List Byte) (s : State) (hs : s.Inv) :
    OutInv (execFullHeadFetch c err page s) := by
  unfold execFullHeadFetch
  repeat' first
    | with_reducible assumption
    | (intro t ht; have hg : State.Inv t := ht; clear hg)
    | ((try lift_lets); intro x; refine (show State.Inv x → _ from ?_) ?_; (on_goal 2 => subst x); (on_goal 1 => (intro hx; clear_value x)))
    | intro _
    | fail_if_no_progress (with_reducible apply inv_upd)
    | with_reducible exact inv_regReset _ _
    | with_reducible apply hfn
    | with_reducible apply State.when_inv
    | with_reducible apply State.modStream_inv
    | with_reducible apply State.dbFail_inv
    | with_reducible apply State.applyDoorbell_inv
    | with_reducible apply State.drain_inv
    | with_reducible apply State.publish_inv
    | with_reducible apply State.fetchTurns_inv
    | with_reducible apply outInv_next
    | with_reducible apply inv_foldl
    | with_reducible apply inv_foldlFst
    | with_reducible apply inv_foldlSnd
    | split

theorem State.takeEntry_inv (s : State) (src : CmdSrc) (e : List Byte) (hs : s.Inv) :
    (State.takeEntry s src e).Inv := by
  unfold State.takeEntry
  repeat' first
    | with_reducible assumption
    | ((try lift_lets); intro x; clear_value x)
    | fail_if_no_progress (with_reducible apply inv_upd)

theorem State.takeEntries_inv (s : State) (src : CmdSrc) (data : List Byte) (n : Nat) (hs : s.Inv) :
    (State.takeEntries s src data n).Inv := by
  unfold State.takeEntries
  repeat' first
    | with_reducible assumption
    | (intro t y ht; have hg : State.Inv t := ht; clear hg)
    | intro _
    | with_reducible first | apply State.takeEntry_inv | apply inv_foldl

theorem State.fetchFail_inv (s : State) (f : EntryFetch) (err : Nat) (hs : s.Inv) :
    (State.fetchFail s f err).Inv := by
  unfold State.fetchFail
  repeat' first
    | with_reducible assumption
    | ((try lift_lets); intro x; refine (show State.Inv x → _ from ?_) ?_; (on_goal 2 => subst x); (on_goal 1 => (intro hx; clear_value x)))
    | ((try lift_lets); intro x; clear_value x)
    | with_reducible first | apply State.set_inv | apply State.sqFail_inv

theorem State.fetchGood_inv (s : State) (f : EntryFetch) (data : List Byte) (hs : s.Inv) :
    (State.fetchGood s f data).Inv := by
  unfold State.fetchGood
  repeat' first
    | with_reducible assumption
    | ((try lift_lets); intro x; refine (show State.Inv x → _ from ?_) ?_; (on_goal 2 => subst x); (on_goal 1 => (intro hx; clear_value x)))
    | ((try lift_lets); intro x; clear_value x)
    | with_reducible first | apply State.set_inv | apply State.writeStatus_inv | apply State.takeEntries_inv
        | apply State.settle_inv | apply State.fetchTurns_inv

theorem execEntryFetchDone_inv (q : Fin 8) (err : Nat) (data : List Byte) (s : State) (hs : s.Inv) :
    OutInv (execEntryFetchDone q err data s) := by
  unfold execEntryFetchDone
  repeat' first
    | with_reducible assumption
    | (intro t ht; have hg : State.Inv t := ht; clear hg)
    | ((try lift_lets); intro x; refine (show State.Inv x → _ from ?_) ?_; (on_goal 2 => subst x); (on_goal 1 => (intro hx; clear_value x)))
    | ((try lift_lets); intro x; clear_value x)
    | intro _
    | fail_if_no_progress (with_reducible apply inv_upd)
    | with_reducible first | apply State.when_inv | apply State.fetchGood_inv | apply State.fetchFail_inv
        | apply outInv_next
    | split

theorem execIrqItimeExpiry_inv (ring : Fin 9) (s : State) (hs : s.Inv) :
    OutInv (execIrqItimeExpiry ring s) := by
  unfold execIrqItimeExpiry
  repeat' first
    | with_reducible assumption
    | (intro t ht; have hg : State.Inv t := ht; clear hg)
    | ((try lift_lets); intro x; clear_value x)
    | intro _
    | fail_if_no_progress (with_reducible apply inv_upd)
    | with_reducible first | apply State.when_inv | apply State.fire_inv | apply State.set_inv | apply outInv_next
    | split

theorem State.ctrlWritten_inv (s : State) (was : Bool) (hs : s.Inv) :
    (State.ctrlWritten s was).Inv := by
  unfold State.ctrlWritten
  repeat' first
    | with_reducible assumption
    | ((try lift_lets); intro x; clear_value x)
    | with_reducible first | apply State.set_inv | apply State.setb_inv
    | split

theorem State.cfgRefused_inv (s : State) (kind : Nat) (ring : Nat) (hs : s.Inv) :
    (State.cfgRefused s kind ring).Inv := by
  unfold State.cfgRefused
  repeat' first
    | with_reducible assumption
    | with_reducible first | apply State.ringError_inv

theorem State.drained_inv (s : State) (q : Fin 8) (hs : s.Inv) :
    (State.drained s q).Inv := by
  unfold State.drained
  repeat' first
    | with_reducible assumption
    | with_reducible first | apply State.set_inv
    | split

theorem State.sqWritten_inv (s : State) (q : Fin 8) (was : Bool) (hs : s.Inv) :
    (State.sqWritten s q was).Inv := by
  unfold State.sqWritten
  repeat' first
    | with_reducible assumption
    | with_reducible first | apply State.set_inv | apply State.drained_inv | apply State.requestFetch_inv
        | apply State.cfgRefused_inv
    | split

theorem State.startCq_inv (s : State) (c : Fin 8) (hs : s.Inv) :
    (State.startCq s c).Inv := by
  unfold State.startCq
  repeat' first
    | with_reducible assumption
    | ((try lift_lets); intro x; refine (show State.Inv x → _ from ?_) ?_; (on_goal 2 => subst x); (on_goal 1 => (intro hx; clear_value x)))
    | ((try lift_lets); intro x; clear_value x)
    | fail_if_no_progress (with_reducible apply inv_upd)
    | with_reducible first | apply State.set_inv

theorem State.cqWritten_inv (s : State) (c : Fin 8) (was : Bool) (hs : s.Inv) :
    (State.cqWritten s c was).Inv := by
  unfold State.cqWritten
  repeat' first
    | with_reducible assumption
    | with_reducible first | apply State.set_inv | apply State.cfgRefused_inv | apply State.startCq_inv
        | apply State.requestFetch_inv
    | split

theorem State.evqWritten_inv (s : State) (was : Bool) (hs : s.Inv) :
    (State.evqWritten s was).Inv := by
  unfold State.evqWritten
  repeat' first
    | with_reducible assumption
    | ((try lift_lets); intro x; refine (show State.Inv x → _ from ?_) ?_; (on_goal 2 => subst x); (on_goal 1 => (intro hx; clear_value x)))
    | ((try lift_lets); intro x; clear_value x)
    | fail_if_no_progress (with_reducible apply inv_upd)
    | with_reducible first | apply State.set_inv | apply State.requestFetch_inv
    | split

theorem execSqDrainDone_inv (q : Fin 8) (s : State) (hs : s.Inv) :
    OutInv (execSqDrainDone q s) := by
  unfold execSqDrainDone
  repeat' first
    | with_reducible assumption
    | (intro t ht; have hg : State.Inv t := ht; clear hg)
    | intro _
    | with_reducible first | apply State.when_inv | apply State.drained_inv | apply outInv_next

theorem State.freeLocks_inv (s : State) (id : Nat) (hs : s.Inv) :
    (State.freeLocks s id).Inv := by
  unfold State.freeLocks
  repeat' first
    | with_reducible assumption
    | (intro t y ht; have hg : State.Inv t := ht; clear hg)
    | intro _
    | with_reducible first | apply State.setWord_inv | apply State.set_inv | apply inv_foldl | apply inv_foldlFst
        | apply inv_foldlSnd
    | split

theorem State.emptyHostBox_inv (s : State) (hs : s.Inv) :
    (State.emptyHostBox s).Inv := by
  unfold State.emptyHostBox
  repeat' first
    | with_reducible assumption
    | ((try lift_lets); intro x; refine (show State.Inv x → _ from ?_) ?_; (on_goal 2 => subst x); (on_goal 1 => (intro hx; clear_value x)))
    | ((try lift_lets); intro x; clear_value x)
    | fail_if_no_progress (with_reducible apply inv_upd)
    | with_reducible first | apply State.set_inv

theorem State.resetHostBox_inv (s : State) (hs : s.Inv) :
    (State.resetHostBox s).Inv := by
  unfold State.resetHostBox
  repeat' first
    | with_reducible assumption
    | ((try lift_lets); intro x; refine (show State.Inv x → _ from ?_) ?_; (on_goal 2 => subst x); (on_goal 1 => (intro hx; clear_value x)))
    | with_reducible first | apply State.emptyHostBox_inv | apply State.setWord_inv | apply State.set_inv

theorem State.hostReset_inv (s : State) (hs : s.Inv) :
    (State.hostReset s).Inv := by
  unfold State.hostReset
  repeat' first
    | with_reducible assumption
    | ((try lift_lets); intro x; refine (show State.Inv x → _ from ?_) ?_; (on_goal 2 => subst x); (on_goal 1 => (intro hx; clear_value x)))
    | fail_if_no_progress (with_reducible apply inv_upd)
    | with_reducible first | exact inv_regReset _ _ | apply State.capReset_inv | apply State.resetHostBox_inv
        | apply State.freeLocks_inv | apply State.capRefresh_inv

theorem State.linkDown_inv (s : State) (perst : Bool) (hs : s.Inv) :
    (State.linkDown s perst).Inv := by
  unfold State.linkDown
  repeat' first
    | with_reducible assumption
    | ((try lift_lets); intro x; clear_value x)
    | fail_if_no_progress (with_reducible apply inv_upd)
    | with_reducible first | apply State.set_inv

theorem execFunctionLevelReset_inv (kind : Fin 3) (s : State) (hs : s.Inv) :
    OutInv (execFunctionLevelReset kind s) := by
  unfold execFunctionLevelReset
  repeat' first
    | with_reducible assumption
    | (intro t ht; have hg : State.Inv t := ht; clear hg)
    | intro _
    | with_reducible first | apply State.when_inv | apply State.hostReset_inv | apply State.toL0_inv
        | apply State.linkDown_inv | apply State.set_inv | apply outInv_next
    | split

theorem execBusMasterDisable_inv (d3 : Bool) (s : State) (hs : s.Inv) :
    OutInv (execBusMasterDisable d3 s) := by
  unfold execBusMasterDisable
  repeat' first
    | with_reducible assumption
    | (intro t ht; have hg : State.Inv t := ht; clear hg)
    | ((try lift_lets); intro x; clear_value x)
    | intro _
    | fail_if_no_progress (with_reducible apply inv_upd)
    | with_reducible first | apply State.when_inv | apply State.set_inv | apply outInv_next
    | split

theorem State.flushMsix_inv (s : State) (hs : s.Inv) :
    (State.flushMsix s).Inv := by
  unfold State.flushMsix
  repeat' first
    | with_reducible assumption
    | (intro t y ht; have hg : State.Inv t := ht; clear hg)
    | intro _
    | with_reducible first | apply State.setBit_inv | apply State.emit_inv | apply State.set_inv | apply inv_foldl
        | apply inv_foldlFst | apply inv_foldlSnd
    | split

theorem State.dmaResume_inv (s : State) (hs : s.Inv) :
    (State.dmaResume s).Inv := by
  unfold State.dmaResume
  repeat' first
    | with_reducible assumption
    | ((try lift_lets); intro x; refine (show State.Inv x → _ from ?_) ?_; (on_goal 2 => subst x); (on_goal 1 => (intro hx; clear_value x)))
    | with_reducible first | apply State.writeStatus_inv | apply State.flushCpls_inv | apply State.flushEvents_inv
        | apply State.flushMsix_inv | apply State.nextFetch_inv | apply State.fetchTurns_inv
    | split

theorem execBusMasterEnable_inv (d0 : Bool) (s : State) (hs : s.Inv) :
    OutInv (execBusMasterEnable d0 s) := by
  unfold execBusMasterEnable
  repeat' first
    | with_reducible assumption
    | (intro t ht; have hg : State.Inv t := ht; clear hg)
    | ((try lift_lets); intro x; clear_value x)
    | intro _
    | fail_if_no_progress (with_reducible apply inv_upd)
    | with_reducible first | apply State.when_inv | apply State.set_inv | apply State.dmaResume_inv
        | apply outInv_next
    | split

theorem execLinkL1Entry_inv (s : State) (hs : s.Inv) :
    OutInv (execLinkL1Entry s) := by
  unfold execLinkL1Entry
  repeat' first
    | with_reducible assumption
    | (intro t ht; have hg : State.Inv t := ht; clear hg)
    | ((try lift_lets); intro x; refine (show State.Inv x → _ from ?_) ?_; (on_goal 2 => subst x); (on_goal 1 => (intro hx; clear_value x)))
    | ((try lift_lets); intro x; clear_value x)
    | intro _
    | fail_if_no_progress (with_reducible apply inv_upd)
    | with_reducible first | apply State.when_inv | apply State.set_inv | apply outInv_next

theorem execPerstDeassert_inv (trained : Bool) (s : State) (hs : s.Inv) :
    OutInv (execPerstDeassert trained s) := by
  unfold execPerstDeassert
  repeat' first
    | with_reducible assumption
    | (intro t ht; have hg : State.Inv t := ht; clear hg)
    | ((try lift_lets); intro x; refine (show State.Inv x → _ from ?_) ?_; (on_goal 2 => subst x); (on_goal 1 => (intro hx; clear_value x)))
    | ((try lift_lets); intro x; clear_value x)
    | intro _
    | fail_if_no_progress (with_reducible apply inv_upd)
    | with_reducible first | apply State.when_inv | apply State.setb_inv | apply State.set_inv | apply outInv_next

theorem opNop_inv (u_ : Cmd) (s : State) (hs : s.Inv) :
    (opNop u_ s).2.Inv := by
  unfold opNop
  repeat' first
    | with_reducible assumption

theorem execNop_inv (s : State) (hs : s.Inv) :
    OutInv (execNop s) := by
  unfold execNop
  repeat' first
    | with_reducible assumption
    | (intro t ht; have hg : State.Inv t := ht; clear hg)
    | (intro y t ht; have hg : State.Inv t := ht; clear hg)
    | intro _
    | with_reducible first | apply State.when_inv | apply State.runCmd_inv | apply opNop_inv | apply outInv_next

theorem opStatusBlock_inv (u_ : Cmd) (s : State) (hs : s.Inv) :
    (opStatusBlock u_ s).2.Inv := by
  unfold opStatusBlock
  repeat' first
    | with_reducible assumption

theorem execGetStatusBlock_inv (s : State) (hs : s.Inv) :
    OutInv (execGetStatusBlock s) := by
  unfold execGetStatusBlock
  repeat' first
    | with_reducible assumption
    | (intro t ht; have hg : State.Inv t := ht; clear hg)
    | (intro y t ht; have hg : State.Inv t := ht; clear hg)
    | intro _
    | with_reducible first | apply State.when_inv | apply State.runCmd_inv | apply opStatusBlock_inv
        | apply outInv_next

theorem opEventMask_inv (c : Cmd) (s : State) (hs : s.Inv) :
    (opEventMask c s).2.Inv := by
  unfold opEventMask
  repeat' first
    | with_reducible assumption
    | ((try lift_lets); intro x; clear_value x)
    | with_reducible first | apply State.set_inv
    | split

theorem execSetEventMask_inv (s : State) (hs : s.Inv) :
    OutInv (execSetEventMask s) := by
  unfold execSetEventMask
  repeat' first
    | with_reducible assumption
    | (intro t ht; have hg : State.Inv t := ht; clear hg)
    | (intro y t ht; have hg : State.Inv t := ht; clear hg)
    | intro _
    | with_reducible first | apply State.when_inv | apply State.runCmd_inv | apply opEventMask_inv | apply outInv_next

end Sys2Proof.Machine
end

