-- ==== Sys2Proof/Laws/InvContinuity.lean ====
section
/-! SUPPORT. Every operation of Machine/Continuity.lean keeps the canonical form of the register space. -/

set_option Elab.async false

namespace Sys2Proof.Machine

theorem State.queueLog_inv (s : State) (typ : Nat) (data : List Byte) (hs : s.Inv) :
    (State.queueLog s typ data).Inv := by
  unfold State.queueLog
  repeat' first
    | with_reducible assumption
    | ((try lift_lets); intro x; clear_value x)
    | fail_if_no_progress (with_reducible apply inv_upd)
    | with_reducible first | apply State.bump_inv
    | split

theorem State.mirrorDue_inv (s : State) (hs : s.Inv) :
    (State.mirrorDue s).Inv := by
  unfold State.mirrorDue
  repeat' first
    | with_reducible assumption
    | ((try lift_lets); intro x; clear_value x)
    | fail_if_no_progress (with_reducible apply inv_upd)
    | with_reducible first | apply State.queueLog_inv
    | split

theorem State.setRecord_inv (s : State) (bank : Nat) (trial : Bool) (hs : s.Inv) :
    (State.setRecord s bank trial).Inv := by
  unfold State.setRecord
  repeat' first
    | with_reducible assumption
    | ((try lift_lets); intro x; refine (show State.Inv x → _ from ?_) ?_; (on_goal 2 => subst x); (on_goal 1 => (intro hx; clear_value x)))
    | ((try lift_lets); intro x; clear_value x)
    | fail_if_no_progress (with_reducible apply inv_upd)
    | with_reducible first | apply State.setb_inv | apply State.set_inv

theorem State.oldBank_inv (s : State) (bank : Nat) (hs : s.Inv) :
    (State.oldBank s bank).Inv := by
  unfold State.oldBank
  repeat' first
    | with_reducible assumption
    | ((try lift_lets); intro x; refine (show State.Inv x → _ from ?_) ?_; (on_goal 2 => subst x); (on_goal 1 => (intro hx; clear_value x)))
    | ((try lift_lets); intro x; clear_value x)
    | fail_if_no_progress (with_reducible apply inv_upd)
    | with_reducible first | apply State.setRecord_inv | apply State.set_inv | apply State.raiseFw_inv
        | apply State.raiseFault_inv

theorem State.warmHostBox_inv (s : State) (hs : s.Inv) :
    (State.warmHostBox s).Inv := by
  unfold State.warmHostBox
  repeat' first
    | with_reducible assumption
    | ((try lift_lets); intro x; refine (show State.Inv x → _ from ?_) ?_; (on_goal 2 => subst x); (on_goal 1 => (intro hx; clear_value x)))
    | ((try lift_lets); intro x; clear_value x)
    | fail_if_no_progress (with_reducible apply inv_upd)
    | with_reducible first | apply State.emptyHostBox_inv | apply State.set_inv | apply State.fire_inv
    | split

theorem State.warmEcBox_inv (s : State) (hs : s.Inv) :
    (State.warmEcBox s).Inv := by
  unfold State.warmEcBox
  repeat' first
    | with_reducible assumption
    | ((try lift_lets); intro x; refine (show State.Inv x → _ from ?_) ?_; (on_goal 2 => subst x); (on_goal 1 => (intro hx; clear_value x)))
    | with_reducible first | apply State.set_inv | apply State.clearPending_inv
    | split

theorem State.warmReset_inv (s : State) (cause : Nat) (hs : s.Inv) :
    (State.warmReset s cause).Inv := by
  unfold State.warmReset
  repeat' first
    | with_reducible assumption
    | ((try lift_lets); intro x; refine (show State.Inv x → _ from ?_) ?_; (on_goal 2 => subst x); (on_goal 1 => (intro hx; clear_value x)))
    | ((try lift_lets); intro x; clear_value x)
    | intro _
    | fail_if_no_progress (with_reducible apply inv_upd)
    | with_reducible exact inv_regReset _ _
    | with_reducible apply hfn
    | with_reducible apply State.set_inv
    | with_reducible apply State.bump_inv
    | with_reducible apply State.mirrorDue_inv
    | with_reducible apply State.raiseWdg_inv
    | with_reducible apply State.armFallback_inv
    | with_reducible apply State.freeLocks_inv
    | with_reducible apply State.warmHostBox_inv
    | with_reducible apply State.warmEcBox_inv
    | with_reducible apply State.oldBank_inv
    | with_reducible apply outInv_next
    | with_reducible apply inv_foldl
    | with_reducible apply inv_foldlFst
    | with_reducible apply inv_foldlSnd
    | split

theorem State.abortStarted_inv (s : State) (hs : s.Inv) :
    (State.abortStarted s).Inv := by
  unfold State.abortStarted
  repeat' first
    | with_reducible assumption
    | (intro t y ht; have hg : State.Inv t := ht; clear hg)
    | intro _
    | with_reducible first | apply State.finish_inv | apply inv_foldl

theorem State.logKept_inv (s : State) (hs : s.Inv) :
    (State.logKept s).Inv := by
  unfold State.logKept
  repeat' first
    | with_reducible assumption
    | (intro t y ht; have hg : State.Inv t := ht; clear hg)
    | ((try lift_lets); intro x; refine (show State.Inv x → _ from ?_) ?_; (on_goal 2 => subst x); (on_goal 1 => (intro hx; clear_value x)))
    | ((try lift_lets); intro x; clear_value x)
    | intro _
    | fail_if_no_progress (with_reducible apply inv_upd)
    | with_reducible first | apply State.bump_inv | apply State.queueLog_inv | apply inv_foldl | apply inv_foldlFst
        | apply inv_foldlSnd
    | split

theorem State.resumeCmds_inv (s : State) (hs : s.Inv) :
    (State.resumeCmds s).Inv := by
  unfold State.resumeCmds
  repeat' first
    | with_reducible assumption
    | with_reducible first | apply State.settle_inv | apply State.fetchTurns_inv

theorem State.endGap_inv (s : State) (g : Gap) (hs : s.Inv) :
    (State.endGap s g).Inv := by
  unfold State.endGap
  repeat' first
    | with_reducible assumption
    | ((try lift_lets); intro x; refine (show State.Inv x → _ from ?_) ?_; (on_goal 2 => subst x); (on_goal 1 => (intro hx; clear_value x)))
    | ((try lift_lets); intro x; clear_value x)
    | fail_if_no_progress (with_reducible apply inv_upd)
    | with_reducible first | apply State.set_inv | apply State.oldBank_inv | apply State.completeOpt_inv
        | apply State.setRecord_inv | apply State.raiseFw_inv
    | split

theorem State.fwReturn_inv (s : State) (hs : s.Inv) :
    (State.fwReturn s).Inv := by
  unfold State.fwReturn
  repeat' first
    | with_reducible assumption
    | ((try lift_lets); intro x; refine (show State.Inv x → _ from ?_) ?_; (on_goal 2 => subst x); (on_goal 1 => (intro hx; clear_value x)))
    | ((try lift_lets); intro x; clear_value x)
    | fail_if_no_progress (with_reducible apply inv_upd)
    | with_reducible first | apply State.set_inv | apply State.raiseWdg_inv | apply State.endGap_inv
        | apply State.logKept_inv | apply State.resumeCmds_inv | apply State.abortStarted_inv
    | split

theorem State.aloneTables_inv (s : State) (p : Fin 4) (hs : s.Inv) :
    (State.aloneTables s p).Inv := by
  unfold State.aloneTables
  repeat' first
    | with_reducible assumption
    | (intro t y ht; have hg : State.Inv t := ht; clear hg)
    | ((try lift_lets); intro x; refine (show State.Inv x → _ from ?_) ?_; (on_goal 2 => subst x); (on_goal 1 => (intro hx; clear_value x)))
    | intro _
    | with_reducible first | apply State.set_inv | apply State.putTable_inv | apply State.eprCleared_inv
        | apply inv_foldl

theorem State.aloneMap_inv (s : State) (hs : s.Inv) :
    (State.aloneMap s).Inv := by
  unfold State.aloneMap
  repeat' first
    | with_reducible assumption
    | (intro t y ht; have hg : State.Inv t := ht; clear hg)
    | ((try lift_lets); intro x; refine (show State.Inv x → _ from ?_) ?_; (on_goal 2 => subst x); (on_goal 1 => (intro hx; clear_value x)))
    | ((try lift_lets); intro x; clear_value x)
    | intro _
    | fail_if_no_progress (with_reducible apply inv_upd)
    | with_reducible first | apply State.eachPhase_inv | apply State.mapPhase_inv | apply State.writePmax_inv
        | apply State.releaseGroup_inv
    | split

theorem State.aloneCharge_inv (s : State) (hs : s.Inv) :
    (State.aloneCharge s).Inv := by
  unfold State.aloneCharge
  repeat' first
    | with_reducible assumption
    | ((try lift_lets); intro x; refine (show State.Inv x → _ from ?_) ?_; (on_goal 2 => subst x); (on_goal 1 => (intro hx; clear_value x)))
    | ((try lift_lets); intro x; clear_value x)
    | fail_if_no_progress (with_reducible apply inv_upd)
    | with_reducible first | apply State.writeProfile_inv | apply State.set_inv | apply State.setEst_inv

theorem State.aloneVsys_inv (s : State) (hs : s.Inv) :
    (State.aloneVsys s).Inv := by
  unfold State.aloneVsys
  repeat' first
    | with_reducible assumption
    | with_reducible first | apply State.set_inv

theorem State.aloneThermal_inv (s : State) (hs : s.Inv) :
    (State.aloneThermal s).Inv := by
  unfold State.aloneThermal
  repeat' first
    | with_reducible assumption
    | (intro t y ht; have hg : State.Inv t := ht; clear hg)
    | intro _
    | with_reducible first | apply State.set_inv | apply State.setWord_inv | apply inv_foldl

theorem State.aloneModes_inv (s : State) (hs : s.Inv) :
    (State.aloneModes s).Inv := by
  unfold State.aloneModes
  repeat' first
    | with_reducible assumption
    | ((try lift_lets); intro x; refine (show State.Inv x → _ from ?_) ?_; (on_goal 2 => subst x); (on_goal 1 => (intro hx; clear_value x)))
    | with_reducible first | apply State.setWord_inv | apply State.set_inv

theorem State.alonePort_inv (s : State) (p : Fin 4) (hs : s.Inv) :
    (State.alonePort s p).Inv := by
  unfold State.alonePort
  repeat' first
    | with_reducible assumption
    | with_reducible first | apply State.stopSource_inv | apply State.setTerm_inv | apply State.set_inv
    | split

theorem State.goAlone_inv (s : State) (hs : s.Inv) :
    (State.goAlone s).Inv := by
  unfold State.goAlone
  repeat' first
    | with_reducible assumption
    | (intro t y ht; have hg : State.Inv t := ht; clear hg)
    | ((try lift_lets); intro x; refine (show State.Inv x → _ from ?_) ?_; (on_goal 2 => subst x); (on_goal 1 => (intro hx; clear_value x)))
    | ((try lift_lets); intro x; clear_value x)
    | intro _
    | fail_if_no_progress (with_reducible apply inv_upd)
    | with_reducible exact inv_regReset _ _
    | with_reducible apply hfn
    | with_reducible apply State.set_inv
    | with_reducible apply State.eachPort_inv
    | with_reducible apply State.aloneTables_inv
    | with_reducible apply State.alonePort_inv
    | with_reducible apply State.aloneCharge_inv
    | with_reducible apply State.aloneVsys_inv
    | with_reducible apply State.aloneThermal_inv
    | with_reducible apply State.aloneModes_inv
    | with_reducible apply State.abortSelect_inv
    | with_reducible apply State.modBus_inv
    | with_reducible apply State.aloneMap_inv
    | with_reducible apply State.autoSelect_inv
    | with_reducible apply State.railDefaults_inv

theorem State.abortAll_inv (s : State) (hs : s.Inv) :
    (State.abortAll s).Inv := by
  unfold State.abortAll
  repeat' first
    | with_reducible assumption
    | (intro t y ht; have hg : State.Inv t := ht; clear hg)
    | ((try lift_lets); intro x; refine (show State.Inv x → _ from ?_) ?_; (on_goal 2 => subst x); (on_goal 1 => (intro hx; clear_value x)))
    | ((try lift_lets); intro x; clear_value x)
    | intro _
    | fail_if_no_progress (with_reducible apply inv_upd)
    | with_reducible first | apply State.finish_inv | apply inv_foldl | apply inv_foldlFst | apply inv_foldlSnd
    | split

theorem State.fallBack_inv (s : State) (cur : List FrameRun) (hs : s.Inv) :
    (State.fallBack s cur).Inv := by
  unfold State.fallBack
  repeat' first
    | with_reducible assumption
    | ((try lift_lets); intro x; refine (show State.Inv x → _ from ?_) ?_; (on_goal 2 => subst x); (on_goal 1 => (intro hx; clear_value x)))
    | intro _
    | fail_if_no_progress (with_reducible apply inv_upd)
    | with_reducible exact inv_regReset _ _
    | with_reducible apply hfn
    | with_reducible apply State.set_inv
    | with_reducible apply State.bump_inv
    | with_reducible apply State.mirrorDue_inv
    | with_reducible apply State.raiseWdg_inv
    | with_reducible apply State.abortAll_inv
    | with_reducible apply State.stopRings_inv
    | with_reducible apply State.goAlone_inv

end Sys2Proof.Machine
end

