-- ==== Sys2Proof/Laws/InvThermal.lean ====
section
/-! SUPPORT. Every operation of Machine/Thermal.lean keeps the canonical form of the register space. -/

set_option Elab.async false

namespace Sys2Proof.Machine

theorem State.raiseTherm_inv (s : State) (idx : Nat) (kind : Nat) (temp : Int) (hs : s.Inv) :
    (State.raiseTherm s idx kind temp).Inv := by
  unfold State.raiseTherm
  repeat' first
    | with_reducible assumption
    | with_reducible first | apply State.raise_inv

theorem State.setFast_inv (s : State) (b : Bool) (hs : s.Inv) :
    (State.setFast s b).Inv := by
  unfold State.setFast
  repeat' first
    | with_reducible assumption
    | with_reducible first | apply State.setb_inv | apply State.raiseTherm_inv | apply State.set_inv
    | split

theorem State.ntcEdge_inv (s : State) (f : Fld) (b : Bool) (idx : Nat) (kind : Nat) (temp : Int) (hs : s.Inv) :
    (State.ntcEdge s f b idx kind temp).Inv := by
  unfold State.ntcEdge
  repeat' first
    | with_reducible assumption
    | ((try lift_lets); intro x; refine (show State.Inv x → _ from ?_) ?_; (on_goal 2 => subst x); (on_goal 1 => (intro hx; clear_value x)))
    | with_reducible first | apply State.setb_inv | apply State.set_inv | apply State.raiseTherm_inv
    | split

theorem State.ntcRead_inv (s : State) (n : Fin 8) (r : NtcReading) (hs : s.Inv) :
    (State.ntcRead s n r).Inv := by
  unfold State.ntcRead
  repeat' first
    | with_reducible assumption
    | ((try lift_lets); intro x; refine (show State.Inv x → _ from ?_) ?_; (on_goal 2 => subst x); (on_goal 1 => (intro hx; clear_value x)))
    | ((try lift_lets); intro x; clear_value x)
    | fail_if_no_progress (with_reducible apply inv_upd)
    | with_reducible first | apply State.set_inv | apply State.ntcEdge_inv
    | split

theorem State.mark_inv (s : State) (f : Fld) (n : Nat) (idx : Nat) (temp : Int) (hs : s.Inv) :
    (State.mark s f n idx temp).Inv := by
  unfold State.mark
  repeat' first
    | with_reducible assumption
    | with_reducible first | apply State.setBit_inv | apply State.set_inv | apply State.raiseTherm_inv

theorem State.crossCheck_inv (s : State) (die : Nat → Int) (temp : Nat → Int) (hs : s.Inv) :
    (State.crossCheck s die temp).Inv := by
  unfold State.crossCheck
  repeat' first
    | with_reducible assumption
    | (intro t y ht; have hg : State.Inv t := ht; clear hg)
    | ((try lift_lets); intro x; refine (show State.Inv x → _ from ?_) ?_; (on_goal 2 => subst x); (on_goal 1 => (intro hx; clear_value x)))
    | ((try lift_lets); intro x; clear_value x)
    | intro _
    | fail_if_no_progress (with_reducible apply inv_upd)
    | with_reducible first | apply State.mark_inv | apply inv_foldl | apply inv_foldlFst | apply inv_foldlSnd
    | split

theorem State.writeEff_inv (s : State) (die : Nat → Int) (temp : Nat → Int) (hs : s.Inv) :
    (State.writeEff s die temp).Inv := by
  unfold State.writeEff
  repeat' first
    | with_reducible assumption
    | (intro t y ht; have hg : State.Inv t := ht; clear hg)
    | ((try lift_lets); intro x; refine (show State.Inv x → _ from ?_) ?_; (on_goal 2 => subst x); (on_goal 1 => (intro hx; clear_value x)))
    | intro _
    | with_reducible first | apply State.seti_inv | apply State.set_inv | apply inv_foldl | apply inv_foldlFst
        | apply inv_foldlSnd
    | split

theorem State.writeTj_inv (s : State) (die : Nat → Int) (hs : s.Inv) :
    (State.writeTj s die).Inv := by
  unfold State.writeTj
  repeat' first
    | with_reducible assumption
    | fail_if_no_progress (with_reducible apply inv_upd)
    | with_reducible first | apply State.draw_inv | apply State.set_inv | apply State.seti_inv | apply inv_foldl
        | apply inv_foldlFst | apply inv_foldlSnd
    | split

theorem State.regions_inv (s : State) (hs : s.Inv) :
    (State.regions s).Inv := by
  unfold State.regions
  repeat' first
    | with_reducible assumption
    | (intro t y ht; have hg : State.Inv t := ht; clear hg)
    | ((try lift_lets); intro x; refine (show State.Inv x → _ from ?_) ?_; (on_goal 2 => subst x); (on_goal 1 => (intro hx; clear_value x)))
    | ((try lift_lets); intro x; clear_value x)
    | intro _
    | with_reducible first | apply State.setBit_inv | apply State.set_inv | apply State.raiseTherm_inv
        | apply inv_foldl | apply inv_foldlFst | apply inv_foldlSnd
    | split

theorem State.highs_inv (s : State) (hs : s.Inv) :
    (State.highs s).Inv := by
  unfold State.highs
  repeat' first
    | with_reducible assumption
    | (intro t y ht; have hg : State.Inv t := ht; clear hg)
    | ((try lift_lets); intro x; clear_value x)
    | intro _
    | fail_if_no_progress (with_reducible apply inv_upd)
    | with_reducible first | apply State.raiseTherm_inv | apply State.set_inv | apply State.setBit_inv
        | apply inv_foldl | apply inv_foldlFst | apply inv_foldlSnd
    | split

theorem State.thermFlag_inv (s : State) (f : Fld) (e : Fld) (b : Bool) (kindOn : Nat) (kindOff : Nat) (hs : s.Inv) :
    (State.thermFlag s f e b kindOn kindOff).Inv := by
  unfold State.thermFlag
  repeat' first
    | with_reducible assumption
    | ((try lift_lets); intro x; refine (show State.Inv x → _ from ?_) ?_; (on_goal 2 => subst x); (on_goal 1 => (intro hx; clear_value x)))
    | with_reducible first | apply State.setb_inv | apply State.set_inv | apply State.raiseTherm_inv
    | split

theorem State.thermFlags_inv (s : State) (hs : s.Inv) :
    (State.thermFlags s).Inv := by
  unfold State.thermFlags
  repeat' first
    | with_reducible assumption
    | ((try lift_lets); intro x; refine (show State.Inv x → _ from ?_) ?_; (on_goal 2 => subst x); (on_goal 1 => (intro hx; clear_value x)))
    | ((try lift_lets); intro x; clear_value x)
    | with_reducible first | apply State.setb_inv | apply State.thermFlag_inv

theorem State.derive_inv (s : State) (die : Nat → Int) (temp : Nat → Int) (hs : s.Inv) :
    (State.derive s die temp).Inv := by
  unfold State.derive
  repeat' first
    | with_reducible assumption
    | with_reducible first | apply State.writeEff_inv | apply State.writeTj_inv | apply State.regions_inv
        | apply State.highs_inv | apply State.thermFlags_inv

theorem State.thermSample_inv (s : State) (die : Nat → Int) (temp : Nat → Int) (ntc : List NtcReading) (hs : s.Inv) :
    (State.thermSample s die temp ntc).Inv := by
  unfold State.thermSample
  repeat' first
    | with_reducible assumption
    | (intro t y ht; have hg : State.Inv t := ht; clear hg)
    | ((try lift_lets); intro x; refine (show State.Inv x → _ from ?_) ?_; (on_goal 2 => subst x); (on_goal 1 => (intro hx; clear_value x)))
    | ((try lift_lets); intro x; clear_value x)
    | intro _
    | fail_if_no_progress (with_reducible apply inv_upd)
    | with_reducible exact inv_regReset _ _
    | with_reducible apply hfn
    | with_reducible apply State.seti_inv
    | with_reducible apply State.ntcRead_inv
    | with_reducible apply State.crossCheck_inv
    | with_reducible apply State.derive_inv
    | with_reducible apply State.setFast_inv
    | with_reducible apply State.set_inv
    | with_reducible apply outInv_next
    | with_reducible apply inv_foldl
    | with_reducible apply inv_foldlFst
    | with_reducible apply inv_foldlSnd
    | split

theorem execThermalSample_inv (die : List Int) (ntc : List NtcReading) (s : State) (hs : s.Inv) :
    OutInv (execThermalSample die ntc s) := by
  unfold execThermalSample
  repeat' first
    | with_reducible assumption
    | (intro t ht; have hg : State.Inv t := ht; clear hg)
    | intro _
    | fail_if_no_progress (with_reducible apply inv_upd)
    | with_reducible exact inv_regReset _ _
    | with_reducible apply hfn
    | with_reducible apply State.when_inv
    | with_reducible apply State.thermSample_inv
    | with_reducible apply outInv_next

theorem execSampleRateSlow_inv (s : State) (hs : s.Inv) :
    OutInv (execSampleRateSlow s) := by
  unfold execSampleRateSlow
  repeat' first
    | with_reducible assumption
    | (intro t ht; have hg : State.Inv t := ht; clear hg)
    | intro _
    | with_reducible first | apply State.when_inv | apply State.setFast_inv | apply State.set_inv | apply outInv_next

theorem State.thermTrip_inv (s : State) (sensors : Nat) (lone : Bool) (hs : s.Inv) :
    (State.thermTrip s sensors lone).Inv := by
  unfold State.thermTrip
  repeat' first
    | with_reducible assumption
    | ((try lift_lets); intro x; refine (show State.Inv x → _ from ?_) ?_; (on_goal 2 => subst x); (on_goal 1 => (intro hx; clear_value x)))
    | intro _
    | fail_if_no_progress (with_reducible apply inv_upd)
    | with_reducible exact inv_regReset _ _
    | with_reducible apply hfn
    | with_reducible apply State.wakeUp_inv
    | with_reducible apply State.set_inv
    | with_reducible apply State.setb_inv
    | with_reducible apply State.raiseTherm_inv
    | with_reducible apply State.safeEnter_inv
    | with_reducible apply outInv_next
    | with_reducible apply inv_foldl
    | with_reducible apply inv_foldlFst
    | with_reducible apply inv_foldlSnd
    | split

theorem execThermalShutdownTrip_inv (sensors : Fin 4096) (marks : Fin 4096) (s : State) (hs : s.Inv) :
    OutInv (execThermalShutdownTrip sensors marks s) := by
  unfold execThermalShutdownTrip
  repeat' first
    | with_reducible assumption
    | (intro t ht; have hg : State.Inv t := ht; clear hg)
    | intro _
    | with_reducible first | apply State.when_inv | apply State.thermTrip_inv | apply outInv_next

theorem State.reinstate_inv (s : State) (dieM : Nat) (ntcM : Nat) (hs : s.Inv) :
    (State.reinstate s dieM ntcM).Inv := by
  unfold State.reinstate
  repeat' first
    | with_reducible assumption
    | (intro t y ht; have hg : State.Inv t := ht; clear hg)
    | ((try lift_lets); intro x; refine (show State.Inv x → _ from ?_) ?_; (on_goal 2 => subst x); (on_goal 1 => (intro hx; clear_value x)))
    | ((try lift_lets); intro x; clear_value x)
    | intro _
    | fail_if_no_progress (with_reducible apply inv_upd)
    | with_reducible first | apply State.setBit_inv | apply State.raiseTherm_inv | apply State.set_inv
        | apply State.regions_inv | apply inv_foldl | apply inv_foldlFst | apply inv_foldlSnd
    | split

theorem opReinstate_inv (c : Cmd) (s : State) (hs : s.Inv) :
    (opReinstate c s).2.Inv := by
  unfold opReinstate
  repeat' first
    | with_reducible assumption
    | ((try lift_lets); intro x; clear_value x)
    | intro _
    | with_reducible first | apply State.reinstate_inv
    | split

theorem execSensorReinstate_inv (s : State) (hs : s.Inv) :
    OutInv (execSensorReinstate s) := by
  unfold execSensorReinstate
  repeat' first
    | with_reducible assumption
    | (intro t ht; have hg : State.Inv t := ht; clear hg)
    | (intro y t ht; have hg : State.Inv t := ht; clear hg)
    | intro _
    | with_reducible first | apply State.when_inv | apply State.runCmd_inv | apply opReinstate_inv | apply outInv_next

end Sys2Proof.Machine
end

