-- ==== Sys2Proof/Laws/InvAccess.lean ====
section
/-! SUPPORT. Every operation of Machine/Access.lean keeps the canonical form of the register space. -/

set_option Elab.async false

namespace Sys2Proof.Machine

theorem State.wdgRefused_inv (s : State) (i : Initiator) (a : Nat) (isWrite : Bool) (hs : s.Inv) :
    (State.wdgRefused s i a isWrite).Inv := by
  unfold State.wdgRefused
  repeat' first
    | with_reducible assumption
    | with_reducible first | apply State.set_inv | apply State.raiseWdg_inv
    | split

theorem State.recordRefusal_inv (s : State) (i : Initiator) (a : Nat) (isWrite : Bool) (cause : Nat) (hs : s.Inv) :
    (State.recordRefusal s i a isWrite cause).Inv := by
  unfold State.recordRefusal
  repeat' first
    | with_reducible assumption
    | ((try lift_lets); intro x; refine (show State.Inv x → _ from ?_) ?_; (on_goal 2 => subst x); (on_goal 1 => (intro hx; clear_value x)))
    | with_reducible first | apply State.bump_inv | apply State.set_inv | apply State.setb_inv
        | apply State.wdgRefused_inv
    | split

theorem State.atLeast_inv (s : State) (f : Fld) (v : Nat) (hs : s.Inv) :
    (State.atLeast s f v).Inv := by
  unfold State.atLeast
  repeat' first
    | with_reducible assumption
    | with_reducible first | apply State.set_inv
    | split

theorem State.atMost_inv (s : State) (f : Fld) (v : Nat) (hs : s.Inv) :
    (State.atMost s f v).Inv := by
  unfold State.atMost
  repeat' first
    | with_reducible assumption
    | with_reducible first | apply State.set_inv
    | split

theorem State.hold_inv (s : State) (a : Nat) (hs : s.Inv) :
    (State.hold s a).Inv := by
  unfold State.hold
  repeat' first
    | with_reducible assumption
    | ((try lift_lets); intro x; refine (show State.Inv x → _ from ?_) ?_; (on_goal 2 => subst x); (on_goal 1 => (intro hx; clear_value x)))
    | fail_if_no_progress (with_reducible apply inv_upd)
    | with_reducible first | apply State.atLeast_inv | apply State.atMost_inv | apply State.holdCov_inv
    | split

theorem State.limitReg_inv (s : State) (a : Nat) (hs : s.Inv) :
    (State.limitReg s a).Inv := by
  unfold State.limitReg
  repeat' first
    | with_reducible assumption
    | ((try lift_lets); intro x; clear_value x)
    | fail_if_no_progress (with_reducible apply inv_upd)
    | with_reducible first | apply State.atLeast_inv | apply State.atMost_inv | apply State.set_inv
    | split

theorem State.putReg_inv (s : State) (d : RegDesc) (a : Nat) (m : Word) (hs : s.Inv) :
    (State.putReg s d a m).Inv := by
  unfold State.putReg
  repeat' first
    | with_reducible assumption
    | with_reducible first | apply State.setWord_inv | apply State.limitReg_inv | apply State.hold_inv

theorem State.settled_inv (s : State) (a : Nat) (hs : s.Inv) :
    (State.settled s a).Inv := by
  unfold State.settled
  repeat' first
    | with_reducible assumption
    | (intro t y ht; have hg : State.Inv t := ht; clear hg)
    | intro _
    | fail_if_no_progress (with_reducible apply inv_upd)
    | with_reducible first | apply State.putReg_inv | apply inv_foldl | apply inv_foldlFst | apply inv_foldlSnd
    | split

theorem State.writeReg_inv (s : State) (i : Initiator) (a : Nat) (data : Word) (mask : Word) (eff : Word → State → State) (hs : s.Inv) (heff : ∀ (x0 : Word) (x1 : State), x1.Inv → (eff x0 x1).Inv) :
    (State.writeReg s i a data mask eff).2.Inv := by
  unfold State.writeReg
  repeat' first
    | with_reducible assumption
    | ((try lift_lets); intro x; refine (show State.Inv x → _ from ?_) ?_; (on_goal 2 => subst x); (on_goal 1 => (intro hx; clear_value x)))
    | fail_if_no_progress (with_reducible apply inv_upd)
    | with_reducible first | apply heff | apply State.settled_inv | apply State.putReg_inv | apply State.set_inv
    | split

theorem State.write_inv (s : State) (i : Initiator) (addr : Nat) (data : Word) (mask : Word) (full : Bool) (eff : Word → State → State) (hs : s.Inv) (heff : ∀ (x0 : Word) (x1 : State), x1.Inv → (eff x0 x1).Inv) :
    (State.write s i addr data mask full eff).2.Inv := by
  unfold State.write
  repeat' first
    | with_reducible assumption
    | ((try lift_lets); intro x; refine (show State.Inv x → _ from ?_) ?_; (on_goal 2 => subst x); (on_goal 1 => (intro hx; clear_value x)))
    | ((try lift_lets); intro x; clear_value x)
    | fail_if_no_progress (with_reducible apply inv_upd)
    | with_reducible first | apply heff | apply State.toL0_inv | apply State.recordRefusal_inv
        | apply State.writeReg_inv
    | split

theorem State.rowWrite_inv (s : State) (i : Initiator) (a : Nat) (data : Word) (full : Bool) (eff : Word → State → State) (hs : s.Inv) (heff : ∀ (x0 : Word) (x1 : State), x1.Inv → (eff x0 x1).Inv) :
    (State.rowWrite s i a data full eff).Inv := by
  unfold State.rowWrite
  repeat' first
    | with_reducible assumption
    | with_reducible first | apply heff | apply State.write_inv

end Sys2Proof.Machine
end

