-- ==== Sys2Proof/Laws/InvJack.lean ====
section
/-! SUPPORT. Every operation of Machine/Jack.lean keeps the canonical form of the register space. -/

set_option Elab.async false

namespace Sys2Proof.Machine

theorem State.addCauses_inv (s : State) (c : Nat) (hs : s.Inv) :
    (State.addCauses s c).Inv := by
  unfold State.addCauses
  repeat' first
    | with_reducible assumption
    | with_reducible first | apply State.set_inv

theorem State.jackFault_inv (s : State) (c : Nat) (task : Nat) (hs : s.Inv) :
    (State.jackFault s c task).Inv := by
  unfold State.jackFault
  repeat' first
    | with_reducible assumption
    | ((try lift_lets); intro x; refine (show State.Inv x → _ from ?_) ?_; (on_goal 2 => subst x); (on_goal 1 => (intro hx; clear_value x)))
    | with_reducible first | apply State.addCauses_inv | apply State.set_inv | apply State.warmReset_inv
        | apply State.raiseWdg_inv
    | split

theorem State.firstAnswer_inv (s : State) (good : Bool) (hs : s.Inv) :
    (State.firstAnswer s good).Inv := by
  unfold State.firstAnswer
  repeat' first
    | with_reducible assumption
    | ((try lift_lets); intro x; refine (show State.Inv x → _ from ?_) ?_; (on_goal 2 => subst x); (on_goal 1 => (intro hx; clear_value x)))
    | ((try lift_lets); intro x; clear_value x)
    | with_reducible first | apply State.set_inv | apply State.fwReturn_inv | apply State.addCauses_inv
        | apply State.jackFault_inv
    | split

theorem State.periodAnswer_inv (s : State) (good : Bool) (tick : Nat) (hs : s.Inv) :
    (State.periodAnswer s good tick).Inv := by
  unfold State.periodAnswer
  repeat' first
    | with_reducible assumption
    | ((try lift_lets); intro x; refine (show State.Inv x → _ from ?_) ?_; (on_goal 2 => subst x); (on_goal 1 => (intro hx; clear_value x)))
    | ((try lift_lets); intro x; clear_value x)
    | with_reducible first | apply State.set_inv | apply State.jackFault_inv
    | split

theorem State.jackAnswer_inv (s : State) (a : Nat) (tick : Nat) (hs : s.Inv) :
    (State.jackAnswer s a tick).Inv := by
  unfold State.jackAnswer
  repeat' first
    | with_reducible assumption
    | ((try lift_lets); intro x; refine (show State.Inv x → _ from ?_) ?_; (on_goal 2 => subst x); (on_goal 1 => (intro hx; clear_value x)))
    | ((try lift_lets); intro x; clear_value x)
    | with_reducible first | apply State.set_inv | apply State.firstAnswer_inv | apply State.periodAnswer_inv
    | split

theorem State.keyError_inv (s : State) (hs : s.Inv) :
    (State.keyError s).Inv := by
  unfold State.keyError
  repeat' first
    | with_reducible assumption
    | ((try lift_lets); intro x; refine (show State.Inv x → _ from ?_) ?_; (on_goal 2 => subst x); (on_goal 1 => (intro hx; clear_value x)))
    | ((try lift_lets); intro x; clear_value x)
    | fail_if_no_progress (with_reducible apply inv_upd)
    | with_reducible first | apply State.set_inv | apply State.raiseWdg_inv

theorem State.keyBreak_inv (s : State) (hs : s.Inv) :
    (State.keyBreak s).Inv := by
  unfold State.keyBreak
  repeat' first
    | with_reducible assumption
    | with_reducible first | apply State.keyError_inv
    | split

theorem State.jackKey_inv (s : State) (k : Nat) (late : Bool) (hs : s.Inv) :
    (State.jackKey s k late).Inv := by
  unfold State.jackKey
  repeat' first
    | with_reducible assumption
    | ((try lift_lets); intro x; clear_value x)
    | fail_if_no_progress (with_reducible apply inv_upd)
    | with_reducible first | apply State.keyError_inv
    | split

theorem State.jackOff_inv (s : State) (hs : s.Inv) :
    (State.jackOff s).Inv := by
  unfold State.jackOff
  repeat' first
    | with_reducible assumption
    | ((try lift_lets); intro x; refine (show State.Inv x → _ from ?_) ?_; (on_goal 2 => subst x); (on_goal 1 => (intro hx; clear_value x)))
    | ((try lift_lets); intro x; clear_value x)
    | fail_if_no_progress (with_reducible apply inv_upd)
    | with_reducible first | apply State.set_inv | apply State.raiseWdg_inv

theorem State.jackOn_inv (s : State) (hs : s.Inv) :
    (State.jackOn s).Inv := by
  unfold State.jackOn
  repeat' first
    | with_reducible assumption
    | ((try lift_lets); intro x; refine (show State.Inv x → _ from ?_) ?_; (on_goal 2 => subst x); (on_goal 1 => (intro hx; clear_value x)))
    | with_reducible first | apply State.freshPeriod_inv | apply State.set_inv | apply State.raiseWdg_inv
    | split

theorem State.wdgCtrl_inv (s : State) (was : Word) (data : Word) (late : Bool) (hs : s.Inv) :
    (State.wdgCtrl s was data late).Inv := by
  unfold State.wdgCtrl
  repeat' first
    | with_reducible assumption
    | ((try lift_lets); intro x; refine (show State.Inv x → _ from ?_) ?_; (on_goal 2 => subst x); (on_goal 1 => (intro hx; clear_value x)))
    | ((try lift_lets); intro x; clear_value x)
    | fail_if_no_progress (with_reducible apply inv_upd)
    | with_reducible first | apply State.jackOff_inv | apply State.setb_inv | apply State.keyError_inv
        | apply State.keyBreak_inv | apply State.jackOn_inv | apply State.set_inv
    | split

theorem State.jackCheckin_inv (s : State) (was : Nat) (m : Nat) (hs : s.Inv) :
    (State.jackCheckin s was m).Inv := by
  unfold State.jackCheckin
  repeat' first
    | with_reducible assumption
    | ((try lift_lets); intro x; refine (show State.Inv x → _ from ?_) ?_; (on_goal 2 => subst x); (on_goal 1 => (intro hx; clear_value x)))
    | ((try lift_lets); intro x; clear_value x)
    | with_reducible first | apply State.set_inv | apply State.addCauses_inv | apply State.jackFault_inv
    | split

theorem State.checkinWritten_inv (s : State) (was : Word) (data : Word) (hs : s.Inv) :
    (State.checkinWritten s was data).Inv := by
  unfold State.checkinWritten
  repeat' first
    | with_reducible assumption
    | ((try lift_lets); intro x; refine (show State.Inv x → _ from ?_) ?_; (on_goal 2 => subst x); (on_goal 1 => (intro hx; clear_value x)))
    | ((try lift_lets); intro x; clear_value x)
    | with_reducible first | apply State.keyBreak_inv | apply State.jackCheckin_inv | apply State.set_inv
    | split

theorem State.nextPeriod_inv (s : State) (hs : s.Inv) :
    (State.nextPeriod s).Inv := by
  unfold State.nextPeriod
  repeat' first
    | with_reducible assumption
    | ((try lift_lets); intro x; refine (show State.Inv x → _ from ?_) ?_; (on_goal 2 => subst x); (on_goal 1 => (intro hx; clear_value x)))
    | ((try lift_lets); intro x; clear_value x)
    | fail_if_no_progress (with_reducible apply inv_upd)
    | with_reducible first | apply State.freshPeriod_inv | apply State.set_inv

theorem State.closePeriod_inv (s : State) (hs : s.Inv) :
    (State.closePeriod s).Inv := by
  unfold State.closePeriod
  repeat' first
    | with_reducible assumption
    | ((try lift_lets); intro x; refine (show State.Inv x → _ from ?_) ?_; (on_goal 2 => subst x); (on_goal 1 => (intro hx; clear_value x)))
    | ((try lift_lets); intro x; clear_value x)
    | with_reducible first | apply State.set_inv | apply State.jackFault_inv | apply State.setb_inv
        | apply State.nextPeriod_inv
    | split

theorem execJackPeriodStart_inv (s : State) (hs : s.Inv) :
    OutInv (execJackPeriodStart s) := by
  unfold execJackPeriodStart
  repeat' first
    | with_reducible assumption
    | (intro t ht; have hg : State.Inv t := ht; clear hg)
    | intro _
    | with_reducible first | apply State.when_inv | apply State.nextPeriod_inv | apply State.closePeriod_inv
        | apply outInv_next
    | split

theorem execJackAnswer_inv (ini : Initiator) (data : Word) (full : Bool) (tick : Nat) (s : State) (hs : s.Inv) :
    OutInv (execJackAnswer ini data full tick s) := by
  unfold execJackAnswer
  repeat' first
    | with_reducible assumption
    | (intro t ht; have hg : State.Inv t := ht; clear hg)
    | (intro y t ht; have hg : State.Inv t := ht; clear hg)
    | intro _
    | with_reducible first | apply State.when_inv | apply State.rowWrite_inv | apply State.keyBreak_inv
        | apply State.jackAnswer_inv | apply outInv_next

theorem execJackCheckin_inv (ini : Initiator) (data : Word) (full : Bool) (s : State) (hs : s.Inv) :
    OutInv (execJackCheckin ini data full s) := by
  unfold execJackCheckin
  repeat' first
    | with_reducible assumption
    | (intro t ht; have hg : State.Inv t := ht; clear hg)
    | (intro y t ht; have hg : State.Inv t := ht; clear hg)
    | intro _
    | with_reducible first | apply State.when_inv | apply State.rowWrite_inv | apply State.checkinWritten_inv
        | apply outInv_next

theorem execJackKey_inv (ini : Initiator) (data : Word) (full : Bool) (late : Bool) (s : State) (hs : s.Inv) :
    OutInv (execJackKey ini data full late s) := by
  unfold execJackKey
  repeat' first
    | with_reducible assumption
    | (intro t ht; have hg : State.Inv t := ht; clear hg)
    | (intro y t ht; have hg : State.Inv t := ht; clear hg)
    | intro _
    | with_reducible first | apply State.when_inv | apply State.rowWrite_inv | apply State.jackKey_inv
        | apply outInv_next

theorem execJackDisable_inv (ini : Initiator) (data : Word) (full : Bool) (late : Bool) (s : State) (hs : s.Inv) :
    OutInv (execJackDisable ini data full late s) := by
  unfold execJackDisable
  repeat' first
    | with_reducible assumption
    | (intro t ht; have hg : State.Inv t := ht; clear hg)
    | (intro y t ht; have hg : State.Inv t := ht; clear hg)
    | intro _
    | with_reducible first | apply State.when_inv | apply State.rowWrite_inv | apply State.wdgCtrl_inv
        | apply outInv_next

theorem execJackEnable_inv (ini : Initiator) (data : Word) (full : Bool) (s : State) (hs : s.Inv) :
    OutInv (execJackEnable ini data full s) := by
  unfold execJackEnable
  repeat' first
    | with_reducible assumption
    | (intro t ht; have hg : State.Inv t := ht; clear hg)
    | (intro y t ht; have hg : State.Inv t := ht; clear hg)
    | intro _
    | with_reducible first | apply State.when_inv | apply State.rowWrite_inv | apply State.wdgCtrl_inv
        | apply outInv_next

theorem execJackLock_inv (ini : Initiator) (data : Word) (full : Bool) (s : State) (hs : s.Inv) :
    OutInv (execJackLock ini data full s) := by
  unfold execJackLock
  repeat' first
    | with_reducible assumption
    | (intro t ht; have hg : State.Inv t := ht; clear hg)
    | (intro y t ht; have hg : State.Inv t := ht; clear hg)
    | intro _
    | with_reducible first | apply State.when_inv | apply State.rowWrite_inv | apply State.wdgCtrl_inv
        | apply outInv_next

theorem State.failGap_inv (s : State) (g : Gap) (diag : Nat) (hs : s.Inv) :
    (State.failGap s g diag).Inv := by
  unfold State.failGap
  repeat' first
    | with_reducible assumption
    | ((try lift_lets); intro x; refine (show State.Inv x → _ from ?_) ?_; (on_goal 2 => subst x); (on_goal 1 => (intro hx; clear_value x)))
    | ((try lift_lets); intro x; clear_value x)
    | fail_if_no_progress (with_reducible apply inv_upd)
    | with_reducible first | apply State.resetJack_inv | apply State.set_inv | apply State.armFallback_inv
    | split

theorem execCoreFaultReset_inv (ecc : Bool) (app : Bool) (s : State) (hs : s.Inv) :
    OutInv (execCoreFaultReset ecc app s) := by
  unfold execCoreFaultReset
  repeat' first
    | with_reducible assumption
    | (intro t ht; have hg : State.Inv t := ht; clear hg)
    | intro _
    | fail_if_no_progress (with_reducible apply inv_upd)
    | with_reducible first | apply State.when_inv | apply State.failGap_inv | apply State.warmReset_inv
        | apply State.set_inv | apply outInv_next
    | split

theorem execFallbackExpiry_inv (cur : List FrameRun) (s : State) (hs : s.Inv) :
    OutInv (execFallbackExpiry cur s) := by
  unfold execFallbackExpiry
  repeat' first
    | with_reducible assumption
    | (intro t ht; have hg : State.Inv t := ht; clear hg)
    | intro _
    | with_reducible first | apply State.when_inv | apply State.set_inv | apply State.fallBack_inv | apply outInv_next
    | split

theorem State.mramRead_inv (s : State) (corr : Nat) (uncorr : Nat) (hs : s.Inv) :
    (State.mramRead s corr uncorr).Inv := by
  unfold State.mramRead
  repeat' first
    | with_reducible assumption
    | ((try lift_lets); intro x; refine (show State.Inv x → _ from ?_) ?_; (on_goal 2 => subst x); (on_goal 1 => (intro hx; clear_value x)))
    | with_reducible first | apply State.setSat_inv | apply State.raiseFault_inv | apply State.set_inv
    | split

theorem opSelfTest_inv (r : SelfTestOutcome) (c : Cmd) (s : State) (hs : s.Inv) :
    (opSelfTest r c s).2.Inv := by
  unfold opSelfTest
  repeat' first
    | with_reducible assumption
    | ((try lift_lets); intro x; refine (show State.Inv x → _ from ?_) ?_; (on_goal 2 => subst x); (on_goal 1 => (intro hx; clear_value x)))
    | ((try lift_lets); intro x; clear_value x)
    | with_reducible first | apply State.mramRead_inv
    | split

theorem execSelfTest_inv (r : SelfTestOutcome) (s : State) (hs : s.Inv) :
    OutInv (execSelfTest r s) := by
  unfold execSelfTest
  repeat' first
    | with_reducible assumption
    | (intro t ht; have hg : State.Inv t := ht; clear hg)
    | (intro y t ht; have hg : State.Inv t := ht; clear hg)
    | intro _
    | with_reducible first | apply State.when_inv | apply State.runCmd_inv | apply opSelfTest_inv | apply outInv_next

end Sys2Proof.Machine
end

