-- ==== Sys2Proof/Laws/InvFirmware.lean ====
section
/-! SUPPORT. Every operation of Machine/Firmware.lean keeps the canonical form of the register space. -/

set_option Elab.async false

namespace Sys2Proof.Machine

theorem State.setBank_inv (s : State) (n : Nat) (b : Bank) (hs : s.Inv) :
    (State.setBank s n b).Inv := by
  unfold State.setBank
  repeat' first
    | with_reducible assumption
    | ((try lift_lets); intro x; refine (show State.Inv x → _ from ?_) ?_; (on_goal 2 => subst x); (on_goal 1 => (intro hx; clear_value x)))
    | ((try lift_lets); intro x; clear_value x)
    | fail_if_no_progress (with_reducible apply inv_upd)
    | with_reducible first | apply State.set_inv
    | split

theorem State.showFw_inv (s : State) (hs : s.Inv) :
    (State.showFw s).Inv := by
  unfold State.showFw
  repeat' first
    | with_reducible assumption
    | ((try lift_lets); intro x; refine (show State.Inv x → _ from ?_) ?_; (on_goal 2 => subst x); (on_goal 1 => (intro hx; clear_value x)))
    | with_reducible first | apply State.set_inv | apply State.setb_inv

theorem State.advance_inv (s : State) (fuseOk : Bool) (hs : s.Inv) :
    (State.advance s fuseOk).Inv := by
  unfold State.advance
  repeat' first
    | with_reducible assumption
    | ((try lift_lets); intro x; clear_value x)
    | fail_if_no_progress (with_reducible apply inv_upd)
    | with_reducible first | apply State.set_inv | apply State.raiseFault_inv
    | split

theorem State.useSlot_inv (s : State) (hs : s.Inv) :
    (State.useSlot s).Inv := by
  unfold State.useSlot
  repeat' first
    | with_reducible assumption
    | with_reducible first | apply State.set_inv

theorem State.writeLog_inv (s : State) (e : Event) (hs : s.Inv) :
    (State.writeLog s e).Inv := by
  unfold State.writeLog
  repeat' first
    | with_reducible assumption
    | ((try lift_lets); intro x; clear_value x)
    | intro _
    | fail_if_no_progress (with_reducible apply inv_upd)
    | with_reducible first | apply State.useSlot_inv

theorem execLogEntryWrite_inv (s : State) (hs : s.Inv) :
    OutInv (execLogEntryWrite s) := by
  unfold execLogEntryWrite
  repeat' first
    | with_reducible assumption
    | (intro t ht; have hg : State.Inv t := ht; clear hg)
    | ((try lift_lets); intro x; clear_value x)
    | intro _
    | fail_if_no_progress (with_reducible apply inv_upd)
    | with_reducible first | apply State.when_inv | apply State.writeLog_inv | apply outInv_next
    | split

theorem State.abandonLog_inv (s : State) (q : List Event) (hs : s.Inv) :
    (State.abandonLog s q).Inv := by
  unfold State.abandonLog
  repeat' first
    | with_reducible assumption
    | ((try lift_lets); intro x; refine (show State.Inv x → _ from ?_) ?_; (on_goal 2 => subst x); (on_goal 1 => (intro hx; clear_value x)))
    | ((try lift_lets); intro x; clear_value x)
    | intro _
    | fail_if_no_progress (with_reducible apply inv_upd)
    | with_reducible first | apply State.useSlot_inv | apply State.bump_inv | apply State.mirrorDue_inv

theorem execLogWriteAbandon_inv (vsys : Nat) (s : State) (hs : s.Inv) :
    OutInv (execLogWriteAbandon vsys s) := by
  unfold execLogWriteAbandon
  repeat' first
    | with_reducible assumption
    | (intro t ht; have hg : State.Inv t := ht; clear hg)
    | intro _
    | fail_if_no_progress (with_reducible apply inv_upd)
    | with_reducible first | apply State.when_inv | apply State.abandonLog_inv | apply outInv_next
    | split

theorem State.bootScan_inv (s : State) (hs : s.Inv) :
    (State.bootScan s).Inv := by
  unfold State.bootScan
  repeat' first
    | with_reducible assumption
    | ((try lift_lets); intro x; refine (show State.Inv x → _ from ?_) ?_; (on_goal 2 => subst x); (on_goal 1 => (intro hx; clear_value x)))
    | ((try lift_lets); intro x; clear_value x)
    | fail_if_no_progress (with_reducible apply inv_upd)
    | with_reducible first | apply State.set_inv | apply State.setSat_inv | apply State.raiseFault_inv
        | apply State.queueLog_inv
    | split

theorem opLogRead_inv (c : Cmd) (s : State) (hs : s.Inv) :
    (opLogRead c s).2.Inv := by
  unfold opLogRead
  repeat' first
    | with_reducible assumption

theorem execLogRead_inv (s : State) (hs : s.Inv) :
    OutInv (execLogRead s) := by
  unfold execLogRead
  repeat' first
    | with_reducible assumption
    | (intro t ht; have hg : State.Inv t := ht; clear hg)
    | (intro y t ht; have hg : State.Inv t := ht; clear hg)
    | intro _
    | with_reducible first | apply State.when_inv | apply State.runCmd_inv | apply opLogRead_inv | apply outInv_next

theorem opLogClear_inv (c : Cmd) (s : State) (hs : s.Inv) :
    (opLogClear c s).2.Inv := by
  unfold opLogClear
  repeat' first
    | with_reducible assumption
    | ((try lift_lets); intro x; refine (show State.Inv x → _ from ?_) ?_; (on_goal 2 => subst x); (on_goal 1 => (intro hx; clear_value x)))
    | ((try lift_lets); intro x; clear_value x)
    | fail_if_no_progress (with_reducible apply inv_upd)
    | with_reducible first | apply State.writeLog_inv | apply State.raiseFw_inv
    | split

theorem execLogClear_inv (s : State) (hs : s.Inv) :
    OutInv (execLogClear s) := by
  unfold execLogClear
  repeat' first
    | with_reducible assumption
    | (intro t ht; have hg : State.Inv t := ht; clear hg)
    | (intro y t ht; have hg : State.Inv t := ht; clear hg)
    | intro _
    | with_reducible first | apply State.when_inv | apply State.runCmd_inv | apply opLogClear_inv | apply outInv_next

theorem State.dropStaging_inv (s : State) (hs : s.Inv) :
    (State.dropStaging s).Inv := by
  unfold State.dropStaging
  repeat' first
    | with_reducible assumption
    | ((try lift_lets); intro x; refine (show State.Inv x → _ from ?_) ?_; (on_goal 2 => subst x); (on_goal 1 => (intro hx; clear_value x)))
    | ((try lift_lets); intro x; clear_value x)
    | fail_if_no_progress (with_reducible apply inv_upd)
    | with_reducible first | apply State.setBank_inv | apply State.set_inv

theorem State.verifyStaged_inv (s : State) (img : ImageCheck) (cs : List (Nat × Nat)) (hs : s.Inv) :
    (State.verifyStaged s img cs).2.Inv := by
  unfold State.verifyStaged
  repeat' first
    | with_reducible assumption
    | ((try lift_lets); intro x; refine (show State.Inv x → _ from ?_) ?_; (on_goal 2 => subst x); (on_goal 1 => (intro hx; clear_value x)))
    | ((try lift_lets); intro x; clear_value x)
    | with_reducible first | apply State.dropStaging_inv | apply State.setBank_inv | apply State.set_inv
        | apply State.raiseFw_inv
    | split

theorem opFwStage_inv (readOk : Bool) (storeOk : Bool) (img : ImageCheck) (c : Cmd) (s : State) (hs : s.Inv) :
    (opFwStage readOk storeOk img c s).2.Inv := by
  unfold opFwStage
  repeat' first
    | with_reducible assumption
    | ((try lift_lets); intro x; refine (show State.Inv x → _ from ?_) ?_; (on_goal 2 => subst x); (on_goal 1 => (intro hx; clear_value x)))
    | ((try lift_lets); intro x; clear_value x)
    | fail_if_no_progress (with_reducible apply inv_upd)
    | with_reducible first | apply State.dropStaging_inv | apply State.emit_inv | apply State.verifyStaged_inv
    | split

theorem execFwStage_inv (readOk : Bool) (storeOk : Bool) (img : ImageCheck) (s : State) (hs : s.Inv) :
    OutInv (execFwStage readOk storeOk img s) := by
  unfold execFwStage
  repeat' first
    | with_reducible assumption
    | (intro t ht; have hg : State.Inv t := ht; clear hg)
    | (intro y t ht; have hg : State.Inv t := ht; clear hg)
    | intro _
    | with_reducible first | apply State.when_inv | apply State.runCmd_inv | apply opFwStage_inv | apply outInv_next

theorem opFwActivate_inv (c : Cmd) (s : State) (hs : s.Inv) :
    (opFwActivate c s).2.Inv := by
  unfold opFwActivate
  repeat' first
    | with_reducible assumption
    | ((try lift_lets); intro x; clear_value x)
    | fail_if_no_progress (with_reducible apply inv_upd)
    | split

theorem execFwActivate_inv (s : State) (hs : s.Inv) :
    OutInv (execFwActivate s) := by
  unfold execFwActivate
  repeat' first
    | with_reducible assumption
    | (intro t ht; have hg : State.Inv t := ht; clear hg)
    | (intro y t ht; have hg : State.Inv t := ht; clear hg)
    | intro _
    | with_reducible first | apply State.when_inv | apply State.runCmd_inv | apply opFwActivate_inv
        | apply State.tryGap_inv | apply outInv_next

theorem opFwAbort_inv (c : Cmd) (s : State) (hs : s.Inv) :
    (opFwAbort c s).2.Inv := by
  unfold opFwAbort
  repeat' first
    | with_reducible assumption
    | ((try lift_lets); intro x; refine (show State.Inv x → _ from ?_) ?_; (on_goal 2 => subst x); (on_goal 1 => (intro hx; clear_value x)))
    | ((try lift_lets); intro x; clear_value x)
    | fail_if_no_progress (with_reducible apply inv_upd)
    | with_reducible first | apply State.dropStaging_inv | apply State.completeOpt_inv
    | split

theorem execFwAbort_inv (s : State) (hs : s.Inv) :
    OutInv (execFwAbort s) := by
  unfold execFwAbort
  repeat' first
    | with_reducible assumption
    | (intro t ht; have hg : State.Inv t := ht; clear hg)
    | (intro y t ht; have hg : State.Inv t := ht; clear hg)
    | intro _
    | with_reducible first | apply State.when_inv | apply State.runCmd_inv | apply opFwAbort_inv
        | apply State.tryGap_inv | apply outInv_next

theorem execFwActivateWaitTimeout_inv (s : State) (hs : s.Inv) :
    OutInv (execFwActivateWaitTimeout s) := by
  unfold execFwActivateWaitTimeout
  repeat' first
    | with_reducible assumption
    | (intro t ht; have hg : State.Inv t := ht; clear hg)
    | ((try lift_lets); intro x; clear_value x)
    | intro _
    | fail_if_no_progress (with_reducible apply inv_upd)
    | with_reducible first | apply State.when_inv | apply State.complete_inv | apply outInv_next
    | split

theorem execActivationTimeout_inv (supervisor : Bool) (s : State) (hs : s.Inv) :
    OutInv (execActivationTimeout supervisor s) := by
  unfold execActivationTimeout
  repeat' first
    | with_reducible assumption
    | (intro t ht; have hg : State.Inv t := ht; clear hg)
    | intro _
    | fail_if_no_progress (with_reducible apply inv_upd)
    | with_reducible first | apply State.when_inv | apply State.failGap_inv | apply outInv_next
    | split

theorem execProbationEnd_inv (fuseOk : Bool) (s : State) (hs : s.Inv) :
    OutInv (execProbationEnd fuseOk s) := by
  unfold execProbationEnd
  repeat' first
    | with_reducible assumption
    | (intro t ht; have hg : State.Inv t := ht; clear hg)
    | ((try lift_lets); intro x; clear_value x)
    | intro _
    | with_reducible first | apply State.when_inv | apply State.setRecord_inv | apply State.advance_inv
        | apply State.raiseFw_inv | apply State.set_inv | apply outInv_next

theorem State.setCfgSlot_inv (s : State) (n : Nat) (x : CfgSlot) (hs : s.Inv) :
    (State.setCfgSlot s n x).Inv := by
  unfold State.setCfgSlot
  repeat' first
    | with_reducible assumption
    | ((try lift_lets); intro x; clear_value x)
    | fail_if_no_progress (with_reducible apply inv_upd)

theorem State.swapSlot_inv (s : State) (hs : s.Inv) :
    (State.swapSlot s).Inv := by
  unfold State.swapSlot
  repeat' first
    | with_reducible assumption
    | ((try lift_lets); intro x; refine (show State.Inv x → _ from ?_) ?_; (on_goal 2 => subst x); (on_goal 1 => (intro hx; clear_value x)))
    | ((try lift_lets); intro x; clear_value x)
    | fail_if_no_progress (with_reducible apply inv_upd)
    | with_reducible first | apply State.set_inv | apply State.raiseFw_inv

theorem opCommitImage_inv (readOk : Bool) (storeOk : Bool) (image : List Byte) (c : Cmd) (s : State) (hs : s.Inv) :
    (opCommitImage readOk storeOk image c s).2.Inv := by
  unfold opCommitImage
  repeat' first
    | with_reducible assumption
    | ((try lift_lets); intro x; refine (show State.Inv x → _ from ?_) ?_; (on_goal 2 => subst x); (on_goal 1 => (intro hx; clear_value x)))
    | fail_if_no_progress (with_reducible apply inv_upd)
    | with_reducible first | apply State.emit_inv | apply State.setCfgSlot_inv | apply State.swapSlot_inv
        | apply State.set_inv
    | split

theorem execConfigCommitImage_inv (readOk : Bool) (storeOk : Bool) (image : List Byte) (s : State) (hs : s.Inv) :
    OutInv (execConfigCommitImage readOk storeOk image s) := by
  unfold execConfigCommitImage
  repeat' first
    | with_reducible assumption
    | (intro t ht; have hg : State.Inv t := ht; clear hg)
    | (intro y t ht; have hg : State.Inv t := ht; clear hg)
    | intro _
    | with_reducible first | apply State.when_inv | apply State.runCmd_inv | apply opCommitImage_inv
        | apply outInv_next

theorem opCommitSwap_inv (storeOk : Bool) (c : Cmd) (s : State) (hs : s.Inv) :
    (opCommitSwap storeOk c s).2.Inv := by
  unfold opCommitSwap
  repeat' first
    | with_reducible assumption
    | with_reducible first | apply State.swapSlot_inv
    | split

theorem execConfigCommitSwap_inv (storeOk : Bool) (s : State) (hs : s.Inv) :
    OutInv (execConfigCommitSwap storeOk s) := by
  unfold execConfigCommitSwap
  repeat' first
    | with_reducible assumption
    | (intro t ht; have hg : State.Inv t := ht; clear hg)
    | (intro y t ht; have hg : State.Inv t := ht; clear hg)
    | intro _
    | with_reducible first | apply State.when_inv | apply State.runCmd_inv | apply opCommitSwap_inv
        | apply outInv_next

theorem State.endTrial_inv (s : State) (hs : s.Inv) :
    (State.endTrial s).Inv := by
  unfold State.endTrial
  repeat' first
    | with_reducible assumption
    | with_reducible first | apply State.oldBank_inv
    | split

theorem State.startBank_inv (s : State) (fuseOk : Bool) (hs : s.Inv) :
    (State.startBank s fuseOk).Inv := by
  unfold State.startBank
  repeat' first
    | with_reducible assumption
    | ((try lift_lets); intro x; refine (show State.Inv x → _ from ?_) ?_; (on_goal 2 => subst x); (on_goal 1 => (intro hx; clear_value x)))
    | ((try lift_lets); intro x; clear_value x)
    | fail_if_no_progress (with_reducible apply inv_upd)
    | with_reducible first | apply State.set_inv | apply State.advance_inv | apply State.bootScan_inv
    | split

theorem State.enterRecovery_inv (s : State) (hs : s.Inv) :
    (State.enterRecovery s).Inv := by
  unfold State.enterRecovery
  repeat' first
    | with_reducible assumption
    | ((try lift_lets); intro x; refine (show State.Inv x → _ from ?_) ?_; (on_goal 2 => subst x); (on_goal 1 => (intro hx; clear_value x)))
    | ((try lift_lets); intro x; clear_value x)
    | fail_if_no_progress (with_reducible apply inv_upd)
    | with_reducible first | apply State.set_inv | apply State.goAlone_inv

theorem execBootRomVerify_inv (img0 : ImageCheck) (img1 : ImageCheck) (fuseOk : Bool) (s : State) (hs : s.Inv) :
    OutInv (execBootRomVerify img0 img1 fuseOk s) := by
  unfold execBootRomVerify
  repeat' first
    | with_reducible assumption
    | (intro t ht; have hg : State.Inv t := ht; clear hg)
    | ((try lift_lets); intro x; refine (show State.Inv x → _ from ?_) ?_; (on_goal 2 => subst x); (on_goal 1 => (intro hx; clear_value x)))
    | intro _
    | with_reducible first | apply State.when_inv | apply State.setBank_inv | apply State.endTrial_inv
        | apply State.startBank_inv | apply State.setRecord_inv | apply State.raiseFault_inv
        | apply State.enterRecovery_inv | apply State.set_inv | apply outInv_next
    | split

end Sys2Proof.Machine
end

