-- ==== Sys2Proof/Laws/InvTimers.lean ====
section
/-! SUPPORT. Every operation of Machine/Timers.lean keeps the canonical form of the register space. -/

set_option Elab.async false

namespace Sys2Proof.Machine

theorem State.setCmp_inv (s : State) (n : Fin 8) (c : Nat) (hs : s.Inv) :
    (State.setCmp s n c).Inv := by
  unfold State.setCmp
  repeat' first
    | with_reducible assumption
    | ((try lift_lets); intro x; refine (show State.Inv x → _ from ?_) ?_; (on_goal 2 => subst x); (on_goal 1 => (intro hx; clear_value x)))
    | ((try lift_lets); intro x; clear_value x)
    | fail_if_no_progress (with_reducible apply inv_upd)
    | with_reducible first | apply State.set_inv
    | split

theorem State.cmpFire_inv (s : State) (n : Fin 8) (frame : Nat) (hs : s.Inv) :
    (State.cmpFire s n frame).Inv := by
  unfold State.cmpFire
  repeat' first
    | with_reducible assumption
    | ((try lift_lets); intro x; refine (show State.Inv x → _ from ?_) ?_; (on_goal 2 => subst x); (on_goal 1 => (intro hx; clear_value x)))
    | ((try lift_lets); intro x; clear_value x)
    | with_reducible first | apply State.set_inv | apply State.setCmp_inv | apply State.setSat_inv
        | apply State.wakeUp_inv | apply State.trigAll_inv
    | split

theorem State.cmpCheck_inv (s : State) (n : Fin 8) (frame : Nat) (hs : s.Inv) :
    (State.cmpCheck s n frame).Inv := by
  unfold State.cmpCheck
  repeat' first
    | with_reducible assumption
    | with_reducible first | apply State.cmpFire_inv
    | split

theorem execAonCmpFire_inv (n : Fin 8) (frame : Nat) (s : State) (hs : s.Inv) :
    OutInv (execAonCmpFire n frame s) := by
  unfold execAonCmpFire
  repeat' first
    | with_reducible assumption
    | (intro t ht; have hg : State.Inv t := ht; clear hg)
    | intro _
    | with_reducible first | apply State.when_inv | apply State.cmpCheck_inv | apply outInv_next

theorem State.ftSync_inv (s : State) (n : Nat) (count : Nat) (up : Bool) (hs : s.Inv) :
    (State.ftSync s n count up).Inv := by
  unfold State.ftSync
  repeat' first
    | with_reducible assumption
    | with_reducible first | apply State.set_inv | apply State.setb_inv
    | split

theorem State.ftStart_inv (s : State) (n : Nat) (hs : s.Inv) :
    (State.ftStart s n).Inv := by
  unfold State.ftStart
  repeat' first
    | with_reducible assumption
    | ((try lift_lets); intro x; clear_value x)
    | with_reducible first | apply State.setb_inv

theorem State.ftCapture_inv (s : State) (n : Nat) (hs : s.Inv) :
    (State.ftCapture s n).Inv := by
  unfold State.ftCapture
  repeat' first
    | with_reducible assumption
    | ((try lift_lets); intro x; refine (show State.Inv x → _ from ?_) ?_; (on_goal 2 => subst x); (on_goal 1 => (intro hx; clear_value x)))
    | with_reducible first | apply State.set_inv
    | split

theorem State.ftCfg_inv (s : State) (n : Nat) (was : Word) (data : Word) (count : Nat) (up : Bool) (hs : s.Inv) :
    (State.ftCfg s n was data count up).Inv := by
  unfold State.ftCfg
  repeat' first
    | with_reducible assumption
    | ((try lift_lets); intro x; refine (show State.Inv x → _ from ?_) ?_; (on_goal 2 => subst x); (on_goal 1 => (intro hx; clear_value x)))
    | ((try lift_lets); intro x; clear_value x)
    | with_reducible first | apply State.set_inv | apply State.setb_inv | apply State.ftStart_inv
        | apply State.ftCapture_inv
    | split

theorem State.ftMatch_inv (s : State) (n : Nat) (k : Fin 2) (frame : Nat) (hs : s.Inv) :
    (State.ftMatch s n k frame).Inv := by
  unfold State.ftMatch
  repeat' first
    | with_reducible assumption
    | ((try lift_lets); intro x; refine (show State.Inv x → _ from ?_) ?_; (on_goal 2 => subst x); (on_goal 1 => (intro hx; clear_value x)))
    | ((try lift_lets); intro x; clear_value x)
    | with_reducible first | apply State.set_inv | apply State.setb_inv | apply State.trigAll_inv
    | split

theorem State.cmpWritten_inv (s : State) (n : Nat) (k : Fin 2) (count : Nat) (up : Bool) (frame : Nat) (hs : s.Inv) :
    (State.cmpWritten s n k count up frame).Inv := by
  unfold State.cmpWritten
  repeat' first
    | with_reducible assumption
    | ((try lift_lets); intro x; refine (show State.Inv x → _ from ?_) ?_; (on_goal 2 => subst x); (on_goal 1 => (intro hx; clear_value x)))
    | with_reducible first | apply State.ftSync_inv | apply State.ftMatch_inv
    | split

theorem execFtEnable_inv (ini : Initiator) (n : Fin 16) (data : Word) (full : Bool) (s : State) (hs : s.Inv) :
    OutInv (execFtEnable ini n data full s) := by
  unfold execFtEnable
  repeat' first
    | with_reducible assumption
    | (intro t ht; have hg : State.Inv t := ht; clear hg)
    | (intro y t ht; have hg : State.Inv t := ht; clear hg)
    | intro _
    | with_reducible first | apply State.when_inv | apply State.rowWrite_inv | apply State.ftCfg_inv
        | apply outInv_next

theorem execFtDisable_inv (ini : Initiator) (n : Fin 16) (data : Word) (full : Bool) (count : Nat) (up : Bool) (s : State) (hs : s.Inv) :
    OutInv (execFtDisable ini n data full count up s) := by
  unfold execFtDisable
  repeat' first
    | with_reducible assumption
    | (intro t ht; have hg : State.Inv t := ht; clear hg)
    | (intro y t ht; have hg : State.Inv t := ht; clear hg)
    | intro _
    | with_reducible first | apply State.when_inv | apply State.rowWrite_inv | apply State.ftCfg_inv
        | apply outInv_next

theorem execFtCaptureNow_inv (ini : Initiator) (n : Fin 16) (data : Word) (full : Bool) (count : Nat) (up : Bool) (s : State) (hs : s.Inv) :
    OutInv (execFtCaptureNow ini n data full count up s) := by
  unfold execFtCaptureNow
  repeat' first
    | with_reducible assumption
    | (intro t ht; have hg : State.Inv t := ht; clear hg)
    | (intro y t ht; have hg : State.Inv t := ht; clear hg)
    | intro _
    | with_reducible first | apply State.when_inv | apply State.rowWrite_inv | apply State.ftCfg_inv
        | apply outInv_next

theorem State.cntWritten_inv (s : State) (n : Nat) (up : Bool) (hs : s.Inv) :
    (State.cntWritten s n up).Inv := by
  unfold State.cntWritten
  repeat' first
    | with_reducible assumption
    | ((try lift_lets); intro x; refine (show State.Inv x → _ from ?_) ?_; (on_goal 2 => subst x); (on_goal 1 => (intro hx; clear_value x)))
    | ((try lift_lets); intro x; clear_value x)
    | with_reducible first | apply State.ftSync_inv | apply State.set_inv
    | split

theorem execFtCntWrite_inv (ini : Initiator) (n : Fin 16) (data : Word) (full : Bool) (up : Bool) (s : State) (hs : s.Inv) :
    OutInv (execFtCntWrite ini n data full up s) := by
  unfold execFtCntWrite
  repeat' first
    | with_reducible assumption
    | (intro t ht; have hg : State.Inv t := ht; clear hg)
    | (intro y t ht; have hg : State.Inv t := ht; clear hg)
    | intro _
    | with_reducible first | apply State.when_inv | apply State.rowWrite_inv | apply State.cntWritten_inv
        | apply outInv_next

theorem execFtTopWrite_inv (ini : Initiator) (n : Fin 16) (data : Word) (full : Bool) (count : Nat) (up : Bool) (s : State) (hs : s.Inv) :
    OutInv (execFtTopWrite ini n data full count up s) := by
  unfold execFtTopWrite
  repeat' first
    | with_reducible assumption
    | (intro t ht; have hg : State.Inv t := ht; clear hg)
    | (intro y t ht; have hg : State.Inv t := ht; clear hg)
    | intro _
    | with_reducible first | apply State.when_inv | apply State.rowWrite_inv | apply State.ftSync_inv
        | apply outInv_next

theorem execFtCmpWrite_inv (ini : Initiator) (n : Fin 16) (k : Fin 2) (data : Word) (full : Bool) (count : Nat) (up : Bool) (frame : Nat) (s : State) (hs : s.Inv) :
    OutInv (execFtCmpWrite ini n k data full count up frame s) := by
  unfold execFtCmpWrite
  repeat' first
    | with_reducible assumption
    | (intro t ht; have hg : State.Inv t := ht; clear hg)
    | (intro y t ht; have hg : State.Inv t := ht; clear hg)
    | intro _
    | with_reducible first | apply State.when_inv | apply State.rowWrite_inv | apply State.cmpWritten_inv
        | apply outInv_next

theorem execFtCompareMatch_inv (n : Fin 16) (k : Fin 2) (up : Bool) (frame : Nat) (s : State) (hs : s.Inv) :
    OutInv (execFtCompareMatch n k up frame s) := by
  unfold execFtCompareMatch
  repeat' first
    | with_reducible assumption
    | (intro t ht; have hg : State.Inv t := ht; clear hg)
    | ((try lift_lets); intro x; clear_value x)
    | intro _
    | with_reducible first | apply State.when_inv | apply State.set_inv | apply State.setb_inv
        | apply State.ftMatch_inv | apply outInv_next

theorem execFtWrap_inv (n : Fin 16) (s : State) (hs : s.Inv) :
    OutInv (execFtWrap n s) := by
  unfold execFtWrap
  repeat' first
    | with_reducible assumption
    | (intro t ht; have hg : State.Inv t := ht; clear hg)
    | ((try lift_lets); intro x; clear_value x)
    | intro _
    | with_reducible first | apply State.when_inv | apply State.set_inv | apply State.setb_inv | apply outInv_next

theorem execFtCaptureEdge_inv (n : Fin 16) (rise : Bool) (count : Nat) (up : Bool) (s : State) (hs : s.Inv) :
    OutInv (execFtCaptureEdge n rise count up s) := by
  unfold execFtCaptureEdge
  repeat' first
    | with_reducible assumption
    | (intro t ht; have hg : State.Inv t := ht; clear hg)
    | ((try lift_lets); intro x; clear_value x)
    | intro _
    | with_reducible first | apply State.when_inv | apply State.ftSync_inv | apply State.ftCapture_inv
        | apply outInv_next

theorem execDebugHalt_inv (counts : List (Nat × Bool)) (s : State) (hs : s.Inv) :
    OutInv (execDebugHalt counts s) := by
  unfold execDebugHalt
  repeat' first
    | with_reducible assumption
    | (intro t ht; have hg : State.Inv t := ht; clear hg)
    | (intro t y ht; have hg : State.Inv t := ht; clear hg)
    | ((try lift_lets); intro x; refine (show State.Inv x → _ from ?_) ?_; (on_goal 2 => subst x); (on_goal 1 => (intro hx; clear_value x)))
    | ((try lift_lets); intro x; clear_value x)
    | intro _
    | fail_if_no_progress (with_reducible apply inv_upd)
    | with_reducible first | apply State.when_inv | apply State.ftSync_inv | apply outInv_next | apply inv_foldl
        | apply inv_foldlFst | apply inv_foldlSnd
    | split

theorem execDebugResume_inv (s : State) (hs : s.Inv) :
    OutInv (execDebugResume s) := by
  unfold execDebugResume
  repeat' first
    | with_reducible assumption
    | (intro t ht; have hg : State.Inv t := ht; clear hg)
    | ((try lift_lets); intro x; clear_value x)
    | intro _
    | fail_if_no_progress (with_reducible apply inv_upd)
    | with_reducible first | apply State.when_inv | apply outInv_next

theorem execGpioEdge_inv (n : Fin 8) (rise : Bool) (frame : Nat) (s : State) (hs : s.Inv) :
    OutInv (execGpioEdge n rise frame s) := by
  unfold execGpioEdge
  repeat' first
    | with_reducible assumption
    | (intro t ht; have hg : State.Inv t := ht; clear hg)
    | ((try lift_lets); intro x; refine (show State.Inv x → _ from ?_) ?_; (on_goal 2 => subst x); (on_goal 1 => (intro hx; clear_value x)))
    | ((try lift_lets); intro x; clear_value x)
    | intro _
    | with_reducible first | apply State.when_inv | apply State.setBit_inv | apply State.wakeUp_inv
        | apply State.trigAll_inv | apply State.set_inv | apply outInv_next
    | split

theorem execGpioCfgWrite_inv (ini : Initiator) (n : Fin 8) (data : Word) (full : Bool) (s : State) (hs : s.Inv) :
    OutInv (execGpioCfgWrite ini n data full s) := by
  unfold execGpioCfgWrite
  repeat' first
    | with_reducible assumption
    | (intro t ht; have hg : State.Inv t := ht; clear hg)
    | (intro y t ht; have hg : State.Inv t := ht; clear hg)
    | intro _
    | with_reducible first | apply State.when_inv | apply State.rowWrite_inv | apply outInv_next

end Sys2Proof.Machine
end

