-- ==== Sys2Proof/Laws/InvMailbox.lean ====
section
/-! SUPPORT. Every operation of Machine/Mailbox.lean keeps the canonical form of the register space. -/

set_option Elab.async false

namespace Sys2Proof.Machine

theorem State.setH2u_inv (s : State) (ws : List Word) (hs : s.Inv) :
    (State.setH2u s ws).Inv := by
  unfold State.setH2u
  repeat' first
    | with_reducible assumption
    | ((try lift_lets); intro x; refine (show State.Inv x → _ from ?_) ?_; (on_goal 2 => subst x); (on_goal 1 => (intro hx; clear_value x)))
    | ((try lift_lets); intro x; clear_value x)
    | fail_if_no_progress (with_reducible apply inv_upd)
    | with_reducible first | apply State.set_inv

theorem State.setU2h_inv (s : State) (ws : List Word) (hs : s.Inv) :
    (State.setU2h s ws).Inv := by
  unfold State.setU2h
  repeat' first
    | with_reducible assumption
    | ((try lift_lets); intro x; refine (show State.Inv x → _ from ?_) ?_; (on_goal 2 => subst x); (on_goal 1 => (intro hx; clear_value x)))
    | ((try lift_lets); intro x; clear_value x)
    | fail_if_no_progress (with_reducible apply inv_upd)
    | with_reducible first | apply State.set_inv

theorem State.pushH2u_inv (s : State) (w : Word) (hs : s.Inv) :
    (State.pushH2u s w).Inv := by
  unfold State.pushH2u
  repeat' first
    | with_reducible assumption
    | with_reducible first | apply State.setH2u_inv | apply State.set_inv
    | split

theorem execH2uPush_inv (ini : Initiator) (data : Word) (full : Bool) (s : State) (hs : s.Inv) :
    OutInv (execH2uPush ini data full s) := by
  unfold execH2uPush
  repeat' first
    | with_reducible assumption
    | (intro t ht; have hg : State.Inv t := ht; clear hg)
    | (intro y t ht; have hg : State.Inv t := ht; clear hg)
    | intro _
    | with_reducible first | apply State.when_inv | apply State.rowWrite_inv | apply State.pushH2u_inv
        | apply outInv_next
    | split

theorem State.ackH2u_inv (s : State) (tag : Nat) (status : Nat) (hs : s.Inv) :
    (State.ackH2u s tag status).Inv := by
  unfold State.ackH2u
  repeat' first
    | with_reducible assumption
    | with_reducible first | apply State.set_inv | apply State.fire_inv

theorem State.answer_inv (s : State) (r : MbxReply) (hs : s.Inv) :
    (State.answer s r).Inv := by
  unfold State.answer
  repeat' first
    | with_reducible assumption
    | ((try lift_lets); intro x; refine (show State.Inv x → _ from ?_) ?_; (on_goal 2 => subst x); (on_goal 1 => (intro hx; clear_value x)))
    | ((try lift_lets); intro x; clear_value x)
    | fail_if_no_progress (with_reducible apply inv_upd)
    | with_reducible first | apply State.setU2h_inv | apply State.set_inv | apply State.ackH2u_inv
    | split

theorem State.serve_inv (s : State) (svc : Nat) (lens : List Nat) (op : MbxMsg → State → Nat × Option (List Word) × State)
    (hs : s.Inv) (hop : ∀ m t, t.Inv → (op m t).2.2.Inv) : (s.serve svc lens op).Inv := by
  unfold State.serve
  split
  · exact hs
  · split
    · exact hs
    · dsimp only
      split
      · exact State.answer_inv _ _ (State.setH2u_inv _ _ hs)
      · exact State.answer_inv _ _ (hop _ _ (State.setH2u_inv _ _ hs))

theorem execMbxMessageServe_inv (s : State) (hs : s.Inv) :
    OutInv (execMbxMessageServe s) := by
  unfold execMbxMessageServe
  repeat' first
    | with_reducible assumption
    | (intro t ht; have hg : State.Inv t := ht; clear hg)
    | intro _
    | fail_if_no_progress (with_reducible apply inv_upd)
    | with_reducible first | apply State.when_inv | apply State.answer_inv | apply State.setH2u_inv
        | apply State.set_inv | apply outInv_next
    | split

theorem State.ackU2h_inv (s : State) (ini : Initiator) (was : Word) (data : Word) (hs : s.Inv) :
    (State.ackU2h s ini was data).Inv := by
  unfold State.ackU2h
  repeat' first
    | with_reducible assumption
    | with_reducible first | apply State.setWord_inv | apply State.set_inv
    | split

theorem execU2hAckWrite_inv (ini : Initiator) (data : Word) (full : Bool) (s : State) (hs : s.Inv) :
    OutInv (execU2hAckWrite ini data full s) := by
  unfold execU2hAckWrite
  repeat' first
    | with_reducible assumption
    | (intro t ht; have hg : State.Inv t := ht; clear hg)
    | (intro y t ht; have hg : State.Inv t := ht; clear hg)
    | intro _
    | with_reducible first | apply State.when_inv | apply State.rowWrite_inv | apply State.ackU2h_inv
        | apply outInv_next

theorem execEcho_inv (s : State) (hs : s.Inv) :
    OutInv (execEcho s) := by
  unfold execEcho
  repeat' first
    | with_reducible assumption
    | (intro t ht; have hg : State.Inv t := ht; clear hg)
    | (intro y t ht; have hg : State.Inv t := ht; clear hg)
    | intro _
    | with_reducible first | apply State.when_inv | apply State.serve_inv | apply outInv_next

theorem execFwInfo_inv (s : State) (hs : s.Inv) :
    OutInv (execFwInfo s) := by
  unfold execFwInfo
  repeat' first
    | with_reducible assumption
    | (intro t ht; have hg : State.Inv t := ht; clear hg)
    | (intro y t ht; have hg : State.Inv t := ht; clear hg)
    | intro _
    | with_reducible first | apply State.when_inv | apply State.serve_inv | apply outInv_next

theorem opLogEntry_inv (m : MbxMsg) (s : State) (hs : s.Inv) :
    (opLogEntry m s).2.2.Inv := by
  unfold opLogEntry
  repeat' first
    | with_reducible assumption
    | ((try lift_lets); intro x; clear_value x)
    | intro _
    | fail_if_no_progress (with_reducible apply inv_upd)
    | split

theorem execLogEntry_inv (s : State) (hs : s.Inv) :
    OutInv (execLogEntry s) := by
  unfold execLogEntry
  repeat' first
    | with_reducible assumption
    | (intro t ht; have hg : State.Inv t := ht; clear hg)
    | (intro y t ht; have hg : State.Inv t := ht; clear hg)
    | intro _
    | with_reducible first | apply State.when_inv | apply State.serve_inv | apply opLogEntry_inv | apply outInv_next

theorem State.newNonce_inv (s : State) (hs : s.Inv) :
    (State.newNonce s).Inv := by
  unfold State.newNonce
  repeat' first
    | with_reducible assumption
    | with_reducible first | apply State.draw_inv | apply State.set_inv

theorem State.debugOff_inv (s : State) (hs : s.Inv) :
    (State.debugOff s).Inv := by
  unfold State.debugOff
  repeat' first
    | with_reducible assumption
    | with_reducible first | apply State.set_inv | apply State.freeLocks_inv | apply State.raiseFw_inv
    | split

theorem opDbgUnlock_inv (verifies : Bool) (m : MbxMsg) (s : State) (hs : s.Inv) :
    (opDbgUnlock verifies m s).2.2.Inv := by
  unfold opDbgUnlock
  repeat' first
    | with_reducible assumption
    | ((try lift_lets); intro x; refine (show State.Inv x → _ from ?_) ?_; (on_goal 2 => subst x); (on_goal 1 => (intro hx; clear_value x)))
    | ((try lift_lets); intro x; clear_value x)
    | fail_if_no_progress (with_reducible apply inv_upd)
    | with_reducible first | apply State.newNonce_inv | apply State.set_inv | apply State.raiseFw_inv
    | split

theorem execDbgUnlock_inv (verifies : Bool) (s : State) (hs : s.Inv) :
    OutInv (execDbgUnlock verifies s) := by
  unfold execDbgUnlock
  repeat' first
    | with_reducible assumption
    | (intro t ht; have hg : State.Inv t := ht; clear hg)
    | (intro y t ht; have hg : State.Inv t := ht; clear hg)
    | intro _
    | with_reducible first | apply State.when_inv | apply State.serve_inv | apply opDbgUnlock_inv | apply outInv_next

theorem execDbgLock_inv (s : State) (hs : s.Inv) :
    OutInv (execDbgLock s) := by
  unfold execDbgLock
  repeat' first
    | with_reducible assumption
    | (intro t ht; have hg : State.Inv t := ht; clear hg)
    | (intro y t ht; have hg : State.Inv t := ht; clear hg)
    | intro _
    | with_reducible first | apply State.when_inv | apply State.serve_inv | apply State.debugOff_inv
        | apply outInv_next

theorem opRecoverWrite_inv (m : MbxMsg) (s : State) (hs : s.Inv) :
    (opRecoverWrite m s).2.2.Inv := by
  unfold opRecoverWrite
  repeat' first
    | with_reducible assumption
    | with_reducible first | apply State.setBank_inv | apply State.set_inv
    | split

theorem execRecoverWrite_inv (s : State) (hs : s.Inv) :
    OutInv (execRecoverWrite s) := by
  unfold execRecoverWrite
  repeat' first
    | with_reducible assumption
    | (intro t ht; have hg : State.Inv t := ht; clear hg)
    | (intro y t ht; have hg : State.Inv t := ht; clear hg)
    | intro _
    | with_reducible first | apply State.when_inv | apply State.serve_inv | apply opRecoverWrite_inv
        | apply outInv_next

theorem State.leaveRecovery_inv (s : State) (hs : s.Inv) :
    (State.leaveRecovery s).Inv := by
  unfold State.leaveRecovery
  repeat' first
    | with_reducible assumption
    | ((try lift_lets); intro x; refine (show State.Inv x → _ from ?_) ?_; (on_goal 2 => subst x); (on_goal 1 => (intro hx; clear_value x)))
    | ((try lift_lets); intro x; clear_value x)
    | fail_if_no_progress (with_reducible apply inv_upd)
    | with_reducible first | apply State.setRecord_inv | apply State.set_inv | apply State.resetJack_inv
        | apply State.armFallback_inv | apply State.bootScan_inv

theorem opRecoverBoot_inv (img : ImageCheck) (u_ : MbxMsg) (s : State) (hs : s.Inv) :
    (opRecoverBoot img u_ s).2.2.Inv := by
  unfold opRecoverBoot
  repeat' first
    | with_reducible assumption
    | ((try lift_lets); intro x; refine (show State.Inv x → _ from ?_) ?_; (on_goal 2 => subst x); (on_goal 1 => (intro hx; clear_value x)))
    | with_reducible first | apply State.setBank_inv | apply State.leaveRecovery_inv | apply State.set_inv
    | split

theorem execRecoverBoot_inv (img : ImageCheck) (s : State) (hs : s.Inv) :
    OutInv (execRecoverBoot img s) := by
  unfold execRecoverBoot
  repeat' first
    | with_reducible assumption
    | (intro t ht; have hg : State.Inv t := ht; clear hg)
    | (intro y t ht; have hg : State.Inv t := ht; clear hg)
    | intro _
    | with_reducible first | apply State.when_inv | apply State.serve_inv | apply opRecoverBoot_inv
        | apply outInv_next

theorem State.takeEc2u_inv (s : State) (hs : s.Inv) :
    (State.takeEc2u s).Inv := by
  unfold State.takeEc2u
  repeat' first
    | with_reducible assumption
    | with_reducible first | apply State.set_inv

theorem State.ecSends_inv (s : State) (w : Word) (hs : s.Inv) :
    (State.ecSends s w).1.Inv := by
  unfold State.ecSends
  repeat' first
    | with_reducible assumption
    | with_reducible first | apply State.setWord_inv | apply State.set_inv
    | split

theorem State.ecTakes_inv (s : State) (hs : s.Inv) :
    (State.ecTakes s).Inv := by
  unfold State.ecTakes
  repeat' first
    | with_reducible assumption
    | with_reducible first | apply State.set_inv | apply State.clearPending_inv
    | split

theorem State.ecAcks_inv (s : State) (v : Nat) (hs : s.Inv) :
    (State.ecAcks s v).Inv := by
  unfold State.ecAcks
  repeat' first
    | with_reducible assumption
    | with_reducible first | apply State.set_inv
    | split

theorem State.unitSends_inv (s : State) (w : Word) (hs : s.Inv) :
    (State.unitSends s w).Inv := by
  unfold State.unitSends
  repeat' first
    | with_reducible assumption
    | ((try lift_lets); intro x; refine (show State.Inv x → _ from ?_) ?_; (on_goal 2 => subst x); (on_goal 1 => (intro hx; clear_value x)))
    | with_reducible first | apply State.setWord_inv | apply State.set_inv | apply State.setPending_inv
    | split

theorem State.ecBoxWrite_inv (s : State) (ini : Initiator) (a : Nat) (was : Word) (data : Word) (hs : s.Inv) :
    (State.ecBoxWrite s ini a was data).Inv := by
  unfold State.ecBoxWrite
  repeat' first
    | with_reducible assumption
    | ((try lift_lets); intro x; refine (show State.Inv x → _ from ?_) ?_; (on_goal 2 => subst x); (on_goal 1 => (intro hx; clear_value x)))
    | with_reducible first | apply State.setWord_inv | apply State.unitSends_inv | apply State.ecSends_inv
        | apply State.set_inv | apply State.ecAcks_inv
    | split

theorem execUnitAckWrite_inv (ini : Initiator) (data : Word) (full : Bool) (s : State) (hs : s.Inv) :
    OutInv (execUnitAckWrite ini data full s) := by
  unfold execUnitAckWrite
  repeat' first
    | with_reducible assumption
    | (intro t ht; have hg : State.Inv t := ht; clear hg)
    | (intro y t ht; have hg : State.Inv t := ht; clear hg)
    | intro _
    | with_reducible first | apply State.when_inv | apply State.rowWrite_inv | apply State.ecBoxWrite_inv
        | apply outInv_next

theorem execU2ecSend_inv (ini : Initiator) (data : Word) (full : Bool) (s : State) (hs : s.Inv) :
    OutInv (execU2ecSend ini data full s) := by
  unfold execU2ecSend
  repeat' first
    | with_reducible assumption
    | (intro t ht; have hg : State.Inv t := ht; clear hg)
    | (intro y t ht; have hg : State.Inv t := ht; clear hg)
    | intro _
    | with_reducible first | apply State.when_inv | apply State.rowWrite_inv | apply State.ecBoxWrite_inv
        | apply outInv_next

theorem State.lockRead_inv (s : State) (ini : Initiator) (n : Nat) (hs : s.Inv) :
    (State.lockRead s ini n).2.Inv := by
  unfold State.lockRead
  repeat' first
    | with_reducible assumption
    | with_reducible first | apply State.setWord_inv | apply State.set_inv
    | split

theorem State.lockWrite_inv (s : State) (ini : Initiator) (n : Nat) (was : Word) (data : Word) (hs : s.Inv) :
    (State.lockWrite s ini n was data).Inv := by
  unfold State.lockWrite
  repeat' first
    | with_reducible assumption
    | ((try lift_lets); intro x; refine (show State.Inv x → _ from ?_) ?_; (on_goal 2 => subst x); (on_goal 1 => (intro hx; clear_value x)))
    | with_reducible first | apply State.setWord_inv | apply State.setBit_inv | apply State.set_inv
    | split

theorem execLockWrite_inv (ini : Initiator) (n : Fin 16) (data : Word) (full : Bool) (s : State) (hs : s.Inv) :
    OutInv (execLockWrite ini n data full s) := by
  unfold execLockWrite
  repeat' first
    | with_reducible assumption
    | (intro t ht; have hg : State.Inv t := ht; clear hg)
    | (intro y t ht; have hg : State.Inv t := ht; clear hg)
    | intro _
    | with_reducible first | apply State.when_inv | apply State.rowWrite_inv | apply State.lockWrite_inv
        | apply outInv_next

theorem State.capRead_inv (s : State) (a : Nat) (hs : s.Inv) :
    (State.capRead s a).Inv := by
  unfold State.capRead
  repeat' first
    | with_reducible assumption
    | ((try lift_lets); intro x; clear_value x)
    | fail_if_no_progress (with_reducible apply inv_upd)
    | with_reducible first | apply State.set_inv
    | split

theorem State.liveCount_inv (s : State) (a : Nat) (r : Word × State) (hs : s.Inv) (h : s.liveCount a = some r) : r.2.Inv := by
  unfold State.liveCount at h
  split at h
  · split at h
    · cases h; exact State.draw_inv _ hs
    · cases h
  · cases h

theorem State.readReg_inv (s : State) (ini : Initiator) (a : Nat) (hs : s.Inv) : (s.readReg ini a).2.Inv := by
  unfold State.readReg
  repeat' first
    | with_reducible assumption
    | split
    | fail_if_no_progress (with_reducible apply inv_upd)
    | with_reducible first | apply State.setU2h_inv | apply State.takeEc2u_inv | apply State.ecTakes_inv
        | apply State.lockRead_inv | apply State.capRead_inv | apply State.set_inv | apply State.setWord_inv
    | exact State.liveCount_inv _ _ _ hs (by assumption)

theorem State.read_inv (s : State) (ini : Initiator) (addr : Nat) (hs : s.Inv) :
    (State.read s ini addr).2.Inv := by
  unfold State.read
  repeat' first
    | with_reducible assumption
    | ((try lift_lets); intro x; refine (show State.Inv x → _ from ?_) ?_; (on_goal 2 => subst x); (on_goal 1 => (intro hx; clear_value x)))
    | ((try lift_lets); intro x; clear_value x)
    | fail_if_no_progress (with_reducible apply inv_upd)
    | with_reducible first | apply State.toL0_inv | apply State.recordRefusal_inv | apply State.readReg_inv
    | split

theorem State.rowRead_inv (s : State) (ini : Initiator) (a : Nat) (hs : s.Inv) :
    (State.rowRead s ini a).Inv := by
  unfold State.rowRead
  repeat' first
    | with_reducible assumption
    | ((try lift_lets); intro x; refine (show State.Inv (Prod.snd x) → _ from ?_) ?_; (on_goal 2 => subst x); (on_goal 1 => (intro hx; clear_value x)))
    | with_reducible first | apply State.read_inv | apply State.emit_inv

theorem execTsLoRead_inv (ini : Initiator) (s : State) (hs : s.Inv) :
    OutInv (execTsLoRead ini s) := by
  unfold execTsLoRead
  repeat' first
    | with_reducible assumption
    | (intro t ht; have hg : State.Inv t := ht; clear hg)
    | intro _
    | with_reducible first | apply State.when_inv | apply State.rowRead_inv | apply outInv_next

theorem execFtCaptRead_inv (ini : Initiator) (n : Fin 16) (s : State) (hs : s.Inv) :
    OutInv (execFtCaptRead ini n s) := by
  unfold execFtCaptRead
  repeat' first
    | with_reducible assumption
    | (intro t ht; have hg : State.Inv t := ht; clear hg)
    | intro _
    | with_reducible first | apply State.when_inv | apply State.rowRead_inv | apply outInv_next

theorem execH2uAckRead_inv (ini : Initiator) (s : State) (hs : s.Inv) :
    OutInv (execH2uAckRead ini s) := by
  unfold execH2uAckRead
  repeat' first
    | with_reducible assumption
    | (intro t ht; have hg : State.Inv t := ht; clear hg)
    | intro _
    | with_reducible first | apply State.when_inv | apply State.rowRead_inv | apply outInv_next

theorem execU2hPop_inv (ini : Initiator) (s : State) (hs : s.Inv) :
    OutInv (execU2hPop ini s) := by
  unfold execU2hPop
  repeat' first
    | with_reducible assumption
    | (intro t ht; have hg : State.Inv t := ht; clear hg)
    | intro _
    | with_reducible first | apply State.when_inv | apply State.rowRead_inv | apply outInv_next

theorem execLockRead_inv (ini : Initiator) (n : Fin 16) (s : State) (hs : s.Inv) :
    OutInv (execLockRead ini n s) := by
  unfold execLockRead
  repeat' first
    | with_reducible assumption
    | (intro t ht; have hg : State.Inv t := ht; clear hg)
    | intro _
    | with_reducible first | apply State.when_inv | apply State.rowRead_inv | apply outInv_next

theorem execEc2uTake_inv (s : State) (hs : s.Inv) :
    OutInv (execEc2uTake s) := by
  unfold execEc2uTake
  repeat' first
    | with_reducible assumption
    | (intro t ht; have hg : State.Inv t := ht; clear hg)
    | intro _
    | with_reducible first | apply State.when_inv | apply State.rowRead_inv | apply outInv_next

end Sys2Proof.Machine
end

