-- ==== Sys2Proof/Laws/InvTwoWire.lean ====
section
/-! SUPPORT. Every operation of Machine/TwoWire.lean keeps the canonical form of the register space. -/

set_option Elab.async false

namespace Sys2Proof.Machine

theorem State.setUdid_inv (s : State) (hs : s.Inv) :
    (State.setUdid s).Inv := by
  unfold State.setUdid
  repeat' first
    | with_reducible assumption
    | (intro t y ht; have hg : State.Inv t := ht; clear hg)
    | ((try lift_lets); intro x; clear_value x)
    | intro _
    | with_reducible first | apply State.set_inv | apply inv_foldl

theorem State.takeAddr_inv (s : State) (a : Nat) (src : Nat) (hs : s.Inv) :
    (State.takeAddr s a src).Inv := by
  unfold State.takeAddr
  repeat' first
    | with_reducible assumption
    | with_reducible first | apply State.set_inv

theorem State.pecError_inv (s : State) (hs : s.Inv) :
    (State.pecError s).Inv := by
  unfold State.pecError
  repeat' first
    | with_reducible assumption
    | with_reducible first | apply State.set_inv | apply State.bump_inv

theorem State.arp_inv (s : State) (pec : Pec) (f : State → State) (hs : s.Inv) (hf : ∀ (x0 : State), x0.Inv → (f x0).Inv) :
    (State.arp s pec f).Inv := by
  unfold State.arp
  repeat' first
    | with_reducible assumption
    | ((try lift_lets); intro x; refine (show State.Inv x → _ from ?_) ?_; (on_goal 2 => subst x); (on_goal 1 => (intro hx; clear_value x)))
    | with_reducible first | apply hf | apply State.set_inv | apply State.pecError_inv
    | split

theorem execArpPrepare_inv (pec : Pec) (s : State) (hs : s.Inv) :
    OutInv (execArpPrepare pec s) := by
  unfold execArpPrepare
  repeat' first
    | with_reducible assumption
    | (intro t ht; have hg : State.Inv t := ht; clear hg)
    | intro _
    | with_reducible first | apply State.when_inv | apply State.arp_inv | apply State.set_inv | apply outInv_next

theorem execArpResetDevice_inv (directed : Option (Fin 128)) (pec : Pec) (s : State) (hs : s.Inv) :
    OutInv (execArpResetDevice directed pec s) := by
  unfold execArpResetDevice
  repeat' first
    | with_reducible assumption
    | (intro t ht; have hg : State.Inv t := ht; clear hg)
    | intro _
    | fail_if_no_progress (with_reducible apply inv_upd)
    | with_reducible first | apply State.when_inv | apply State.arp_inv | apply State.set_inv | apply outInv_next
    | split

theorem execArpGetUdid_inv (won : Bool) (s : State) (hs : s.Inv) :
    OutInv (execArpGetUdid won s) := by
  unfold execArpGetUdid
  repeat' first
    | with_reducible assumption
    | (intro t ht; have hg : State.Inv t := ht; clear hg)
    | ((try lift_lets); intro x; refine (show State.Inv x → _ from ?_) ?_; (on_goal 2 => subst x); (on_goal 1 => (intro hx; clear_value x)))
    | intro _
    | with_reducible first | apply State.when_inv | apply State.set_inv | apply State.emit_inv | apply outInv_next
    | split

theorem execArpGetUdidDirected_inv (addr : Fin 128) (s : State) (hs : s.Inv) :
    OutInv (execArpGetUdidDirected addr s) := by
  unfold execArpGetUdidDirected
  repeat' first
    | with_reducible assumption
    | (intro t ht; have hg : State.Inv t := ht; clear hg)
    | ((try lift_lets); intro x; refine (show State.Inv x → _ from ?_) ?_; (on_goal 2 => subst x); (on_goal 1 => (intro hx; clear_value x)))
    | intro _
    | with_reducible first | apply State.when_inv | apply State.set_inv | apply State.emit_inv | apply outInv_next
    | split

theorem execArpAssignAddress_inv (udid : List Byte) (addr : Fin 128) (pec : Pec) (otherCompat : Bool) (s : State) (hs : s.Inv) :
    OutInv (execArpAssignAddress udid addr pec otherCompat s) := by
  unfold execArpAssignAddress
  repeat' first
    | with_reducible assumption
    | (intro t ht; have hg : State.Inv t := ht; clear hg)
    | intro _
    | with_reducible first | apply State.when_inv | apply State.arp_inv | apply State.set_inv
        | apply State.raiseFault_inv | apply State.takeAddr_inv | apply outInv_next
    | split

theorem State.sendAssign_inv (s : State) (u : Fin 4) (hs : s.Inv) :
    (State.sendAssign s u).Inv := by
  unfold State.sendAssign
  repeat' first
    | with_reducible assumption
    | ((try lift_lets); intro x; clear_value x)
    | fail_if_no_progress (with_reducible apply inv_upd)
    | with_reducible first | apply State.emit_inv
    | split

theorem execMasterAssignStart_inv (s : State) (hs : s.Inv) :
    OutInv (execMasterAssignStart s) := by
  unfold execMasterAssignStart
  repeat' first
    | with_reducible assumption
    | (intro t ht; have hg : State.Inv t := ht; clear hg)
    | ((try lift_lets); intro x; refine (show State.Inv x → _ from ?_) ?_; (on_goal 2 => subst x); (on_goal 1 => (intro hx; clear_value x)))
    | ((try lift_lets); intro x; clear_value x)
    | intro _
    | fail_if_no_progress (with_reducible apply inv_upd)
    | with_reducible first | apply State.when_inv | apply State.takeAddr_inv | apply State.sendAssign_inv
        | apply outInv_next

theorem execAssignRetry_inv (u : Fin 4) (s : State) (hs : s.Inv) :
    OutInv (execAssignRetry u s) := by
  unfold execAssignRetry
  repeat' first
    | with_reducible assumption
    | (intro t ht; have hg : State.Inv t := ht; clear hg)
    | ((try lift_lets); intro x; clear_value x)
    | intro _
    | fail_if_no_progress (with_reducible apply inv_upd)
    | with_reducible first | apply State.when_inv | apply State.set_inv | apply State.sendAssign_inv
        | apply outInv_next

theorem execSelfAssign_inv (s : State) (hs : s.Inv) :
    OutInv (execSelfAssign s) := by
  unfold execSelfAssign
  repeat' first
    | with_reducible assumption
    | (intro t ht; have hg : State.Inv t := ht; clear hg)
    | intro _
    | with_reducible first | apply State.when_inv | apply State.takeAddr_inv | apply outInv_next

theorem execTwbKaAddressMatch_inv (addr : Fin 128) (s : State) (hs : s.Inv) :
    OutInv (execTwbKaAddressMatch addr s) := by
  unfold execTwbKaAddressMatch
  repeat' first
    | with_reducible assumption
    | (intro t ht; have hg : State.Inv t := ht; clear hg)
    | ((try lift_lets); intro x; clear_value x)
    | intro _
    | with_reducible first | apply State.when_inv | apply State.ifDo_inv | apply State.bump_inv
        | apply State.wakeUp_inv | apply outInv_next

theorem State.nativeRead_inv (s : State) (f : State → State) (hs : s.Inv) (hf : ∀ (x0 : State), x0.Inv → (f x0).Inv) :
    (State.nativeRead s f).Inv := by
  unfold State.nativeRead
  repeat' first
    | with_reducible assumption
    | (intro t ht; have hg : State.Inv t := ht; clear hg)
    | intro _
    | with_reducible first | apply hf | apply State.when_inv | apply State.bump_inv
    | split

theorem execTwbWriteApplied_inv (s : State) (hs : s.Inv) :
    OutInv (execTwbWriteApplied s) := by
  unfold execTwbWriteApplied
  repeat' first
    | with_reducible assumption
    | (intro t ht; have hg : State.Inv t := ht; clear hg)
    | ((try lift_lets); intro x; clear_value x)
    | intro _
    | fail_if_no_progress (with_reducible apply inv_upd)
    | with_reducible first | apply State.when_inv | apply outInv_next

theorem State.setLast_inv (s : State) (code : Nat) (status : Nat) (hs : s.Inv) :
    (State.setLast s code status).Inv := by
  unfold State.setLast
  repeat' first
    | with_reducible assumption
    | with_reducible first | apply State.set_inv

theorem State.nativeWrite_inv (s : State) (code : Nat) (block slow : Bool) (len : Nat) (w : TwiWrite)
    (op : List Byte → State → Nat × State) (hs : s.Inv) (hop : ∀ x t, t.Inv → (op x t).2.Inv) :
    (s.nativeWrite code block slow len w op).Inv := by
  unfold State.nativeWrite
  apply State.when_inv _ _ _ hs
  intro t ht
  dsimp only
  repeat' first
    | with_reducible assumption
    | split
    | fail_if_no_progress (with_reducible apply inv_upd)
    | with_reducible first | apply hop | apply State.setLast_inv | apply State.ifDo_inv | apply State.pecError_inv
        | apply State.set_inv | apply State.bump_inv
    | intro _ _

theorem execTwbStatus_inv (s : State) (hs : s.Inv) :
    OutInv (execTwbStatus s) := by
  unfold execTwbStatus
  repeat' first
    | with_reducible assumption
    | (intro t ht; have hg : State.Inv t := ht; clear hg)
    | intro _
    | with_reducible first | apply State.nativeRead_inv | apply State.emit_inv | apply outInv_next

theorem execEventSummary_inv (s : State) (hs : s.Inv) :
    OutInv (execEventSummary s) := by
  unfold execEventSummary
  repeat' first
    | with_reducible assumption
    | (intro t ht; have hg : State.Inv t := ht; clear hg)
    | intro _
    | with_reducible first | apply State.nativeRead_inv | apply State.emit_inv | apply outInv_next

theorem execEventAck_inv (w : TwiWrite) (s : State) (hs : s.Inv) :
    OutInv (execEventAck w s) := by
  unfold execEventAck
  repeat' first
    | with_reducible assumption
    | (intro y t ht; have hg : State.Inv t := ht; clear hg)
    | intro _
    | with_reducible first | apply State.nativeWrite_inv | apply State.clearPending_inv | apply outInv_next

theorem execLastResult_inv (s : State) (hs : s.Inv) :
    OutInv (execLastResult s) := by
  unfold execLastResult
  repeat' first
    | with_reducible assumption
    | (intro t ht; have hg : State.Inv t := ht; clear hg)
    | intro _
    | with_reducible first | apply State.nativeRead_inv | apply State.emit_inv | apply outInv_next

theorem State.processCall_inv (s : State) (count : Nat) (len : Nat) (f : State → State) (hs : s.Inv) (hf : ∀ (x0 : State), x0.Inv → (f x0).Inv) :
    (State.processCall s count len f).Inv := by
  unfold State.processCall
  repeat' first
    | with_reducible assumption
    | (intro t ht; have hg : State.Inv t := ht; clear hg)
    | intro _
    | with_reducible first | apply hf | apply State.nativeRead_inv | apply State.set_inv
    | split

theorem execLastEvent_inv (count : Nat) (typ : Nat) (s : State) (hs : s.Inv) :
    OutInv (execLastEvent count typ s) := by
  unfold execLastEvent
  repeat' first
    | with_reducible assumption
    | (intro t ht; have hg : State.Inv t := ht; clear hg)
    | intro _
    | with_reducible first | apply State.processCall_inv | apply State.emit_inv | apply outInv_next

theorem execRegRead_inv (count : Nat) (addr : Nat) (s : State) (hs : s.Inv) :
    OutInv (execRegRead count addr s) := by
  unfold execRegRead
  repeat' first
    | with_reducible assumption
    | (intro t ht; have hg : State.Inv t := ht; clear hg)
    | ((try lift_lets); intro x; refine (show State.Inv (Prod.snd x) → _ from ?_) ?_; (on_goal 2 => subst x); (on_goal 1 => (intro hx; clear_value x)))
    | ((try lift_lets); intro x; clear_value x)
    | intro _
    | fail_if_no_progress (with_reducible apply inv_upd)
    | with_reducible first | apply State.processCall_inv | apply State.read_inv | apply State.emit_inv
        | apply outInv_next

theorem State.submitEc_inv (s : State) (e : List Byte) (hs : s.Inv) :
    (State.submitEc s e).2.Inv := by
  unfold State.submitEc
  repeat' first
    | with_reducible assumption
    | ((try lift_lets); intro x; refine (show State.Inv x → _ from ?_) ?_; (on_goal 2 => subst x); (on_goal 1 => (intro hx; clear_value x)))
    | ((try lift_lets); intro x; clear_value x)
    | fail_if_no_progress (with_reducible apply inv_upd)
    | with_reducible first | apply State.set_inv | apply State.takeEntry_inv | apply State.settle_inv
    | split

theorem execCmdSubmit_inv (w : TwiWrite) (s : State) (hs : s.Inv) :
    OutInv (execCmdSubmit w s) := by
  unfold execCmdSubmit
  repeat' first
    | with_reducible assumption
    | (intro y t ht; have hg : State.Inv t := ht; clear hg)
    | intro _
    | with_reducible first | apply State.nativeWrite_inv | apply State.submitEc_inv | apply outInv_next

theorem execCplRead_inv (s : State) (hs : s.Inv) :
    OutInv (execCplRead s) := by
  unfold execCplRead
  repeat' first
    | with_reducible assumption
    | (intro t ht; have hg : State.Inv t := ht; clear hg)
    | intro _
    | fail_if_no_progress (with_reducible apply inv_upd)
    | with_reducible first | apply State.nativeRead_inv | apply State.emit_inv | apply outInv_next

theorem State.popEc_inv (s : State) (hs : s.Inv) :
    (State.popEc s).Inv := by
  unfold State.popEc
  repeat' first
    | with_reducible assumption
    | ((try lift_lets); intro x; refine (show State.Inv x → _ from ?_) ?_; (on_goal 2 => subst x); (on_goal 1 => (intro hx; clear_value x)))
    | ((try lift_lets); intro x; clear_value x)
    | fail_if_no_progress (with_reducible apply inv_upd)
    | with_reducible first | apply State.clearPending_inv
    | split

theorem execCplPop_inv (w : TwiWrite) (s : State) (hs : s.Inv) :
    OutInv (execCplPop w s) := by
  unfold execCplPop
  repeat' first
    | with_reducible assumption
    | (intro y t ht; have hg : State.Inv t := ht; clear hg)
    | intro _
    | with_reducible first | apply State.nativeWrite_inv | apply State.popEc_inv | apply outInv_next

theorem State.freeBytes_inv (s : State) (n : Nat) (hs : s.Inv) : (s.freeBytes n).2.Inv := by
  induction n generalizing s with
  | zero => exact hs
  | succ n ih => exact ih _ (inv_upd hs)

theorem State.resultPart_inv (s : State) (k : Nat) (hs : s.Inv) :
    (State.resultPart s k).2.Inv := by
  unfold State.resultPart
  repeat' first
    | with_reducible assumption
    | ((try lift_lets); intro x; refine (show State.Inv (Prod.snd x) → _ from ?_) ?_; (on_goal 2 => subst x); (on_goal 1 => (intro hx; clear_value x)))
    | ((try lift_lets); intro x; clear_value x)
    | fail_if_no_progress (with_reducible apply inv_upd)
    | with_reducible first | apply State.freeBytes_inv

theorem execResultLo_inv (s : State) (hs : s.Inv) :
    OutInv (execResultLo s) := by
  unfold execResultLo
  repeat' first
    | with_reducible assumption
    | (intro t ht; have hg : State.Inv t := ht; clear hg)
    | ((try lift_lets); intro x; refine (show State.Inv (Prod.snd x) → _ from ?_) ?_; (on_goal 2 => subst x); (on_goal 1 => (intro hx; clear_value x)))
    | intro _
    | with_reducible first | apply State.nativeRead_inv | apply State.resultPart_inv | apply State.emit_inv
        | apply outInv_next

theorem execResultHi_inv (s : State) (hs : s.Inv) :
    OutInv (execResultHi s) := by
  unfold execResultHi
  repeat' first
    | with_reducible assumption
    | (intro t ht; have hg : State.Inv t := ht; clear hg)
    | ((try lift_lets); intro x; refine (show State.Inv (Prod.snd x) → _ from ?_) ?_; (on_goal 2 => subst x); (on_goal 1 => (intro hx; clear_value x)))
    | intro _
    | with_reducible first | apply State.nativeRead_inv | apply State.resultPart_inv | apply State.emit_inv
        | apply outInv_next

theorem execMbxRead_inv (s : State) (hs : s.Inv) :
    OutInv (execMbxRead s) := by
  unfold execMbxRead
  repeat' first
    | with_reducible assumption
    | (intro t ht; have hg : State.Inv t := ht; clear hg)
    | intro _
    | with_reducible first | apply State.nativeRead_inv | apply State.ecTakes_inv | apply State.emit_inv
        | apply outInv_next

theorem execMbxWrite_inv (w : TwiWrite) (s : State) (hs : s.Inv) :
    OutInv (execMbxWrite w s) := by
  unfold execMbxWrite
  repeat' first
    | with_reducible assumption
    | (intro y t ht; have hg : State.Inv t := ht; clear hg)
    | ((try lift_lets); intro x; refine (show State.Inv (Prod.fst x) → _ from ?_) ?_; (on_goal 2 => subst x); (on_goal 1 => (intro hx; clear_value x)))
    | intro _
    | with_reducible first | apply State.nativeWrite_inv | apply State.ecSends_inv | apply outInv_next

theorem execMbxAckWrite_inv (w : TwiWrite) (s : State) (hs : s.Inv) :
    OutInv (execMbxAckWrite w s) := by
  unfold execMbxAckWrite
  repeat' first
    | with_reducible assumption
    | (intro y t ht; have hg : State.Inv t := ht; clear hg)
    | intro _
    | with_reducible first | apply State.nativeWrite_inv | apply State.ecAcks_inv | apply outInv_next

theorem execMbxAckRead_inv (s : State) (hs : s.Inv) :
    OutInv (execMbxAckRead s) := by
  unfold execMbxAckRead
  repeat' first
    | with_reducible assumption
    | (intro t ht; have hg : State.Inv t := ht; clear hg)
    | intro _
    | with_reducible first | apply State.nativeRead_inv | apply State.emit_inv | apply outInv_next

theorem State.compatField_inv (s : State) (f : Fld) (v : Nat) (hs : s.Inv) :
    (State.compatField s f v).Inv := by
  unfold State.compatField
  repeat' first
    | with_reducible assumption
    | (intro y t ht; have hg : State.Inv t := ht; clear hg)
    | intro _
    | with_reducible first | apply State.writeReg_inv

theorem State.compatCtrl_inv (s : State) (b : Byte) (hs : s.Inv) :
    (State.compatCtrl s b).Inv := by
  unfold State.compatCtrl
  repeat' first
    | with_reducible assumption
    | with_reducible first | apply opChargeStop_inv | apply opChargeStart_inv
    | split

theorem State.compatPair_inv (s : State) (at_ : Nat) (v : Nat) (hs : s.Inv) :
    (State.compatPair s at_ v).Inv := by
  unfold State.compatPair
  repeat' first
    | with_reducible assumption
    | with_reducible first | apply State.compatField_inv
    | split

theorem State.compatBytes_inv (s : State) (low : Option (Nat × Byte)) (l : List Byte) (hs : s.Inv) :
    (s.compatBytes low l).Inv := by
  induction l generalizing s low with
  | nil => exact hs
  | cons b bs ih =>
    unfold State.compatBytes
    repeat' first
      | with_reducible assumption
      | ((try lift_lets); intro x; refine (show State.Inv x → _ from ?_) ?_; (on_goal 2 => subst x); (on_goal 1 => (intro hx; clear_value x)))
      | ((try lift_lets); intro x; clear_value x)
      | fail_if_no_progress (with_reducible apply inv_upd)
      | with_reducible first | apply ih | apply State.compatCtrl_inv | apply State.compatPair_inv
      | split

theorem State.compat_inv (s : State) (lost : Bool) (f : State → State) (hs : s.Inv) (hf : ∀ (x0 : State), x0.Inv → (f x0).Inv) :
    (State.compat s lost f).Inv := by
  unfold State.compat
  repeat' first
    | with_reducible assumption
    | (intro t ht; have hg : State.Inv t := ht; clear hg)
    | intro _
    | with_reducible first | apply hf | apply State.when_inv | apply State.bump_inv
    | split

theorem execCompatWrite_inv (data : List Byte) (lost : Bool) (s : State) (hs : s.Inv) :
    OutInv (execCompatWrite data lost s) := by
  unfold execCompatWrite
  repeat' first
    | with_reducible assumption
    | (intro t ht; have hg : State.Inv t := ht; clear hg)
    | ((try lift_lets); intro x; clear_value x)
    | intro _
    | fail_if_no_progress (with_reducible apply inv_upd)
    | with_reducible first | apply State.compat_inv | apply State.compatBytes_inv | apply outInv_next
    | split

theorem execCompatRead_inv (n : Nat) (s : State) (hs : s.Inv) :
    OutInv (execCompatRead n s) := by
  unfold execCompatRead
  repeat' first
    | with_reducible assumption
    | (intro t ht; have hg : State.Inv t := ht; clear hg)
    | ((try lift_lets); intro x; clear_value x)
    | intro _
    | fail_if_no_progress (with_reducible apply inv_upd)
    | with_reducible first | apply State.compat_inv | apply State.emit_inv | apply outInv_next

theorem execAlertResponse_inv (won : Bool) (s : State) (hs : s.Inv) :
    OutInv (execAlertResponse won s) := by
  unfold execAlertResponse
  repeat' first
    | with_reducible assumption
    | (intro t ht; have hg : State.Inv t := ht; clear hg)
    | ((try lift_lets); intro x; refine (show State.Inv x → _ from ?_) ?_; (on_goal 2 => subst x); (on_goal 1 => (intro hx; clear_value x)))
    | ((try lift_lets); intro x; clear_value x)
    | intro _
    | fail_if_no_progress (with_reducible apply inv_upd)
    | with_reducible first | apply State.when_inv | apply State.emit_inv | apply State.refreshAlert_inv
        | apply outInv_next

theorem State.notifyFailed_inv (s : State) (hs : s.Inv) :
    (State.notifyFailed s).Inv := by
  unfold State.notifyFailed
  repeat' first
    | with_reducible assumption
    | ((try lift_lets); intro x; refine (show State.Inv x → _ from ?_) ?_; (on_goal 2 => subst x); (on_goal 1 => (intro hx; clear_value x)))
    | ((try lift_lets); intro x; clear_value x)
    | fail_if_no_progress (with_reducible apply inv_upd)
    | with_reducible first | apply State.set_inv | apply State.raiseFault_inv
    | split

theorem State.notifyTry_inv (s : State) (r : NotifyEnd) (hs : s.Inv) :
    (State.notifyTry s r).Inv := by
  unfold State.notifyTry
  repeat' first
    | with_reducible assumption
    | ((try lift_lets); intro x; refine (show State.Inv x → _ from ?_) ?_; (on_goal 2 => subst x); (on_goal 1 => (intro hx; clear_value x)))
    | ((try lift_lets); intro x; clear_value x)
    | fail_if_no_progress (with_reducible apply inv_upd)
    | with_reducible first | apply State.emit_inv | apply State.bump_inv | apply State.notifyFailed_inv
    | split

theorem execHostNotify_inv (r : NotifyEnd) (s : State) (hs : s.Inv) :
    OutInv (execHostNotify r s) := by
  unfold execHostNotify
  repeat' first
    | with_reducible assumption
    | (intro t ht; have hg : State.Inv t := ht; clear hg)
    | intro _
    | with_reducible first | apply State.when_inv | apply State.notifyTry_inv | apply outInv_next

theorem execHostNotifyRetry_inv (r : NotifyEnd) (s : State) (hs : s.Inv) :
    OutInv (execHostNotifyRetry r s) := by
  unfold execHostNotifyRetry
  repeat' first
    | with_reducible assumption
    | (intro t ht; have hg : State.Inv t := ht; clear hg)
    | intro _
    | with_reducible first | apply State.when_inv | apply State.notifyTry_inv | apply outInv_next

theorem execSclTimeout_inv (inNotify : Bool) (s : State) (hs : s.Inv) :
    OutInv (execSclTimeout inNotify s) := by
  unfold execSclTimeout
  repeat' first
    | with_reducible assumption
    | (intro t ht; have hg : State.Inv t := ht; clear hg)
    | ((try lift_lets); intro x; refine (show State.Inv x → _ from ?_) ?_; (on_goal 2 => subst x); (on_goal 1 => (intro hx; clear_value x)))
    | intro _
    | with_reducible first | apply State.when_inv | apply State.set_inv | apply State.raiseFault_inv
        | apply State.notifyFailed_inv | apply outInv_next
    | split

theorem execSdaTimeout_inv (s : State) (hs : s.Inv) :
    OutInv (execSdaTimeout s) := by
  unfold execSdaTimeout
  repeat' first
    | with_reducible assumption
    | (intro t ht; have hg : State.Inv t := ht; clear hg)
    | intro _
    | with_reducible first | apply State.when_inv | apply State.set_inv | apply State.raiseFault_inv
        | apply outInv_next

theorem execSdaStuck_inv (s : State) (hs : s.Inv) :
    OutInv (execSdaStuck s) := by
  unfold execSdaStuck
  repeat' first
    | with_reducible assumption
    | (intro t ht; have hg : State.Inv t := ht; clear hg)
    | ((try lift_lets); intro x; refine (show State.Inv x → _ from ?_) ?_; (on_goal 2 => subst x); (on_goal 1 => (intro hx; clear_value x)))
    | ((try lift_lets); intro x; clear_value x)
    | intro _
    | fail_if_no_progress (with_reducible apply inv_upd)
    | with_reducible first | apply State.when_inv | apply State.set_inv | apply State.raiseFault_inv
        | apply outInv_next

end Sys2Proof.Machine
end

