-- ==== Sys2Proof/Laws/InvBus.lean ====
section
/-! SUPPORT. Every operation of Machine/Bus.lean keeps the canonical form of the register space. -/

set_option Elab.async false

namespace Sys2Proof.Machine

theorem State.portCtrl_inv (s : State) (p : Fin 4) (was : Word) (data : Word) (hs : s.Inv) :
    (State.portCtrl s p was data).Inv := by
  unfold State.portCtrl
  repeat' first
    | with_reducible assumption
    | (intro t ht; have hg : State.Inv t := ht; clear hg)
    | ((try lift_lets); intro x; refine (show State.Inv x → _ from ?_) ?_; (on_goal 2 => subst x); (on_goal 1 => (intro hx; clear_value x)))
    | ((try lift_lets); intro x; clear_value x)
    | intro _
    | with_reducible first | apply State.setWord_inv | apply State.setDisable_inv | apply State.set_inv
        | apply State.errorRecovery_inv | apply State.autoSelect_inv | apply State.ifDo_inv
    | split

theorem State.roleWritten_inv (s : State) (p : Fin 4) (was : Word) (hs : s.Inv) :
    (State.roleWritten s p was).Inv := by
  unfold State.roleWritten
  repeat' first
    | with_reducible assumption
    | with_reducible first | apply State.setTerm_inv | apply State.setTc_inv | apply State.set_inv
    | split

theorem State.drvWritten_inv (s : State) (ph : Fin 6) (was : Word) (hs : s.Inv) :
    (State.drvWritten s ph was).Inv := by
  unfold State.drvWritten
  repeat' first
    | with_reducible assumption
    | ((try lift_lets); intro x; clear_value x)
    | intro _
    | fail_if_no_progress (with_reducible apply inv_upd)
    | with_reducible first | apply State.modPhase_inv
    | split

theorem State.railWritten_inv (s : State) (n : Fin 12) (was : Word) (hs : s.Inv) :
    (State.railWritten s n was).Inv := by
  unfold State.railWritten
  repeat' first
    | with_reducible assumption
    | with_reducible first | apply State.setWord_inv | apply State.set_inv | apply State.syncUnused_inv
    | split

theorem State.parWritten_inv (s : State) (was : Word) (hs : s.Inv) :
    (State.parWritten s was).Inv := by
  unfold State.parWritten
  repeat' first
    | with_reducible assumption
    | ((try lift_lets); intro x; refine (show State.Inv x → _ from ?_) ?_; (on_goal 2 => subst x); (on_goal 1 => (intro hx; clear_value x)))
    | ((try lift_lets); intro x; clear_value x)
    | fail_if_no_progress (with_reducible apply inv_upd)
    | with_reducible first | apply State.setWord_inv | apply State.set_inv
    | split

theorem State.alertWritten_inv (s : State) (was : Word) (hs : s.Inv) :
    (State.alertWritten s was).Inv := by
  unfold State.alertWritten
  repeat' first
    | with_reducible assumption
    | ((try lift_lets); intro x; refine (show State.Inv x → _ from ?_) ?_; (on_goal 2 => subst x); (on_goal 1 => (intro hx; clear_value x)))
    | with_reducible first | apply State.setPending_inv | apply State.set_inv
    | split

theorem State.capCfgWritten_inv (s : State) (was : Word) (hs : s.Inv) :
    (State.capCfgWritten s was).Inv := by
  unfold State.capCfgWritten
  repeat' first
    | with_reducible assumption
    | ((try lift_lets); intro x; refine (show State.Inv x → _ from ?_) ?_; (on_goal 2 => subst x); (on_goal 1 => (intro hx; clear_value x)))
    | ((try lift_lets); intro x; clear_value x)
    | fail_if_no_progress (with_reducible apply inv_upd)
    | with_reducible first | apply State.capRefresh_inv
    | split

theorem State.oneshot_inv (s : State) (data : Word) (hs : s.Inv) :
    (State.oneshot s data).Inv := by
  unfold State.oneshot
  repeat' first
    | with_reducible assumption
    | with_reducible first | apply State.set_inv
    | split

theorem State.accErrCleared_inv (s : State) (data : Word) (hs : s.Inv) :
    (State.accErrCleared s data).Inv := by
  unfold State.accErrCleared
  repeat' first
    | with_reducible assumption
    | with_reducible first | apply State.set_inv
    | split

theorem State.timerEffect_inv (s : State) (a : Nat) (was : Word) (data : Word) (hs : s.Inv) :
    (State.timerEffect s a was data).Inv := by
  unfold State.timerEffect
  repeat' first
    | with_reducible assumption
    | fail_if_no_progress (with_reducible apply inv_upd)
    | with_reducible first | apply State.ftCfg_inv | apply State.cntWritten_inv | apply State.cmpWritten_inv
    | split

theorem State.wdgEffect_inv (s : State) (a : Nat) (was : Word) (data : Word) (hs : s.Inv) :
    (State.wdgEffect s a was data).Inv := by
  unfold State.wdgEffect
  repeat' first
    | with_reducible assumption
    | with_reducible first | apply State.wdgCtrl_inv | apply State.keyBreak_inv | apply State.jackAnswer_inv
        | apply State.checkinWritten_inv | apply State.jackKey_inv
    | split

theorem State.mbxEffect_inv (s : State) (ini : Initiator) (a : Nat) (was : Word) (data : Word) (hs : s.Inv) :
    (State.mbxEffect s ini a was data).Inv := by
  unfold State.mbxEffect
  repeat' first
    | with_reducible assumption
    | fail_if_no_progress (with_reducible apply inv_upd)
    | with_reducible first | apply State.lockWrite_inv | apply State.pushH2u_inv | apply State.ackU2h_inv
        | apply State.ecBoxWrite_inv
    | split

theorem State.hifEffect_inv (s : State) (a : Nat) (was : Word) (hs : s.Inv) :
    (State.hifEffect s a was).Inv := by
  unfold State.hifEffect
  repeat' first
    | with_reducible assumption
    | fail_if_no_progress (with_reducible apply inv_upd)
    | with_reducible first | apply State.sqWritten_inv | apply State.cqWritten_inv | apply State.ctrlWritten_inv
        | apply State.requestFetch_inv | apply State.evqWritten_inv | apply State.flushMsix_inv
    | split

theorem State.powerEffect_inv (s : State) (a : Nat) (was : Word) (data : Word) (hs : s.Inv) :
    (State.powerEffect s a was data).Inv := by
  unfold State.powerEffect
  repeat' first
    | with_reducible assumption
    | fail_if_no_progress (with_reducible apply inv_upd)
    | with_reducible first | apply State.portCtrl_inv | apply State.roleWritten_inv | apply State.eprCleared_inv
        | apply State.drvWritten_inv | apply State.railWritten_inv
    | split

theorem State.regEffect_inv (s : State) (ini : Initiator) (a : Nat) (was : Word) (data : Word) (hs : s.Inv) :
    (State.regEffect s ini a was data).Inv := by
  unfold State.regEffect
  repeat' first
    | with_reducible assumption
    | intro _
    | fail_if_no_progress (with_reducible apply inv_upd)
    | with_reducible exact inv_regReset _ _
    | with_reducible apply hfn
    | with_reducible apply State.hifEffect_inv
    | with_reducible apply State.timerEffect_inv
    | with_reducible apply State.wdgEffect_inv
    | with_reducible apply State.mbxEffect_inv
    | with_reducible apply State.capCfgWritten_inv
    | with_reducible apply State.oneshot_inv
    | with_reducible apply State.refreshAlert_inv
    | with_reducible apply State.alertWritten_inv
    | with_reducible apply State.parWritten_inv
    | with_reducible apply State.accErrCleared_inv
    | with_reducible apply State.powerEffect_inv
    | with_reducible apply outInv_next
    | with_reducible apply inv_foldl
    | with_reducible apply inv_foldlFst
    | with_reducible apply inv_foldlSnd
    | split

theorem State.access_inv (s : State) (ini : Initiator) (addr : Nat) (data : Word) (mask : Word) (hs : s.Inv) :
    (State.access s ini addr data mask).2.Inv := by
  unfold State.access
  repeat' first
    | with_reducible assumption
    | (intro y t ht; have hg : State.Inv t := ht; clear hg)
    | intro _
    | fail_if_no_progress (with_reducible apply inv_upd)
    | with_reducible exact inv_regReset _ _
    | with_reducible apply hfn
    | with_reducible apply State.write_inv
    | with_reducible apply State.regEffect_inv

theorem State.busWrite_inv (s : State) (ini : Initiator) (a : Nat) (data : Word) (full : Bool) (hs : s.Inv) :
    (State.busWrite s ini a data full).Inv := by
  unfold State.busWrite
  repeat' first
    | with_reducible assumption
    | (intro y t ht; have hg : State.Inv t := ht; clear hg)
    | intro _
    | fail_if_no_progress (with_reducible apply inv_upd)
    | with_reducible exact inv_regReset _ _
    | with_reducible apply hfn
    | with_reducible apply State.rowWrite_inv
    | with_reducible apply State.regEffect_inv

theorem execRegisterWrite_inv (ini : Initiator) (addr : Nat) (data : Word) (full : Bool) (s : State) (hs : s.Inv) :
    OutInv (execRegisterWrite ini addr data full s) := by
  unfold execRegisterWrite
  repeat' first
    | with_reducible assumption
    | (intro t ht; have hg : State.Inv t := ht; clear hg)
    | intro _
    | with_reducible first | apply State.when_inv | apply State.busWrite_inv | apply outInv_next

theorem execAccErrClear_inv (ini : Initiator) (s : State) (hs : s.Inv) :
    OutInv (execAccErrClear ini s) := by
  unfold execAccErrClear
  repeat' first
    | with_reducible assumption
    | (intro t ht; have hg : State.Inv t := ht; clear hg)
    | intro _
    | with_reducible first | apply State.when_inv | apply State.busWrite_inv | apply outInv_next

theorem execHalfPeriodWrite_inv (ini : Initiator) (g : Fin 2) (data : Word) (full : Bool) (s : State) (hs : s.Inv) :
    OutInv (execHalfPeriodWrite ini g data full s) := by
  unfold execHalfPeriodWrite
  repeat' first
    | with_reducible assumption
    | (intro t ht; have hg : State.Inv t := ht; clear hg)
    | intro _
    | with_reducible first | apply State.when_inv | apply State.busWrite_inv | apply outInv_next

theorem execPortDisableWrite_inv (ini : Initiator) (p : Fin 4) (data : Word) (full : Bool) (s : State) (hs : s.Inv) :
    OutInv (execPortDisableWrite ini p data full s) := by
  unfold execPortDisableWrite
  repeat' first
    | with_reducible assumption
    | (intro t ht; have hg : State.Inv t := ht; clear hg)
    | intro _
    | with_reducible first | apply State.when_inv | apply State.busWrite_inv | apply outInv_next

theorem execPortErrRecovery_inv (ini : Initiator) (p : Fin 4) (data : Word) (full : Bool) (s : State) (hs : s.Inv) :
    OutInv (execPortErrRecovery ini p data full s) := by
  unfold execPortErrRecovery
  repeat' first
    | with_reducible assumption
    | (intro t ht; have hg : State.Inv t := ht; clear hg)
    | intro _
    | with_reducible first | apply State.when_inv | apply State.busWrite_inv | apply outInv_next

theorem execHifEnable_inv (ini : Initiator) (data : Word) (full : Bool) (s : State) (hs : s.Inv) :
    OutInv (execHifEnable ini data full s) := by
  unfold execHifEnable
  repeat' first
    | with_reducible assumption
    | (intro t ht; have hg : State.Inv t := ht; clear hg)
    | intro _
    | with_reducible first | apply State.when_inv | apply State.busWrite_inv | apply outInv_next

theorem execKick_inv (ini : Initiator) (data : Word) (full : Bool) (s : State) (hs : s.Inv) :
    OutInv (execKick ini data full s) := by
  unfold execKick
  repeat' first
    | with_reducible assumption
    | (intro t ht; have hg : State.Inv t := ht; clear hg)
    | intro _
    | with_reducible first | apply State.when_inv | apply State.busWrite_inv | apply outInv_next

theorem execSqEnable_inv (ini : Initiator) (q : Fin 8) (data : Word) (full : Bool) (s : State) (hs : s.Inv) :
    OutInv (execSqEnable ini q data full s) := by
  unfold execSqEnable
  repeat' first
    | with_reducible assumption
    | (intro t ht; have hg : State.Inv t := ht; clear hg)
    | intro _
    | with_reducible first | apply State.when_inv | apply State.busWrite_inv | apply outInv_next

theorem execSqDisable_inv (ini : Initiator) (q : Fin 8) (data : Word) (full : Bool) (s : State) (hs : s.Inv) :
    OutInv (execSqDisable ini q data full s) := by
  unfold execSqDisable
  repeat' first
    | with_reducible assumption
    | (intro t ht; have hg : State.Inv t := ht; clear hg)
    | intro _
    | with_reducible first | apply State.when_inv | apply State.busWrite_inv | apply outInv_next

theorem execCqEnable_inv (ini : Initiator) (q : Fin 8) (data : Word) (full : Bool) (s : State) (hs : s.Inv) :
    OutInv (execCqEnable ini q data full s) := by
  unfold execCqEnable
  repeat' first
    | with_reducible assumption
    | (intro t ht; have hg : State.Inv t := ht; clear hg)
    | intro _
    | with_reducible first | apply State.when_inv | apply State.busWrite_inv | apply outInv_next

theorem execCqDisable_inv (ini : Initiator) (q : Fin 8) (data : Word) (full : Bool) (s : State) (hs : s.Inv) :
    OutInv (execCqDisable ini q data full s) := by
  unfold execCqDisable
  repeat' first
    | with_reducible assumption
    | (intro t ht; have hg : State.Inv t := ht; clear hg)
    | intro _
    | with_reducible first | apply State.when_inv | apply State.busWrite_inv | apply outInv_next

theorem execEvqEnable_inv (ini : Initiator) (data : Word) (full : Bool) (s : State) (hs : s.Inv) :
    OutInv (execEvqEnable ini data full s) := by
  unfold execEvqEnable
  repeat' first
    | with_reducible assumption
    | (intro t ht; have hg : State.Inv t := ht; clear hg)
    | intro _
    | with_reducible first | apply State.when_inv | apply State.busWrite_inv | apply outInv_next

theorem execEvqDisable_inv (ini : Initiator) (data : Word) (full : Bool) (s : State) (hs : s.Inv) :
    OutInv (execEvqDisable ini data full s) := by
  unfold execEvqDisable
  repeat' first
    | with_reducible assumption
    | (intro t ht; have hg : State.Inv t := ht; clear hg)
    | intro _
    | with_reducible first | apply State.when_inv | apply State.busWrite_inv | apply outInv_next

theorem execOneshotGo_inv (ini : Initiator) (data : Word) (full : Bool) (s : State) (hs : s.Inv) :
    OutInv (execOneshotGo ini data full s) := by
  unfold execOneshotGo
  repeat' first
    | with_reducible assumption
    | (intro t ht; have hg : State.Inv t := ht; clear hg)
    | intro _
    | with_reducible first | apply State.when_inv | apply State.busWrite_inv | apply outInv_next

theorem State.aonEffect_inv (s : State) (a : Nat) (frame : Nat) (hs : s.Inv) :
    (State.aonEffect s a frame).Inv := by
  unfold State.aonEffect
  repeat' first
    | with_reducible assumption
    | ((try lift_lets); intro x; clear_value x)
    | fail_if_no_progress (with_reducible apply inv_upd)
    | with_reducible first | apply State.set_inv | apply State.cmpCheck_inv
    | split

theorem State.crossAon_inv (s : State) (frame : Nat) (hs : s.Inv) :
    (State.crossAon s frame).Inv := by
  unfold State.crossAon
  repeat' first
    | with_reducible assumption
    | ((try lift_lets); intro x; refine (show State.Inv x → _ from ?_) ?_; (on_goal 2 => subst x); (on_goal 1 => (intro hx; clear_value x)))
    | fail_if_no_progress (with_reducible apply inv_upd)
    | with_reducible first | apply State.putReg_inv | apply State.aonEffect_inv
    | split

theorem execAonWriteCrossed_inv (frame : Nat) (s : State) (hs : s.Inv) :
    OutInv (execAonWriteCrossed frame s) := by
  unfold execAonWriteCrossed
  repeat' first
    | with_reducible assumption
    | (intro t ht; have hg : State.Inv t := ht; clear hg)
    | intro _
    | with_reducible first | apply State.when_inv | apply State.crossAon_inv | apply outInv_next

theorem execAonCmpApply_inv (n : Fin 8) (frame : Nat) (s : State) (hs : s.Inv) :
    OutInv (execAonCmpApply n frame s) := by
  unfold execAonCmpApply
  repeat' first
    | with_reducible assumption
    | (intro t ht; have hg : State.Inv t := ht; clear hg)
    | intro _
    | with_reducible first | apply State.when_inv | apply State.crossAon_inv | apply outInv_next

theorem State.maskedWrite_inv (s : State) (ini : Initiator) (a : Nat) (data : Word) (mask : Word) (da : Nat) (dv : Nat) (hs : s.Inv) :
    (State.maskedWrite s ini a data mask da dv).2.Inv := by
  unfold State.maskedWrite
  repeat' first
    | with_reducible assumption
    | ((try lift_lets); intro x; refine (show State.Inv (Prod.snd x) → _ from ?_) ?_; (on_goal 2 => subst x); (on_goal 1 => (intro hx; clear_value x)))
    | ((try lift_lets); intro x; clear_value x)
    | fail_if_no_progress (with_reducible apply inv_upd)
    | with_reducible first | apply State.access_inv
    | split

theorem opSetParam_inv (c : Cmd) (s : State) (hs : s.Inv) :
    (opSetParam c s).2.Inv := by
  unfold opSetParam
  repeat' first
    | with_reducible assumption
    | ((try lift_lets); intro x; refine (show State.Inv (Prod.snd x) → _ from ?_) ?_; (on_goal 2 => subst x); (on_goal 1 => (intro hx; clear_value x)))
    | ((try lift_lets); intro x; clear_value x)
    | with_reducible first | apply State.maskedWrite_inv
    | split

theorem execSetParam_inv (s : State) (hs : s.Inv) :
    OutInv (execSetParam s) := by
  unfold execSetParam
  repeat' first
    | with_reducible assumption
    | (intro t ht; have hg : State.Inv t := ht; clear hg)
    | (intro y t ht; have hg : State.Inv t := ht; clear hg)
    | intro _
    | with_reducible first | apply State.when_inv | apply State.runCmd_inv | apply opSetParam_inv | apply outInv_next

theorem opGetParam_inv (c : Cmd) (s : State) (hs : s.Inv) :
    (opGetParam c s).2.Inv := by
  unfold opGetParam
  repeat' first
    | with_reducible assumption
    | ((try lift_lets); intro x; refine (show State.Inv (Prod.snd x) → _ from ?_) ?_; (on_goal 2 => subst x); (on_goal 1 => (intro hx; clear_value x)))
    | ((try lift_lets); intro x; clear_value x)
    | with_reducible first | apply State.read_inv

theorem execGetParam_inv (s : State) (hs : s.Inv) :
    OutInv (execGetParam s) := by
  unfold execGetParam
  repeat' first
    | with_reducible assumption
    | (intro t ht; have hg : State.Inv t := ht; clear hg)
    | (intro y t ht; have hg : State.Inv t := ht; clear hg)
    | intro _
    | with_reducible first | apply State.when_inv | apply State.runCmd_inv | apply opGetParam_inv | apply outInv_next

theorem execRegWrite_inv (w : TwiWrite) (s : State) (hs : s.Inv) :
    OutInv (execRegWrite w s) := by
  unfold execRegWrite
  repeat' first
    | with_reducible assumption
    | (intro y t ht; have hg : State.Inv t := ht; clear hg)
    | ((try lift_lets); intro x; refine (show State.Inv (Prod.snd x) → _ from ?_) ?_; (on_goal 2 => subst x); (on_goal 1 => (intro hx; clear_value x)))
    | intro _
    | with_reducible first | apply State.nativeWrite_inv | apply State.access_inv | apply State.writeStatus_inv
        | apply outInv_next

end Sys2Proof.Machine
end

