-- ==== Sys2Proof/Laws/InvCascade.lean ====
section
/-! SUPPORT. Every operation of Machine/Cascade.lean keeps the canonical form of the register space. -/

set_option Elab.async false

namespace Sys2Proof.Machine

theorem State.modPeer_inv (s : State) (u : Fin 4) (f : Peer → Peer) (hs : s.Inv) :
    (State.modPeer s u f).Inv := by
  unfold State.modPeer
  repeat' first
    | with_reducible assumption
    | ((try lift_lets); intro x; clear_value x)
    | fail_if_no_progress (with_reducible apply inv_upd)

theorem State.modCsc_inv (s : State) (f : Cascade → Cascade) (hs : s.Inv) :
    (State.modCsc s f).Inv := by
  unfold State.modCsc
  repeat' first
    | with_reducible assumption
    | fail_if_no_progress (with_reducible apply inv_upd)

theorem State.setCscClock_inv (s : State) (b : Bool) (hs : s.Inv) :
    (State.setCscClock s b).Inv := by
  unfold State.setCscClock
  repeat' first
    | with_reducible assumption
    | with_reducible first | apply State.setBit_inv

theorem State.abortCmds_inv (s : State) (hs : s.Inv) :
    (State.abortCmds s).Inv := by
  unfold State.abortCmds
  repeat' first
    | with_reducible assumption
    | (intro t y ht; have hg : State.Inv t := ht; clear hg)
    | intro _
    | with_reducible first | apply State.finish_inv | apply inv_foldl

theorem State.longPressStart_inv (s : State) (hs : s.Inv) :
    (State.longPressStart s).Inv := by
  unfold State.longPressStart
  repeat' first
    | with_reducible assumption
    | (intro t y ht; have hg : State.Inv t := ht; clear hg)
    | ((try lift_lets); intro x; refine (show State.Inv x → _ from ?_) ?_; (on_goal 2 => subst x); (on_goal 1 => (intro hx; clear_value x)))
    | ((try lift_lets); intro x; clear_value x)
    | intro _
    | fail_if_no_progress (with_reducible apply inv_upd)
    | with_reducible first | apply State.set_inv | apply State.raiseMode_inv | apply State.abortCmds_inv
        | apply State.stopRails_inv | apply State.eachPort_inv | apply State.stopSource_inv
    | split

theorem State.modQueue_inv (s : State) (f : List TunReq → List TunReq) (hs : s.Inv) :
    (State.modQueue s f).Inv := by
  unfold State.modQueue
  repeat' first
    | with_reducible assumption
    | ((try lift_lets); intro x; clear_value x)
    | fail_if_no_progress (with_reducible apply inv_upd)

theorem State.serveTunnel_inv (s : State) (asker : Fin 4) (isWrite : Bool) (a : Nat) (v : Word) (mask : Word) (hs : s.Inv) :
    (State.serveTunnel s asker isWrite a v mask).Inv := by
  unfold State.serveTunnel
  repeat' first
    | with_reducible assumption
    | ((try lift_lets); intro x; refine (show State.Inv (Prod.snd x) → _ from ?_) ?_; (on_goal 2 => subst x); (on_goal 1 => (intro hx; clear_value x)))
    | ((try lift_lets); intro x; clear_value x)
    | intro _
    | fail_if_no_progress (with_reducible apply inv_upd)
    | with_reducible first | apply State.maskedWrite_inv | apply State.modCsc_inv | apply State.read_inv
    | split

theorem State.takeReply_inv (s : State) (u : Fin 4) (r : Reply) (hs : s.Inv) :
    (State.takeReply s u r).Inv := by
  unfold State.takeReply
  repeat' first
    | with_reducible assumption
    | intro _
    | fail_if_no_progress (with_reducible apply inv_upd)
    | with_reducible first | apply State.modQueue_inv | apply State.complete_inv
    | split

theorem State.takeTunnel_inv (s : State) (u : Fin 4) (t : Option Tunnel) (hs : s.Inv) :
    (State.takeTunnel s u t).Inv := by
  unfold State.takeTunnel
  repeat' first
    | with_reducible assumption
    | fail_if_no_progress (with_reducible apply inv_upd)
    | with_reducible first | apply State.request_inv | apply State.serveTunnel_inv | apply State.takeReply_inv
    | split

theorem State.ageTunnel_inv (s : State) (hs : s.Inv) :
    (State.ageTunnel s).Inv := by
  unfold State.ageTunnel
  repeat' first
    | with_reducible assumption
    | intro _
    | fail_if_no_progress (with_reducible apply inv_upd)
    | with_reducible first | apply State.modQueue_inv

theorem State.nextTunnel_inv (s : State) (hs : s.Inv) :
    (State.nextTunnel s).2.Inv := by
  unfold State.nextTunnel
  repeat' first
    | with_reducible assumption
    | intro _
    | fail_if_no_progress (with_reducible apply inv_upd)
    | with_reducible first | apply State.modCsc_inv | apply State.request_inv | apply State.modQueue_inv
    | split

theorem State.voidTunnel_inv (s : State) (u : Fin 4) (hs : s.Inv) :
    (State.voidTunnel s u).Inv := by
  unfold State.voidTunnel
  repeat' first
    | with_reducible assumption
    | (intro t y ht; have hg : State.Inv t := ht; clear hg)
    | ((try lift_lets); intro x; clear_value x)
    | intro _
    | with_reducible first | apply State.complete_inv | apply State.modQueue_inv | apply inv_foldl

theorem State.dropMember_inv (s : State) (u : Fin 4) (hs : s.Inv) :
    (State.dropMember s u).Inv := by
  unfold State.dropMember
  repeat' first
    | with_reducible assumption
    | ((try lift_lets); intro x; refine (show State.Inv x → _ from ?_) ?_; (on_goal 2 => subst x); (on_goal 1 => (intro hx; clear_value x)))
    | intro _
    | fail_if_no_progress (with_reducible apply inv_upd)
    | with_reducible first | apply State.setBit_inv | apply State.dropIntents_inv | apply State.modPeer_inv
        | apply State.voidTunnel_inv | apply State.raiseCascade_inv | apply State.set_inv
    | split

theorem State.removeMember_inv (s : State) (u : Fin 4) (hs : s.Inv) :
    (State.removeMember s u).Inv := by
  unfold State.removeMember
  repeat' first
    | with_reducible assumption
    | with_reducible first | apply State.dropMember_inv | apply State.set_inv | apply State.raiseBudget_inv

theorem State.stopLink_inv (s : State) (hs : s.Inv) :
    (State.stopLink s).Inv := by
  unfold State.stopLink
  repeat' first
    | with_reducible assumption
    | ((try lift_lets); intro x; refine (show State.Inv x → _ from ?_) ?_; (on_goal 2 => subst x); (on_goal 1 => (intro hx; clear_value x)))
    | with_reducible first | apply State.dropMember_inv | apply State.set_inv | apply State.setCscClock_inv

theorem execFollowerRemove_inv (u : Fin 4) (s : State) (hs : s.Inv) :
    OutInv (execFollowerRemove u s) := by
  unfold execFollowerRemove
  repeat' first
    | with_reducible assumption
    | (intro t ht; have hg : State.Inv t := ht; clear hg)
    | intro _
    | with_reducible first | apply State.when_inv | apply State.removeMember_inv | apply outInv_next

theorem execFollowerReadmit_inv (u : Fin 4) (addressed : Bool) (s : State) (hs : s.Inv) :
    OutInv (execFollowerReadmit u addressed s) := by
  unfold execFollowerReadmit
  repeat' first
    | with_reducible assumption
    | (intro t ht; have hg : State.Inv t := ht; clear hg)
    | ((try lift_lets); intro x; refine (show State.Inv x → _ from ?_) ?_; (on_goal 2 => subst x); (on_goal 1 => (intro hx; clear_value x)))
    | intro _
    | with_reducible first | apply State.when_inv | apply State.setBit_inv | apply State.raiseCascade_inv
        | apply State.sendAssign_inv | apply State.set_inv | apply outInv_next
    | split

theorem State.enterFallback_inv (s : State) (hs : s.Inv) :
    (State.enterFallback s).Inv := by
  unfold State.enterFallback
  repeat' first
    | with_reducible assumption
    | ((try lift_lets); intro x; refine (show State.Inv x → _ from ?_) ?_; (on_goal 2 => subst x); (on_goal 1 => (intro hx; clear_value x)))
    | intro _
    | fail_if_no_progress (with_reducible apply inv_upd)
    | with_reducible exact inv_regReset _ _
    | with_reducible apply hfn
    | with_reducible apply State.set_inv
    | with_reducible apply State.dropIntents_inv
    | with_reducible apply State.modCsc_inv
    | with_reducible apply State.modPeer_inv
    | with_reducible apply State.parStop_inv
    | with_reducible apply State.raiseBudget_inv
    | with_reducible apply State.raiseCascade_inv

theorem execLocalFallbackEnter_inv (s : State) (hs : s.Inv) :
    OutInv (execLocalFallbackEnter s) := by
  unfold execLocalFallbackEnter
  repeat' first
    | with_reducible assumption
    | (intro t ht; have hg : State.Inv t := ht; clear hg)
    | intro _
    | fail_if_no_progress (with_reducible apply inv_upd)
    | with_reducible exact inv_regReset _ _
    | with_reducible apply hfn
    | with_reducible apply State.when_inv
    | with_reducible apply State.enterFallback_inv
    | with_reducible apply outInv_next

theorem State.joinMaster_inv (s : State) (hs : s.Inv) :
    (State.joinMaster s).Inv := by
  unfold State.joinMaster
  repeat' first
    | with_reducible assumption
    | with_reducible first | apply State.set_inv

theorem execLocalFallbackLeave_inv (s : State) (hs : s.Inv) :
    OutInv (execLocalFallbackLeave s) := by
  unfold execLocalFallbackLeave
  repeat' first
    | with_reducible assumption
    | (intro t ht; have hg : State.Inv t := ht; clear hg)
    | intro _
    | with_reducible first | apply State.when_inv | apply State.joinMaster_inv | apply State.raiseCascade_inv
        | apply outInv_next

theorem State.sendSlot_inv (s : State) (m : Option MasterPart) (r : Option ReportPart) (hs : s.Inv) :
    (State.sendSlot s m r).Inv := by
  unfold State.sendSlot
  repeat' first
    | with_reducible assumption
    | ((try lift_lets); intro x; refine (show State.Inv x → _ from ?_) ?_; (on_goal 2 => subst x); (on_goal 1 => (intro hx; clear_value x)))
    | ((try lift_lets); intro x; refine (show State.Inv (Prod.snd x) → _ from ?_) ?_; (on_goal 2 => subst x); (on_goal 1 => (intro hx; clear_value x)))
    | ((try lift_lets); intro x; clear_value x)
    | intro _
    | fail_if_no_progress (with_reducible apply inv_upd)
    | with_reducible first | apply State.nextTunnel_inv | apply State.emit_inv | apply State.modCsc_inv

theorem State.ownSummary_inv (s : State) (v : Nat × Nat × Nat) (hs : s.Inv) :
    (State.ownSummary s v).Inv := by
  unfold State.ownSummary
  repeat' first
    | with_reducible assumption
    | intro _
    | fail_if_no_progress (with_reducible apply inv_upd)
    | with_reducible first | apply State.modPeer_inv

theorem State.setFrame_inv (s : State) (n : Nat) (hs : s.Inv) :
    (State.setFrame s n).Inv := by
  unfold State.setFrame
  repeat' first
    | with_reducible assumption
    | ((try lift_lets); intro x; clear_value x)
    | with_reducible first | apply State.set_inv

theorem execCscFrameStart_inv (own : Nat × Nat × Nat) (s : State) (hs : s.Inv) :
    OutInv (execCscFrameStart own s) := by
  unfold execCscFrameStart
  repeat' first
    | with_reducible assumption
    | (intro t ht; have hg : State.Inv t := ht; clear hg)
    | ((try lift_lets); intro x; refine (show State.Inv x → _ from ?_) ?_; (on_goal 2 => subst x); (on_goal 1 => (intro hx; clear_value x)))
    | intro _
    | fail_if_no_progress (with_reducible apply inv_upd)
    | with_reducible exact inv_regReset _ _
    | with_reducible apply hfn
    | with_reducible apply State.when_inv
    | with_reducible apply State.ifDo_inv
    | with_reducible apply State.stopLink_inv
    | with_reducible apply State.set_inv
    | with_reducible apply State.setCscClock_inv
    | with_reducible apply State.setFrame_inv
    | with_reducible apply State.ageTunnel_inv
    | with_reducible apply State.modCsc_inv
    | with_reducible apply State.ownSummary_inv
    | with_reducible apply State.sendSlot_inv
    | with_reducible apply outInv_next
    | with_reducible apply inv_foldl
    | with_reducible apply inv_foldlFst
    | with_reducible apply inv_foldlSnd
    | split

theorem execCscDiscoveryEnd_inv (s : State) (hs : s.Inv) :
    OutInv (execCscDiscoveryEnd s) := by
  unfold execCscDiscoveryEnd
  repeat' first
    | with_reducible assumption
    | (intro t ht; have hg : State.Inv t := ht; clear hg)
    | ((try lift_lets); intro x; refine (show State.Inv x → _ from ?_) ?_; (on_goal 2 => subst x); (on_goal 1 => (intro hx; clear_value x)))
    | intro _
    | with_reducible first | apply State.when_inv | apply State.set_inv | apply State.raiseCascade_inv
        | apply State.stopLink_inv | apply State.setBit_inv | apply outInv_next
    | split

theorem State.crcFrame_inv (s : State) (u : Fin 4) (bad : Bool) (hs : s.Inv) :
    (State.crcFrame s u bad).Inv := by
  unfold State.crcFrame
  repeat' first
    | with_reducible assumption
    | ((try lift_lets); intro x; refine (show State.Inv x → _ from ?_) ?_; (on_goal 2 => subst x); (on_goal 1 => (intro hx; clear_value x)))
    | ((try lift_lets); intro x; clear_value x)
    | intro _
    | fail_if_no_progress (with_reducible apply inv_upd)
    | with_reducible first | apply State.modPeer_inv | apply State.raiseFault_inv
    | split

theorem State.parSilent_inv (s : State) (u : Fin 4) (hs : s.Inv) :
    (State.parSilent s u).Inv := by
  unfold State.parSilent
  repeat' first
    | with_reducible assumption
    | intro _
    | fail_if_no_progress (with_reducible apply inv_upd)
    | with_reducible first | apply State.modCsc_inv | apply State.parStop_inv
    | split

theorem State.slotMissed_inv (s : State) (u : Fin 4) (bad : Bool) (energy : Bool) (hs : s.Inv) :
    (State.slotMissed s u bad energy).Inv := by
  unfold State.slotMissed
  repeat' first
    | with_reducible assumption
    | (intro t ht; have hg : State.Inv t := ht; clear hg)
    | ((try lift_lets); intro x; refine (show State.Inv x → _ from ?_) ?_; (on_goal 2 => subst x); (on_goal 1 => (intro hx; clear_value x)))
    | ((try lift_lets); intro x; clear_value x)
    | intro _
    | fail_if_no_progress (with_reducible apply inv_upd)
    | with_reducible exact inv_regReset _ _
    | with_reducible apply hfn
    | with_reducible apply State.setBit_inv
    | with_reducible apply State.ifDo_inv
    | with_reducible apply State.set_inv
    | with_reducible apply State.bump_inv
    | with_reducible apply State.modPeer_inv
    | with_reducible apply State.crcFrame_inv
    | with_reducible apply State.parSilent_inv

theorem State.storeSlot_inv (s : State) (u : Fin 4) (x : Slot) (hs : s.Inv) :
    (State.storeSlot s u x).Inv := by
  unfold State.storeSlot
  repeat' first
    | with_reducible assumption
    | ((try lift_lets); intro x; clear_value x)
    | intro _
    | fail_if_no_progress (with_reducible apply inv_upd)
    | with_reducible first | apply State.modPeer_inv

theorem State.takePress_inv (s : State) (u : Fin 4) (x : Slot) (hs : s.Inv) :
    (State.takePress s u x).Inv := by
  unfold State.takePress
  repeat' first
    | with_reducible assumption
    | ((try lift_lets); intro x; clear_value x)
    | fail_if_no_progress (with_reducible apply inv_upd)
    | with_reducible first | apply State.raiseCascade_inv | apply State.longPressStart_inv
    | split

theorem State.takeIntent_inv (s : State) (u : Fin 4) (i : Option IntentFwd) (hs : s.Inv) :
    (State.takeIntent s u i).Inv := by
  unfold State.takeIntent
  repeat' first
    | with_reducible assumption
    | fail_if_no_progress (with_reducible apply inv_upd)
    | with_reducible first | apply State.addIntent_inv
    | split

theorem State.takeReport_inv (s : State) (u : Fin 4) (known : Bool) (x : Slot) (hs : s.Inv) :
    (State.takeReport s u known x).Inv := by
  unfold State.takeReport
  repeat' first
    | with_reducible assumption
    | (intro t ht; have hg : State.Inv t := ht; clear hg)
    | ((try lift_lets); intro x; refine (show State.Inv x → _ from ?_) ?_; (on_goal 2 => subst x); (on_goal 1 => (intro hx; clear_value x)))
    | intro _
    | fail_if_no_progress (with_reducible apply inv_upd)
    | with_reducible first | apply State.ifDo_inv | apply State.modCsc_inv | apply State.takeIntent_inv
        | apply State.sendAssign_inv | apply State.set_inv | apply State.setBit_inv
    | split

theorem State.takePar_inv (s : State) (u : Fin 4) (x : Slot) (hs : s.Inv) :
    (State.takePar s u x).Inv := by
  unfold State.takePar
  repeat' first
    | with_reducible assumption
    | ((try lift_lets); intro x; refine (show State.Inv x → _ from ?_) ?_; (on_goal 2 => subst x); (on_goal 1 => (intro hx; clear_value x)))
    | ((try lift_lets); intro x; clear_value x)
    | intro _
    | fail_if_no_progress (with_reducible apply inv_upd)
    | with_reducible first | apply State.modCsc_inv | apply State.parStop_inv | apply State.groupStart_inv
    | split

theorem State.takeString_inv (s : State) (g : Grant) (p : Fin 4) (hs : s.Inv) :
    (State.takeString s g p).Inv := by
  unfold State.takeString
  repeat' first
    | with_reducible assumption
    | ((try lift_lets); intro x; clear_value x)
    | with_reducible first | apply State.cutTo_inv
    | split

theorem State.takeGrant_inv (s : State) (g : Grant) (hs : s.Inv) :
    (State.takeGrant s g).Inv := by
  unfold State.takeGrant
  repeat' first
    | with_reducible assumption
    | (intro t y ht; have hg : State.Inv t := ht; clear hg)
    | ((try lift_lets); intro x; refine (show State.Inv x → _ from ?_) ?_; (on_goal 2 => subst x); (on_goal 1 => (intro hx; clear_value x)))
    | intro _
    | fail_if_no_progress (with_reducible apply inv_upd)
    | with_reducible first | apply State.eachPort_inv | apply State.set_inv | apply State.takeString_inv
        | apply State.modCsc_inv

theorem State.excludeSelf_inv (s : State) (m : MasterPart) (hs : s.Inv) :
    (State.excludeSelf s m).Inv := by
  unfold State.excludeSelf
  repeat' first
    | with_reducible assumption
    | ((try lift_lets); intro x; refine (show State.Inv x → _ from ?_) ?_; (on_goal 2 => subst x); (on_goal 1 => (intro hx; clear_value x)))
    | intro _
    | fail_if_no_progress (with_reducible apply inv_upd)
    | with_reducible exact inv_regReset _ _
    | with_reducible apply hfn
    | with_reducible apply State.modCsc_inv
    | with_reducible apply State.enterFallback_inv
    | with_reducible apply outInv_next
    | with_reducible apply inv_foldl
    | with_reducible apply inv_foldlFst
    | with_reducible apply inv_foldlSnd
    | split

theorem State.takeSleep_inv (s : State) (m : MasterPart) (hs : s.Inv) :
    (State.takeSleep s m).Inv := by
  unfold State.takeSleep
  repeat' first
    | with_reducible assumption
    | ((try lift_lets); intro x; clear_value x)
    | intro _
    | fail_if_no_progress (with_reducible apply inv_upd)
    | with_reducible first | apply State.modCsc_inv

theorem State.takeMaster_inv (s : State) (m : MasterPart) (own : Nat × Nat × Nat) (hs : s.Inv) :
    (State.takeMaster s m own).Inv := by
  unfold State.takeMaster
  repeat' first
    | with_reducible assumption
    | (intro t ht; have hg : State.Inv t := ht; clear hg)
    | ((try lift_lets); intro x; refine (show State.Inv x → _ from ?_) ?_; (on_goal 2 => subst x); (on_goal 1 => (intro hx; clear_value x)))
    | intro _
    | fail_if_no_progress (with_reducible apply inv_upd)
    | with_reducible exact inv_regReset _ _
    | with_reducible apply hfn
    | with_reducible apply State.setFrame_inv
    | with_reducible apply State.set_inv
    | with_reducible apply State.modCsc_inv
    | with_reducible apply State.ifDo_inv
    | with_reducible apply State.joinMaster_inv
    | with_reducible apply State.excludeSelf_inv
    | with_reducible apply State.takeSleep_inv
    | with_reducible apply State.takeGrant_inv
    | with_reducible apply State.ownSummary_inv
    | with_reducible apply State.sendSlot_inv
    | with_reducible apply outInv_next
    | with_reducible apply inv_foldl
    | with_reducible apply inv_foldlFst
    | with_reducible apply inv_foldlSnd
    | split

theorem State.slotGood_inv (s : State) (u : Fin 4) (x : Slot) (own : Nat × Nat × Nat) (hs : s.Inv) :
    (State.slotGood s u x own).Inv := by
  unfold State.slotGood
  repeat' first
    | with_reducible assumption
    | (intro t ht; have hg : State.Inv t := ht; clear hg)
    | ((try lift_lets); intro x; refine (show State.Inv x → _ from ?_) ?_; (on_goal 2 => subst x); (on_goal 1 => (intro hx; clear_value x)))
    | ((try lift_lets); intro x; clear_value x)
    | intro _
    | fail_if_no_progress (with_reducible apply inv_upd)
    | with_reducible exact inv_regReset _ _
    | with_reducible apply hfn
    | with_reducible apply State.setBit_inv
    | with_reducible apply State.storeSlot_inv
    | with_reducible apply State.crcFrame_inv
    | with_reducible apply State.takePress_inv
    | with_reducible apply State.ifDo_inv
    | with_reducible apply State.takeReport_inv
    | with_reducible apply State.modCsc_inv
    | with_reducible apply State.takePar_inv
    | with_reducible apply State.takeTunnel_inv
    | with_reducible apply State.takeMaster_inv
    | with_reducible apply State.set_inv
    | with_reducible apply outInv_next
    | with_reducible apply inv_foldl
    | with_reducible apply inv_foldlFst
    | with_reducible apply inv_foldlSnd
    | split

theorem State.agentOff_inv (s : State) (hs : s.Inv) :
    (State.agentOff s).Inv := by
  unfold State.agentOff
  repeat' first
    | with_reducible assumption
    | with_reducible first | apply State.set_inv | apply State.parStop_inv
    | split

theorem execCscSlotRx_inv (u : Fin 4) (x : SlotIn) (own : Nat × Nat × Nat) (s : State) (hs : s.Inv) :
    OutInv (execCscSlotRx u x own s) := by
  unfold execCscSlotRx
  repeat' first
    | with_reducible assumption
    | (intro t ht; have hg : State.Inv t := ht; clear hg)
    | ((try lift_lets); intro x; refine (show State.Inv x → _ from ?_) ?_; (on_goal 2 => subst x); (on_goal 1 => (intro hx; clear_value x)))
    | intro _
    | fail_if_no_progress (with_reducible apply inv_upd)
    | with_reducible exact inv_regReset _ _
    | with_reducible apply hfn
    | with_reducible apply State.when_inv
    | with_reducible apply State.agentOff_inv
    | with_reducible apply State.ifDo_inv
    | with_reducible apply State.ageTunnel_inv
    | with_reducible apply State.slotMissed_inv
    | with_reducible apply State.slotGood_inv
    | with_reducible apply outInv_next
    | with_reducible apply inv_foldl
    | with_reducible apply inv_foldlFst
    | with_reducible apply inv_foldlSnd
    | split

theorem execTwoMasters_inv (s : State) (hs : s.Inv) :
    OutInv (execTwoMasters s) := by
  unfold execTwoMasters
  repeat' first
    | with_reducible assumption
    | (intro t ht; have hg : State.Inv t := ht; clear hg)
    | ((try lift_lets); intro x; refine (show State.Inv x → _ from ?_) ?_; (on_goal 2 => subst x); (on_goal 1 => (intro hx; clear_value x)))
    | intro _
    | fail_if_no_progress (with_reducible apply inv_upd)
    | with_reducible first | apply State.when_inv | apply State.modCsc_inv | apply State.stopLink_inv
        | apply State.set_inv | apply State.raiseFault_inv | apply outInv_next

theorem execIndexClash_inv (u : Fin 4) (s : State) (hs : s.Inv) :
    OutInv (execIndexClash u s) := by
  unfold execIndexClash
  repeat' first
    | with_reducible assumption
    | (intro t ht; have hg : State.Inv t := ht; clear hg)
    | ((try lift_lets); intro x; refine (show State.Inv x → _ from ?_) ?_; (on_goal 2 => subst x); (on_goal 1 => (intro hx; clear_value x)))
    | intro _
    | with_reducible first | apply State.when_inv | apply State.setBit_inv | apply State.set_inv
        | apply State.raiseFault_inv | apply State.dropMember_inv | apply State.voidTunnel_inv | apply outInv_next

theorem execSyncLock_inv (half : Nat) (s : State) (hs : s.Inv) :
    OutInv (execSyncLock half s) := by
  unfold execSyncLock
  repeat' first
    | with_reducible assumption
    | (intro t ht; have hg : State.Inv t := ht; clear hg)
    | ((try lift_lets); intro x; refine (show State.Inv x → _ from ?_) ?_; (on_goal 2 => subst x); (on_goal 1 => (intro hx; clear_value x)))
    | intro _
    | fail_if_no_progress (with_reducible apply inv_upd)
    | with_reducible first | apply State.when_inv | apply State.modCsc_inv | apply State.set_inv
        | apply State.raiseCascade_inv | apply outInv_next

theorem execSyncLost_inv (s : State) (hs : s.Inv) :
    OutInv (execSyncLost s) := by
  unfold execSyncLost
  repeat' first
    | with_reducible assumption
    | (intro t ht; have hg : State.Inv t := ht; clear hg)
    | ((try lift_lets); intro x; refine (show State.Inv x → _ from ?_) ?_; (on_goal 2 => subst x); (on_goal 1 => (intro hx; clear_value x)))
    | intro _
    | with_reducible first | apply State.when_inv | apply State.set_inv | apply State.raiseFault_inv
        | apply State.raiseCascade_inv | apply outInv_next

theorem execParCfgApply_inv (s : State) (hs : s.Inv) :
    OutInv (execParCfgApply s) := by
  unfold execParCfgApply
  repeat' first
    | with_reducible assumption
    | (intro t ht; have hg : State.Inv t := ht; clear hg)
    | intro _
    | fail_if_no_progress (with_reducible apply inv_upd)
    | with_reducible first | apply State.when_inv | apply State.setWord_inv | apply State.modCsc_inv
        | apply State.set_inv | apply outInv_next
    | split

theorem execCscSleepEnter_inv (s : State) (hs : s.Inv) :
    OutInv (execCscSleepEnter s) := by
  unfold execCscSleepEnter
  repeat' first
    | with_reducible assumption
    | (intro t ht; have hg : State.Inv t := ht; clear hg)
    | intro _
    | fail_if_no_progress (with_reducible apply inv_upd)
    | with_reducible first | apply State.when_inv | apply State.modCsc_inv | apply State.abandonKa_inv
        | apply State.ifDo_inv | apply State.enterKa_inv | apply outInv_next
    | split

theorem execCscWakeBurst_inv (s : State) (hs : s.Inv) :
    OutInv (execCscWakeBurst s) := by
  unfold execCscWakeBurst
  repeat' first
    | with_reducible assumption
    | (intro t ht; have hg : State.Inv t := ht; clear hg)
    | intro _
    | with_reducible first | apply State.when_inv | apply State.wakeUp_inv | apply outInv_next

theorem execCscWakeNoMaster_inv (s : State) (hs : s.Inv) :
    OutInv (execCscWakeNoMaster s) := by
  unfold execCscWakeNoMaster
  repeat' first
    | with_reducible assumption
    | (intro t ht; have hg : State.Inv t := ht; clear hg)
    | intro _
    | fail_if_no_progress (with_reducible apply inv_upd)
    | with_reducible exact inv_regReset _ _
    | with_reducible apply hfn
    | with_reducible apply State.when_inv
    | with_reducible apply State.enterFallback_inv
    | with_reducible apply outInv_next

theorem execTunnelTimeout_inv (s : State) (hs : s.Inv) :
    OutInv (execTunnelTimeout s) := by
  unfold execTunnelTimeout
  repeat' first
    | with_reducible assumption
    | (intro t ht; have hg : State.Inv t := ht; clear hg)
    | intro _
    | fail_if_no_progress (with_reducible apply inv_upd)
    | with_reducible first | apply State.when_inv | apply State.modQueue_inv | apply State.set_inv
        | apply State.complete_inv | apply outInv_next
    | split

theorem opCascadeStatus_inv (c : Cmd) (s : State) (hs : s.Inv) :
    (opCascadeStatus c s).2.Inv := by
  unfold opCascadeStatus
  repeat' first
    | with_reducible assumption

theorem execCascadeStatus_inv (s : State) (hs : s.Inv) :
    OutInv (execCascadeStatus s) := by
  unfold execCascadeStatus
  repeat' first
    | with_reducible assumption
    | (intro t ht; have hg : State.Inv t := ht; clear hg)
    | (intro y t ht; have hg : State.Inv t := ht; clear hg)
    | intro _
    | with_reducible first | apply State.when_inv | apply State.runCmd_inv | apply opCascadeStatus_inv
        | apply outInv_next

theorem localAccess_inv (c : Cmd) (s : State) (hs : s.Inv) :
    (localAccess c s).2.Inv := by
  unfold localAccess
  repeat' first
    | with_reducible assumption
    | ((try lift_lets); intro x; refine (show State.Inv (Prod.snd x) → _ from ?_) ?_; (on_goal 2 => subst x); (on_goal 1 => (intro hx; clear_value x)))
    | ((try lift_lets); intro x; clear_value x)
    | with_reducible first | apply State.read_inv | apply State.maskedWrite_inv
    | split

theorem opRemote_inv (c : Cmd) (s : State) (hs : s.Inv) :
    (opRemote c s).2.Inv := by
  unfold opRemote
  repeat' first
    | with_reducible assumption
    | ((try lift_lets); intro x; clear_value x)
    | intro _
    | fail_if_no_progress (with_reducible apply inv_upd)
    | with_reducible first | apply localAccess_inv | apply State.modQueue_inv
    | split

theorem execCascadeRemoteRead_inv (s : State) (hs : s.Inv) :
    OutInv (execCascadeRemoteRead s) := by
  unfold execCascadeRemoteRead
  repeat' first
    | with_reducible assumption
    | (intro t ht; have hg : State.Inv t := ht; clear hg)
    | (intro y t ht; have hg : State.Inv t := ht; clear hg)
    | intro _
    | with_reducible first | apply State.when_inv | apply State.runCmd_inv | apply opRemote_inv | apply outInv_next

theorem execCascadeRemoteWrite_inv (s : State) (hs : s.Inv) :
    OutInv (execCascadeRemoteWrite s) := by
  unfold execCascadeRemoteWrite
  repeat' first
    | with_reducible assumption
    | (intro t ht; have hg : State.Inv t := ht; clear hg)
    | (intro y t ht; have hg : State.Inv t := ht; clear hg)
    | intro _
    | with_reducible first | apply State.when_inv | apply State.runCmd_inv | apply opRemote_inv | apply outInv_next

end Sys2Proof.Machine
end

