-- ==== Sys2Proof/Laws/InvModes.lean ====
section
/-! SUPPORT. Every operation of Machine/Modes.lean keeps the canonical form of the register space. -/

set_option Elab.async false

namespace Sys2Proof.Machine

theorem execXtalSwitchOver_inv (s : State) (hs : s.Inv) :
    OutInv (execXtalSwitchOver s) := by
  unfold execXtalSwitchOver
  repeat' first
    | with_reducible assumption
    | (intro t ht; have hg : State.Inv t := ht; clear hg)
    | intro _
    | with_reducible first | apply State.when_inv | apply State.set_inv | apply outInv_next

theorem execXtalFail_inv (s : State) (hs : s.Inv) :
    OutInv (execXtalFail s) := by
  unfold execXtalFail
  repeat' first
    | with_reducible assumption
    | (intro t ht; have hg : State.Inv t := ht; clear hg)
    | ((try lift_lets); intro x; refine (show State.Inv x → _ from ?_) ?_; (on_goal 2 => subst x); (on_goal 1 => (intro hx; clear_value x)))
    | intro _
    | fail_if_no_progress (with_reducible apply inv_upd)
    | with_reducible first | apply State.when_inv | apply State.set_inv | apply State.raiseFault_inv
        | apply outInv_next

theorem execFllLock_inv (s : State) (hs : s.Inv) :
    OutInv (execFllLock s) := by
  unfold execFllLock
  repeat' first
    | with_reducible assumption
    | (intro t ht; have hg : State.Inv t := ht; clear hg)
    | intro _
    | with_reducible first | apply State.when_inv | apply State.set_inv | apply outInv_next

theorem execPllLock_inv (s : State) (hs : s.Inv) :
    OutInv (execPllLock s) := by
  unfold execPllLock
  repeat' first
    | with_reducible assumption
    | (intro t ht; have hg : State.Inv t := ht; clear hg)
    | (intro t y ht; have hg : State.Inv t := ht; clear hg)
    | ((try lift_lets); intro x; refine (show State.Inv x → _ from ?_) ?_; (on_goal 2 => subst x); (on_goal 1 => (intro hx; clear_value x)))
    | ((try lift_lets); intro x; clear_value x)
    | intro _
    | fail_if_no_progress (with_reducible apply inv_upd)
    | with_reducible first | apply State.when_inv | apply State.set_inv | apply State.eachPort_inv
        | apply State.setTerm_inv | apply outInv_next

theorem execPllUnlock_inv (s : State) (hs : s.Inv) :
    OutInv (execPllUnlock s) := by
  unfold execPllUnlock
  repeat' first
    | with_reducible assumption
    | (intro t ht; have hg : State.Inv t := ht; clear hg)
    | ((try lift_lets); intro x; refine (show State.Inv x → _ from ?_) ?_; (on_goal 2 => subst x); (on_goal 1 => (intro hx; clear_value x)))
    | intro _
    | with_reducible first | apply State.when_inv | apply State.set_inv | apply State.raiseFault_inv
        | apply outInv_next

theorem execPllLockRetry_inv (locked : Bool) (s : State) (hs : s.Inv) :
    OutInv (execPllLockRetry locked s) := by
  unfold execPllLockRetry
  repeat' first
    | with_reducible assumption
    | (intro t ht; have hg : State.Inv t := ht; clear hg)
    | intro _
    | with_reducible first | apply State.when_inv | apply State.set_inv | apply outInv_next

theorem execRefclkLoss_inv (s : State) (hs : s.Inv) :
    OutInv (execRefclkLoss s) := by
  unfold execRefclkLoss
  repeat' first
    | with_reducible assumption
    | (intro t ht; have hg : State.Inv t := ht; clear hg)
    | intro _
    | with_reducible first | apply State.when_inv | apply State.linkDown_inv | apply State.hostReset_inv
        | apply State.set_inv | apply State.raiseFault_inv | apply outInv_next

theorem State.porReset_inv (s : State) : (State.porReset s).Inv := regsOk_nil

theorem State.porRelease_inv (s : State) (vbat : Nat) (vbus : List Nat) (hs : s.Inv) :
    (State.porRelease s vbat vbus).Inv := by
  unfold State.porRelease
  repeat' first
    | with_reducible assumption
    | (intro t y ht; have hg : State.Inv t := ht; clear hg)
    | ((try lift_lets); intro x; refine (show State.Inv x → _ from ?_) ?_; (on_goal 2 => subst x); (on_goal 1 => (intro hx; clear_value x)))
    | ((try lift_lets); intro x; clear_value x)
    | intro _
    | fail_if_no_progress (with_reducible apply inv_upd)
    | with_reducible exact inv_regReset _ _
    | with_reducible apply hfn
    | with_reducible apply State.set_inv
    | with_reducible apply State.setSat_inv
    | with_reducible apply State.eachPort_inv
    | with_reducible apply State.showFw_inv
    | with_reducible apply State.newNonce_inv
    | with_reducible apply State.armFallback_inv
    | with_reducible apply outInv_next
    | with_reducible apply inv_foldl
    | with_reducible apply inv_foldlFst
    | with_reducible apply inv_foldlSnd
    | split

theorem execAonPorAssert_inv (supplyGone : Bool) (s : State) (hs : s.Inv) :
    OutInv (execAonPorAssert supplyGone s) := by
  unfold execAonPorAssert
  repeat' first
    | with_reducible assumption
    | ((try lift_lets); intro x; refine (show State.Inv x → _ from ?_) ?_; (on_goal 2 => subst x); (on_goal 1 => (intro hx; clear_value x)))
    | ((try lift_lets); intro x; clear_value x)
    | fail_if_no_progress (with_reducible apply inv_upd)
    | with_reducible first | apply State.porReset_inv | apply State.set_inv | apply outInv_next
    | split

theorem execAonPorRelease_inv (vbat : Nat) (vbus : List Nat) (s : State) (hs : s.Inv) :
    OutInv (execAonPorRelease vbat vbus s) := by
  unfold execAonPorRelease
  repeat' first
    | with_reducible assumption
    | intro _
    | fail_if_no_progress (with_reducible apply inv_upd)
    | with_reducible exact inv_regReset _ _
    | with_reducible apply hfn
    | with_reducible apply State.porRelease_inv
    | with_reducible apply outInv_next
    | with_reducible apply inv_foldl
    | with_reducible apply inv_foldlFst
    | with_reducible apply inv_foldlSnd
    | split

theorem State.showStraps_inv (s : State) (r : StrapReading) (hs : s.Inv) :
    (State.showStraps s r).Inv := by
  unfold State.showStraps
  repeat' first
    | with_reducible assumption
    | ((try lift_lets); intro x; refine (show State.Inv x → _ from ?_) ?_; (on_goal 2 => subst x); (on_goal 1 => (intro hx; clear_value x)))
    | ((try lift_lets); intro x; clear_value x)
    | intro _
    | fail_if_no_progress (with_reducible apply inv_upd)
    | with_reducible first | apply State.set_inv | apply State.setb_inv | apply State.compat_inv
        | apply State.modCsc_inv

theorem State.loadStraps_inv (s : State) (hs : s.Inv) :
    (State.loadStraps s).Inv := by
  unfold State.loadStraps
  repeat' first
    | with_reducible assumption
    | (intro t y ht; have hg : State.Inv t := ht; clear hg)
    | ((try lift_lets); intro x; refine (show State.Inv x → _ from ?_) ?_; (on_goal 2 => subst x); (on_goal 1 => (intro hx; clear_value x)))
    | intro _
    | fail_if_no_progress (with_reducible apply inv_upd)
    | with_reducible exact inv_regReset _ _
    | with_reducible apply hfn
    | with_reducible apply State.set_inv
    | with_reducible apply State.aloneVsys_inv
    | with_reducible apply State.eachPort_inv
    | with_reducible apply State.setb_inv
    | with_reducible apply State.writeProfile_inv
    | with_reducible apply State.setUdid_inv

theorem State.packAtBoot_inv (s : State) (hs : s.Inv) :
    (State.packAtBoot s).Inv := by
  unfold State.packAtBoot
  repeat' first
    | with_reducible assumption
    | ((try lift_lets); intro x; refine (show State.Inv x → _ from ?_) ?_; (on_goal 2 => subst x); (on_goal 1 => (intro hx; clear_value x)))
    | ((try lift_lets); intro x; clear_value x)
    | fail_if_no_progress (with_reducible apply inv_upd)
    | with_reducible first | apply State.setb_inv | apply State.fillCredit_inv | apply State.restoreBat_inv
        | apply State.set_inv
    | split

theorem State.phaseAtBoot_inv (s : State) (hs : s.Inv) :
    (State.phaseAtBoot s).Inv := by
  unfold State.phaseAtBoot
  repeat' first
    | with_reducible assumption
    | with_reducible first | apply State.set_inv

theorem execStrapLatch_inv (r : StrapReading) (s : State) (hs : s.Inv) :
    OutInv (execStrapLatch r s) := by
  unfold execStrapLatch
  repeat' first
    | with_reducible assumption
    | (intro t ht; have hg : State.Inv t := ht; clear hg)
    | (intro t y ht; have hg : State.Inv t := ht; clear hg)
    | ((try lift_lets); intro x; refine (show State.Inv x → _ from ?_) ?_; (on_goal 2 => subst x); (on_goal 1 => (intro hx; clear_value x)))
    | ((try lift_lets); intro x; clear_value x)
    | intro _
    | fail_if_no_progress (with_reducible apply inv_upd)
    | with_reducible exact inv_regReset _ _
    | with_reducible apply hfn
    | with_reducible apply State.when_inv
    | with_reducible apply State.set_inv
    | with_reducible apply State.showStraps_inv
    | with_reducible apply State.loadStraps_inv
    | with_reducible apply State.packAtBoot_inv
    | with_reducible apply State.phaseAtBoot_inv
    | with_reducible apply State.eachPort_inv
    | with_reducible apply State.setTerm_inv
    | with_reducible apply State.raiseFault_inv
    | with_reducible apply outInv_next
    | with_reducible apply inv_foldl
    | with_reducible apply inv_foldlFst
    | with_reducible apply inv_foldlSnd
    | split

theorem imageOp_inv (opcode : Nat) (op : Cmd → State → CmdRes × State) (c : Cmd) (s : State) (h : imageOp opcode = some op)
    (hs : s.Inv) : (op c s).2.Inv := by
  unfold imageOp at h
  split at h
  all_goals first
    | (cases h; first
        | done
        | with_reducible exact opSetParam_inv _ _ hs
        | with_reducible exact opBudgetSetPolicy_inv _ _ hs
        | with_reducible exact opChargeProfileLoad_inv _ _ hs
        | with_reducible exact opPdSetPortPolicy_inv _ _ hs
        | with_reducible exact opPdSetSourceCaps_inv _ _ hs
        | with_reducible exact opPdSetSinkCaps_inv _ _ hs
        | with_reducible exact opPdRequest_inv _ _ hs
        | with_reducible exact opPdPortDisable_inv _ _ hs
        | with_reducible exact opRailConfig_inv _ _ hs
        | with_reducible exact opPhaseMapSet_inv _ _ hs
        | with_reducible exact opInputSelect_inv _ _ hs)

theorem State.imageCmd_inv (s : State) (opcode : Nat) (params : List Byte) (hs : s.Inv) :
    (s.imageCmd opcode params).2.Inv := by
  unfold State.imageCmd
  split
  · rename_i op f hop hf
    have h := imageOp_inv opcode op (localCmd opcode params) s hop hs
    split
    · exact hs
    · split <;> rename_i heq <;> rw [heq] at h
      · exact h
      · exact State.finishMap_inv _ h
  · exact hs

theorem State.applyRecord_inv (s : State) (r : CfgRecord) (hs : s.Inv) :
    (State.applyRecord s r).2.Inv := by
  unfold State.applyRecord
  repeat' first
    | with_reducible assumption
    | ((try lift_lets); intro x; clear_value x)
    | fail_if_no_progress (with_reducible apply inv_upd)
    | with_reducible first | apply State.imageCmd_inv
    | split

theorem State.applyRecords_inv (s : State) (k : Nat) (l : List CfgRecord) (hs : s.Inv) : (s.applyRecords k l).Inv := by
  induction l generalizing s k with
  | nil => exact hs
  | cons r rs ih =>
    unfold State.applyRecords
    have h := State.applyRecord_inv s r hs
    dsimp only
    apply ih
    split
    · exact h
    · exact State.raiseFault_inv _ _ _ _ _ (State.bump_inv _ _ h)

theorem execConfigImageApply_inv (s : State) (hs : s.Inv) :
    OutInv (execConfigImageApply s) := by
  unfold execConfigImageApply
  repeat' first
    | with_reducible assumption
    | (intro t ht; have hg : State.Inv t := ht; clear hg)
    | ((try lift_lets); intro x; refine (show State.Inv x → _ from ?_) ?_; (on_goal 2 => subst x); (on_goal 1 => (intro hx; clear_value x)))
    | ((try lift_lets); intro x; clear_value x)
    | intro _
    | fail_if_no_progress (with_reducible apply inv_upd)
    | with_reducible first | apply State.when_inv | apply State.set_inv | apply State.applyRecords_inv
        | apply State.goAlone_inv | apply State.raiseFault_inv | apply outInv_next
    | split

theorem State.dbConnect_inv (s : State) (p : Fin 4) (hs : s.Inv) :
    (State.dbConnect s p).Inv := by
  unfold State.dbConnect
  repeat' first
    | with_reducible assumption
    | ((try lift_lets); intro x; refine (show State.Inv x → _ from ?_) ?_; (on_goal 2 => subst x); (on_goal 1 => (intro hx; clear_value x)))
    | intro _
    | fail_if_no_progress (with_reducible apply inv_upd)
    | with_reducible first | apply State.setContract_inv | apply State.modBus_inv | apply State.set_inv
    | split

theorem State.takeRoles_inv (s : State) (hs : s.Inv) :
    (State.takeRoles s).Inv := by
  unfold State.takeRoles
  repeat' first
    | with_reducible assumption
    | (intro t y ht; have hg : State.Inv t := ht; clear hg)
    | intro _
    | with_reducible first | apply State.eachPort_inv | apply State.setTerm_inv | apply State.setTc_inv
        | apply State.set_inv
    | split

theorem execPowerStageEnable_inv (s : State) (hs : s.Inv) :
    OutInv (execPowerStageEnable s) := by
  unfold execPowerStageEnable
  repeat' first
    | with_reducible assumption
    | (intro t ht; have hg : State.Inv t := ht; clear hg)
    | ((try lift_lets); intro x; refine (show State.Inv x → _ from ?_) ?_; (on_goal 2 => subst x); (on_goal 1 => (intro hx; clear_value x)))
    | ((try lift_lets); intro x; clear_value x)
    | intro _
    | fail_if_no_progress (with_reducible apply inv_upd)
    | with_reducible first | apply State.when_inv | apply State.set_inv | apply State.takeRoles_inv
        | apply State.dbConnect_inv | apply State.autoSelect_inv | apply State.bootGroup_inv | apply outInv_next
    | split

theorem State.cscBoot_inv (s : State) (hs : s.Inv) :
    (State.cscBoot s).Inv := by
  unfold State.cscBoot
  repeat' first
    | with_reducible assumption
    | intro _
    | fail_if_no_progress (with_reducible apply inv_upd)
    | with_reducible first | apply State.setCscClock_inv | apply State.modCsc_inv | apply State.set_inv
    | split

theorem execBar0Ready_inv (s : State) (hs : s.Inv) :
    OutInv (execBar0Ready s) := by
  unfold execBar0Ready
  repeat' first
    | with_reducible assumption
    | (intro t ht; have hg : State.Inv t := ht; clear hg)
    | ((try lift_lets); intro x; clear_value x)
    | intro _
    | fail_if_no_progress (with_reducible apply inv_upd)
    | with_reducible first | apply State.when_inv | apply State.cscBoot_inv | apply outInv_next

theorem execDbAttach_inv (p : Fin 4) (cc2 : Bool) (level : Fin 3) (s : State) (hs : s.Inv) :
    OutInv (execDbAttach p cc2 level s) := by
  unfold execDbAttach
  repeat' first
    | with_reducible assumption
    | (intro t ht; have hg : State.Inv t := ht; clear hg)
    | ((try lift_lets); intro x; refine (show State.Inv x → _ from ?_) ?_; (on_goal 2 => subst x); (on_goal 1 => (intro hx; clear_value x)))
    | ((try lift_lets); intro x; clear_value x)
    | intro _
    | fail_if_no_progress (with_reducible apply inv_upd)
    | with_reducible first | apply State.when_inv | apply State.setb_inv | apply State.set_inv
        | apply State.attachSink_inv | apply State.dbConnect_inv | apply outInv_next
    | split

theorem execVsysMinReached_inv (vsys : Nat) (s : State) (hs : s.Inv) :
    OutInv (execVsysMinReached vsys s) := by
  unfold execVsysMinReached
  repeat' first
    | with_reducible assumption
    | (intro t ht; have hg : State.Inv t := ht; clear hg)
    | ((try lift_lets); intro x; refine (show State.Inv x → _ from ?_) ?_; (on_goal 2 => subst x); (on_goal 1 => (intro hx; clear_value x)))
    | ((try lift_lets); intro x; clear_value x)
    | intro _
    | fail_if_no_progress (with_reducible apply inv_upd)
    | with_reducible first | apply State.when_inv | apply State.setSat_inv | apply State.restoreBat_inv
        | apply State.startCycle_inv | apply State.bootGroup_inv | apply State.set_inv | apply outInv_next

theorem execModeEvaluate_inv (ibat : Int) (s : State) (hs : s.Inv) :
    OutInv (execModeEvaluate ibat s) := by
  unfold execModeEvaluate
  repeat' first
    | with_reducible assumption
    | (intro t ht; have hg : State.Inv t := ht; clear hg)
    | ((try lift_lets); intro x; refine (show State.Inv x → _ from ?_) ?_; (on_goal 2 => subst x); (on_goal 1 => (intro hx; clear_value x)))
    | ((try lift_lets); intro x; clear_value x)
    | intro _
    | fail_if_no_progress (with_reducible apply inv_upd)
    | with_reducible first | apply State.when_inv | apply State.seti_inv | apply State.setMode_inv
        | apply State.set_inv | apply outInv_next
    | split

theorem execHybDwellExpiry_inv (s : State) (hs : s.Inv) :
    OutInv (execHybDwellExpiry s) := by
  unfold execHybDwellExpiry
  repeat' first
    | with_reducible assumption
    | (intro t ht; have hg : State.Inv t := ht; clear hg)
    | ((try lift_lets); intro x; clear_value x)
    | intro _
    | fail_if_no_progress (with_reducible apply inv_upd)
    | with_reducible first | apply State.when_inv | apply State.setMode_inv | apply State.set_inv | apply outInv_next

theorem State.pend_inv (s : State) (e : LowEntry) (hs : s.Inv) :
    (State.pend s e).Inv := by
  unfold State.pend
  repeat' first
    | with_reducible assumption
    | ((try lift_lets); intro x; clear_value x)
    | fail_if_no_progress (with_reducible apply inv_upd)
    | with_reducible first | apply State.set_inv

theorem opKeepAlive_inv (c : Cmd) (s : State) (hs : s.Inv) :
    (opKeepAlive c s).2.Inv := by
  unfold opKeepAlive
  repeat' first
    | with_reducible assumption
    | ((try lift_lets); intro x; clear_value x)
    | fail_if_no_progress (with_reducible apply inv_upd)
    | with_reducible first | apply State.pend_inv
    | split

theorem execModeRequestKeepAlive_inv (s : State) (hs : s.Inv) :
    OutInv (execModeRequestKeepAlive s) := by
  unfold execModeRequestKeepAlive
  repeat' first
    | with_reducible assumption
    | (intro t ht; have hg : State.Inv t := ht; clear hg)
    | (intro y t ht; have hg : State.Inv t := ht; clear hg)
    | intro _
    | with_reducible first | apply State.when_inv | apply State.runCmd_inv | apply opKeepAlive_inv | apply outInv_next

theorem opShip_inv (c : Cmd) (s : State) (hs : s.Inv) :
    (opShip c s).2.Inv := by
  unfold opShip
  repeat' first
    | with_reducible assumption
    | with_reducible first | apply State.pend_inv | apply State.raiseMode_inv
    | split

theorem execModeRequestShip_inv (s : State) (hs : s.Inv) :
    OutInv (execModeRequestShip s) := by
  unfold execModeRequestShip
  repeat' first
    | with_reducible assumption
    | (intro t ht; have hg : State.Inv t := ht; clear hg)
    | (intro y t ht; have hg : State.Inv t := ht; clear hg)
    | intro _
    | with_reducible first | apply State.when_inv | apply State.ifDo_inv | apply State.wakeUp_inv
        | apply State.runCmd_inv | apply opShip_inv | apply outInv_next

theorem State.leaveSafe_inv (s : State) (hs : s.Inv) :
    (State.leaveSafe s).Inv := by
  unfold State.leaveSafe
  repeat' first
    | with_reducible assumption
    | (intro t y ht; have hg : State.Inv t := ht; clear hg)
    | ((try lift_lets); intro x; refine (show State.Inv x → _ from ?_) ?_; (on_goal 2 => subst x); (on_goal 1 => (intro hx; clear_value x)))
    | intro _
    | fail_if_no_progress (with_reducible apply inv_upd)
    | with_reducible first | apply State.eachPhase_inv | apply State.modPhase_inv | apply State.set_inv
        | apply State.setMode_inv | apply State.restoreBat_inv | apply State.takeRoles_inv
        | apply State.autoSelect_inv
    | split

theorem opClearSafe_inv (vsys : Nat) (pairsOff : Bool) (batOff : Bool) (u_ : Cmd) (s : State) (hs : s.Inv) :
    (opClearSafe vsys pairsOff batOff u_ s).2.Inv := by
  unfold opClearSafe
  repeat' first
    | with_reducible assumption
    | with_reducible first | apply State.leaveSafe_inv
    | split

theorem execModeRequestClearSafe_inv (vsys : Nat) (pairsOff : Bool) (batOff : Bool) (s : State) (hs : s.Inv) :
    OutInv (execModeRequestClearSafe vsys pairsOff batOff s) := by
  unfold execModeRequestClearSafe
  repeat' first
    | with_reducible assumption
    | (intro t ht; have hg : State.Inv t := ht; clear hg)
    | (intro y t ht; have hg : State.Inv t := ht; clear hg)
    | intro _
    | with_reducible first | apply State.when_inv | apply State.runCmd_inv | apply opClearSafe_inv | apply outInv_next

theorem execKaEntryDelayExpiry_inv (s : State) (hs : s.Inv) :
    OutInv (execKaEntryDelayExpiry s) := by
  unfold execKaEntryDelayExpiry
  repeat' first
    | with_reducible assumption
    | (intro t ht; have hg : State.Inv t := ht; clear hg)
    | intro _
    | with_reducible first | apply State.when_inv | apply State.kaGo_inv | apply outInv_next

theorem execKaWake_inv (src : WakeSource) (s : State) (hs : s.Inv) :
    OutInv (execKaWake src s) := by
  unfold execKaWake
  repeat' first
    | with_reducible assumption
    | (intro t ht; have hg : State.Inv t := ht; clear hg)
    | intro _
    | with_reducible first | apply State.when_inv | apply State.wakeUp_inv | apply outInv_next

theorem execKaIdleExpiry_inv (s : State) (hs : s.Inv) :
    OutInv (execKaIdleExpiry s) := by
  unfold execKaIdleExpiry
  repeat' first
    | with_reducible assumption
    | (intro t ht; have hg : State.Inv t := ht; clear hg)
    | intro _
    | with_reducible first | apply State.when_inv | apply State.kaGo_inv | apply outInv_next

theorem execKaScan_inv (p : Fin 4) (found : Bool) (s : State) (hs : s.Inv) :
    OutInv (execKaScan p found s) := by
  unfold execKaScan
  repeat' first
    | with_reducible assumption
    | (intro t ht; have hg : State.Inv t := ht; clear hg)
    | intro _
    | with_reducible first | apply State.when_inv | apply State.wakeUp_inv | apply outInv_next

theorem State.shipDown_inv (s : State) (hs : s.Inv) :
    (State.shipDown s).Inv := by
  unfold State.shipDown
  repeat' first
    | with_reducible assumption
    | with_reducible first | apply State.pend_inv | apply State.stopRails_inv

theorem execShipDelayExpiry_inv (s : State) (hs : s.Inv) :
    OutInv (execShipDelayExpiry s) := by
  unfold execShipDelayExpiry
  repeat' first
    | with_reducible assumption
    | (intro t ht; have hg : State.Inv t := ht; clear hg)
    | intro _
    | with_reducible first | apply State.when_inv | apply State.shipDown_inv | apply outInv_next

theorem execShipRailsOff_inv (s : State) (hs : s.Inv) :
    OutInv (execShipRailsOff s) := by
  unfold execShipRailsOff
  repeat' first
    | with_reducible assumption
    | (intro t ht; have hg : State.Inv t := ht; clear hg)
    | ((try lift_lets); intro x; refine (show State.Inv x → _ from ?_) ?_; (on_goal 2 => subst x); (on_goal 1 => (intro hx; clear_value x)))
    | intro _
    | with_reducible first | apply State.when_inv | apply State.shipDown_inv | apply State.pend_inv
        | apply State.writeLog_inv | apply outInv_next
    | split

theorem execShipEnter_inv (s : State) (hs : s.Inv) :
    OutInv (execShipEnter s) := by
  unfold execShipEnter
  repeat' first
    | with_reducible assumption
    | (intro t ht; have hg : State.Inv t := ht; clear hg)
    | ((try lift_lets); intro x; refine (show State.Inv x → _ from ?_) ?_; (on_goal 2 => subst x); (on_goal 1 => (intro hx; clear_value x)))
    | ((try lift_lets); intro x; clear_value x)
    | intro _
    | fail_if_no_progress (with_reducible apply inv_upd)
    | with_reducible first | apply State.when_inv | apply State.porReset_inv | apply State.setWord_inv
        | apply State.set_inv | apply outInv_next

theorem execShipAbandon_inv (p : Fin 4) (s : State) (hs : s.Inv) :
    OutInv (execShipAbandon p s) := by
  unfold execShipAbandon
  repeat' first
    | with_reducible assumption
    | (intro t ht; have hg : State.Inv t := ht; clear hg)
    | ((try lift_lets); intro x; refine (show State.Inv x → _ from ?_) ?_; (on_goal 2 => subst x); (on_goal 1 => (intro hx; clear_value x)))
    | ((try lift_lets); intro x; clear_value x)
    | intro _
    | fail_if_no_progress (with_reducible apply inv_upd)
    | with_reducible first | apply State.when_inv | apply State.shipDown_inv | apply State.set_inv
        | apply State.setSat_inv | apply State.keepRails_inv | apply State.raiseMode_inv | apply outInv_next

theorem State.keeperStart_inv (s : State) (cause : Nat) (vbat : Nat) (vbus : List Nat) (hs : s.Inv) :
    (State.keeperStart s cause vbat vbus).Inv := by
  unfold State.keeperStart
  repeat' first
    | with_reducible assumption
    | ((try lift_lets); intro x; refine (show State.Inv x → _ from ?_) ?_; (on_goal 2 => subst x); (on_goal 1 => (intro hx; clear_value x)))
    | ((try lift_lets); intro x; clear_value x)
    | intro _
    | fail_if_no_progress (with_reducible apply inv_upd)
    | with_reducible exact inv_regReset _ _
    | with_reducible apply hfn
    | with_reducible apply State.porReset_inv
    | with_reducible apply State.porRelease_inv

theorem execShipExitButton_inv (vbat : Nat) (vbus : List Nat) (s : State) (hs : s.Inv) :
    OutInv (execShipExitButton vbat vbus s) := by
  unfold execShipExitButton
  repeat' first
    | with_reducible assumption
    | with_reducible first | apply State.keeperStart_inv | apply outInv_next
    | split

theorem execShipExitVbus_inv (p : Fin 4) (vbat : Nat) (vbus : List Nat) (s : State) (hs : s.Inv) :
    OutInv (execShipExitVbus p vbat vbus s) := by
  unfold execShipExitVbus
  repeat' first
    | with_reducible assumption
    | with_reducible first | apply State.keeperStart_inv | apply outInv_next
    | split

theorem State.packGoesLow_inv (s : State) (hs : s.Inv) :
    (State.packGoesLow s).Inv := by
  unfold State.packGoesLow
  repeat' first
    | with_reducible assumption
    | ((try lift_lets); intro x; clear_value x)
    | fail_if_no_progress (with_reducible apply inv_upd)
    | with_reducible first | apply State.raiseMode_inv
    | split

theorem execPackLow_inv (vbat : Nat) (s : State) (hs : s.Inv) :
    OutInv (execPackLow vbat s) := by
  unfold execPackLow
  repeat' first
    | with_reducible assumption
    | (intro t ht; have hg : State.Inv t := ht; clear hg)
    | ((try lift_lets); intro x; refine (show State.Inv x → _ from ?_) ?_; (on_goal 2 => subst x); (on_goal 1 => (intro hx; clear_value x)))
    | ((try lift_lets); intro x; clear_value x)
    | intro _
    | fail_if_no_progress (with_reducible apply inv_upd)
    | with_reducible first | apply State.when_inv | apply State.setSat_inv | apply State.packGoesLow_inv
        | apply State.set_inv | apply outInv_next
    | split

theorem execPackCutoffExpiry_inv (vbat : Nat) (s : State) (hs : s.Inv) :
    OutInv (execPackCutoffExpiry vbat s) := by
  unfold execPackCutoffExpiry
  repeat' first
    | with_reducible assumption
    | (intro t ht; have hg : State.Inv t := ht; clear hg)
    | ((try lift_lets); intro x; refine (show State.Inv x → _ from ?_) ?_; (on_goal 2 => subst x); (on_goal 1 => (intro hx; clear_value x)))
    | ((try lift_lets); intro x; clear_value x)
    | intro _
    | fail_if_no_progress (with_reducible apply inv_upd)
    | with_reducible first | apply State.when_inv | apply State.setSat_inv | apply State.abandonKa_inv
        | apply State.raiseMode_inv | apply State.shipDown_inv | apply State.set_inv | apply outInv_next
    | split

theorem execKaVbatCheck_inv (vbat : Nat) (s : State) (hs : s.Inv) :
    OutInv (execKaVbatCheck vbat s) := by
  unfold execKaVbatCheck
  repeat' first
    | with_reducible assumption
    | (intro t ht; have hg : State.Inv t := ht; clear hg)
    | ((try lift_lets); intro x; refine (show State.Inv x → _ from ?_) ?_; (on_goal 2 => subst x); (on_goal 1 => (intro hx; clear_value x)))
    | intro _
    | with_reducible first | apply State.when_inv | apply State.setSat_inv | apply State.wakeUp_inv
        | apply State.packGoesLow_inv | apply State.set_inv | apply outInv_next
    | split

theorem execVsysOvpTrip_inv (vsys : Nat) (s : State) (hs : s.Inv) :
    OutInv (execVsysOvpTrip vsys s) := by
  unfold execVsysOvpTrip
  repeat' first
    | with_reducible assumption
    | (intro t ht; have hg : State.Inv t := ht; clear hg)
    | intro _
    | with_reducible first | apply State.when_inv | apply State.setSat_inv | apply State.safeEnter_inv
        | apply State.set_inv | apply outInv_next

theorem execPairStuckOn_inv (s : State) (hs : s.Inv) :
    OutInv (execPairStuckOn s) := by
  unfold execPairStuckOn
  repeat' first
    | with_reducible assumption
    | (intro t ht; have hg : State.Inv t := ht; clear hg)
    | intro _
    | with_reducible first | apply State.when_inv | apply State.safeEnter_inv | apply outInv_next

theorem execBatfetStuckOn_inv (ibat : Int) (s : State) (hs : s.Inv) :
    OutInv (execBatfetStuckOn ibat s) := by
  unfold execBatfetStuckOn
  repeat' first
    | with_reducible assumption
    | (intro t ht; have hg : State.Inv t := ht; clear hg)
    | intro _
    | with_reducible first | apply State.when_inv | apply State.seti_inv | apply State.safeEnter_inv
        | apply State.set_inv | apply outInv_next

theorem execPwrbtnShortPress_inv (s : State) (hs : s.Inv) :
    OutInv (execPwrbtnShortPress s) := by
  unfold execPwrbtnShortPress
  repeat' first
    | with_reducible assumption
    | (intro t ht; have hg : State.Inv t := ht; clear hg)
    | ((try lift_lets); intro x; refine (show State.Inv x → _ from ?_) ?_; (on_goal 2 => subst x); (on_goal 1 => (intro hx; clear_value x)))
    | intro _
    | with_reducible first | apply State.when_inv | apply State.wakeUp_inv | apply State.platformOn_inv
        | apply State.setPending_inv | apply State.set_inv | apply outInv_next
    | split

theorem execPwrbtnArm_inv (s : State) (hs : s.Inv) :
    OutInv (execPwrbtnArm s) := by
  unfold execPwrbtnArm
  repeat' first
    | with_reducible assumption
    | (intro t ht; have hg : State.Inv t := ht; clear hg)
    | ((try lift_lets); intro x; clear_value x)
    | intro _
    | fail_if_no_progress (with_reducible apply inv_upd)
    | with_reducible first | apply State.when_inv | apply outInv_next

theorem execLongPress_inv (s : State) (hs : s.Inv) :
    OutInv (execLongPress s) := by
  unfold execLongPress
  repeat' first
    | with_reducible assumption
    | (intro t ht; have hg : State.Inv t := ht; clear hg)
    | intro _
    | with_reducible first | apply State.when_inv | apply State.wakeUp_inv | apply State.longPressStart_inv
        | apply outInv_next

theorem State.openBus_inv (s : State) (b : Fin 2) (hs : s.Inv) :
    (State.openBus s b).Inv := by
  unfold State.openBus
  repeat' first
    | with_reducible assumption
    | ((try lift_lets); intro x; refine (show State.Inv x → _ from ?_) ?_; (on_goal 2 => subst x); (on_goal 1 => (intro hx; clear_value x)))
    | intro _
    | fail_if_no_progress (with_reducible apply inv_upd)
    | with_reducible first | apply State.loseSink_inv | apply State.groupStop_inv | apply State.modBus_inv
    | split

theorem execLongPressStageOff_inv (s : State) (hs : s.Inv) :
    OutInv (execLongPressStageOff s) := by
  unfold execLongPressStageOff
  repeat' first
    | with_reducible assumption
    | (intro t ht; have hg : State.Inv t := ht; clear hg)
    | ((try lift_lets); intro x; refine (show State.Inv x → _ from ?_) ?_; (on_goal 2 => subst x); (on_goal 1 => (intro hx; clear_value x)))
    | ((try lift_lets); intro x; clear_value x)
    | intro _
    | fail_if_no_progress (with_reducible apply inv_upd)
    | with_reducible exact inv_regReset _ _
    | with_reducible apply hfn
    | with_reducible apply State.when_inv
    | with_reducible apply State.openBus_inv
    | with_reducible apply State.modCsc_inv
    | with_reducible apply State.endCycle_inv
    | with_reducible apply State.zeroCharge_inv
    | with_reducible apply State.setChgPhase_inv
    | with_reducible apply State.set_inv
    | with_reducible apply outInv_next
    | with_reducible apply inv_foldl
    | with_reducible apply inv_foldlFst
    | with_reducible apply inv_foldlSnd
    | split

theorem execLongPressPor_inv (s : State) (hs : s.Inv) :
    OutInv (execLongPressPor s) := by
  unfold execLongPressPor
  repeat' first
    | with_reducible assumption
    | (intro t ht; have hg : State.Inv t := ht; clear hg)
    | with_reducible first | apply State.when_inv | apply State.porReset_inv | apply State.set_inv | apply outInv_next

end Sys2Proof.Machine
end

