-- ==== Sys2Proof/Laws/InvIdle.lean ====
section
/-! SUPPORT. Every operation of Machine/Idle.lean keeps the canonical form of the register space. -/

set_option Elab.async false

namespace Sys2Proof.Machine

theorem State.idle_inv (s : State) (hs : s.Inv) :
    (State.idle s).Inv := by
  unfold State.idle
  repeat' first
    | with_reducible assumption
    | fail_if_no_progress (with_reducible apply inv_upd)
    | split

end Sys2Proof.Machine
end

