-- ==== Sys2Proof/Laws/Map.lean ====
section
/-! SUPPORT. The register map as a whole: no reset word shows a reserved bit (R441), so that no word of the register space does,
and an address without a register reads 0 (R435). -/

set_option Elab.async false

namespace Sys2Proof.Machine

theorem RegMap.blocks_clean :
    (RegMap.blocks.all fun b => b.regs.all fun d => d.resetWord &&& d.implMask == d.resetWord) = true := by
  decide +kernel

theorem RegMap.find_clean {a : Nat} {d : RegDesc} (h : RegMap.find a = some d) : d.resetWord &&& d.implMask = d.resetWord := by
  unfold RegMap.find at h
  split at h
  · cases h
  · rename_i b hb
    have hall := RegMap.blocks_clean
    simp only [List.all_eq_true, beq_iff_eq] at hall
    exact hall b (List.mem_of_find?_eq_some hb) d (List.mem_of_find?_eq_some h)

/-- The reset word of every address shows no reserved bit. -/
theorem RegMap.resetWord_clean (a : Nat) : resetClean a := by
  unfold resetClean RegMap.resetWord RegMap.implMask
  cases h : RegMap.find a with
  | none => rfl
  | some d => exact RegMap.find_clean h

/-- No word of the register space shows a reserved bit. -/
theorem State.word_impl {s : State} (h : s.Inv) (a : Nat) : s.word a &&& RegMap.implMask a = s.word a :=
  regRead_impl h a (RegMap.resetWord_clean a)

/-- An address without a register reads 0. -/
theorem State.word_reserved {s : State} (h : s.Inv) {a : Nat} (ha : RegMap.find a = none) : s.word a = 0 := by
  have k := State.word_impl h a
  have m : RegMap.implMask a = 0 := by simp only [RegMap.implMask, ha]
  rw [m] at k
  simpa using k.symm

/-- Writing a word back that the register holds. -/
theorem State.word_setWord_clean {s : State} (h : s.Inv) (a : Nat) (w : Word) (hw : w &&& RegMap.implMask a = w) :
    (s.setWord a w).word a = w := by
  rw [State.word_setWord_same h, hw]

/-- A field of the same word that shares no bit with the one set reads as before. -/
theorem State.get_set_other {s : State} (h : s.Inv) (f g : Fld) (v : Nat) (ha : g.addr = f.addr)
    (hd : g.lo + g.width ≤ f.lo ∨ f.lo + f.width ≤ g.lo) : (s.set f v).get g = s.get g :=
  State.get_set_disj h f g v ha hd (RegMap.resetWord_clean _)

/-- A saturating set reads the nearest representable value. -/
theorem State.get_setSat_same {s : State} (h : s.Inv) (f : Fld) (v : Nat) (hf : f.real) :
    (s.setSat f v).get f = satNat f.width v := by
  have hp : 0 < 2 ^ f.width := Nat.two_pow_pos _
  rw [State.setSat, State.get_set_same h f _ hf]
  apply Nat.mod_eq_of_lt
  unfold satNat
  split <;> omega

end Sys2Proof.Machine
end

