-- ==== Sys2Proof/Laws/Power.lean ====
section
/-! SUPPORT. What the two edges of AON power-on reset do to the mode part of the state and to the register space (R38, R39). -/

set_option Elab.async false

namespace Sys2Proof.Machine

theorem State.armFallback_md (s : State) : s.armFallback.md = s.md := by
  unfold State.armFallback
  split <;> rfl

theorem State.armFallback_power (s : State) : s.armFallback.power = s.power := by
  unfold State.armFallback
  split <;> rfl

/-- Measured VBUS voltages leave everything but the register space. -/
theorem State.vbusMeas_md (s : State) (vbus : List Nat) :
    (s.eachPort allPorts fun s p => s.setSat (R.PD_VBUS_MEAS.VBUS p) (vbus.getD p 0)).md = s.md := rfl

/-- The release of AON power-on reset: the unit is on, and the keeper's latch reads supply. -/
theorem State.porRelease_md (s : State) (vbat : Nat) (vbus : List Nat) :
    (s.porRelease vbat vbus).md = { s.md with boot := .released, keeper := 0 } := by
  unfold State.porRelease
  dsimp only
  rw [State.armFallback_md]
  split <;> rfl

theorem State.porRelease_power (s : State) (vbat : Nat) (vbus : List Nat) : (s.porRelease vbat vbus).power = .on := by
  unfold State.porRelease
  dsimp only
  rw [State.armFallback_power]
  split <;> rfl

/-- The assertion of AON power-on reset: every register reads its reset value. -/
theorem State.porReset_regs (s : State) : s.porReset.regs = [] := rfl

theorem State.porReset_md (s : State) : s.porReset.md = { keeper := s.md.keeper } := rfl

end Sys2Proof.Machine
end

