-- ==== Sys2Proof/WellFormed.lean ====
section
/-! DEFINITION. Which commands are well formed: what an operand's type leaves open and the part's surroundings cannot present
(a measurement beyond its register, a message longer than the spec allows, a list of the wrong length). The machine runs every
command; the statements about registers' values name these bounds where they need them. -/

namespace Sys2Proof

/-- A voltage that the 16-bit measurements can show, in mV. -/
def mvOk (v : Nat) : Bool := v < 65536

/-- A current that the 16-bit signed measurements of 2 mA per LSB can show, in mA. -/
def maOk (i : Int) : Bool := -65536 ≤ i && i < 65536

/-- A number of `n` bits. -/
def numOk (n v : Nat) : Bool := v < 2 ^ n

/-- A code of a capture channel: 16 bits, signed (R264). -/
def codeOk (x : Int) : Bool := -32768 ≤ x && x < 32768

/-- At most `n` bytes. -/
def bytesOk (n : Nat) (bs : List Byte) : Bool := bs.length ≤ n

/-- The data objects of a capabilities message: 1 to 11 words (R182, R191). -/
def objsOk (os : List Nat) : Bool := 1 ≤ os.length && os.length ≤ 11 && os.all (numOk 32)

/-- Exactly `n` numbers of 32 bits. -/
def numsOk (n : Nat) (xs : List Nat) : Bool := xs.length = n && xs.all (numOk 32)

/-- A half-period of the sync carrier in 78.125 ps (R339). -/
def halfOk (h : Nat) : Bool := 2667 ≤ h && h ≤ 32000

/-- A channel summary: three 16-bit codes (R332). -/
def sumOk (v : Nat × Nat × Nat) : Bool := numOk 16 v.1 && numOk 16 v.2.1 && numOk 16 v.2.2

/-- A bank's check names check 1 to 4 of R415, or none; SVN has 8 bits. -/
def ImageCheck.ok (i : ImageCheck) : Bool := i.check ≤ 4 && numOk 8 i.svn && numOk 32 i.version

/-- Samples of a capture stream: at most 16 channels a frame. -/
def FrameRun.ok (r : FrameRun) : Bool := r.frames.all fun f => f.length ≤ 32 && f.all codeOk

/-- A native write: the count byte, and at most 255 data bytes (R307). -/
def TwiWrite.ok (w : TwiWrite) : Bool := numOk 8 w.count && bytesOk 255 w.data

/-- A slot names its sender, who is the unit that owns it; only U0 sends the master's part (R323, R324). -/
def slotOk (u : Fin 4) (x : SlotIn) : Bool :=
  match x with
  | .silent => true
  | .bad _ => true
  | .good s => s.sender = u && (s.master.isNone || u = 0)

/-- The charger's readings: at most five cells (R103). -/
def ChargeSample.ok (v : ChargeSample) : Bool := v.cells.length ≤ 5 && v.cells.all mvOk && mvOk v.vbat && maOk v.ibat

/-- A fit of at most five cells. -/
def FitSample.ok (f : FitSample) : Bool :=
  f.rohm.length ≤ 5 && f.rct.length ≤ 5 && f.tau.length ≤ 5 && f.vcell.length ≤ 5 && f.vcell.all mvOk && maOk f.cur

/-- The budget's measurements: one delivered power per port. -/
def BudgetSample.ok (v : BudgetSample) : Bool := mvOk v.vsys && mvOk v.vbat && maOk v.ibat && v.deliv.length = 4

/-- A phase's measurements. -/
def ValleySample.ok (v : ValleySample) : Bool := mvOk v.vin && mvOk v.vsys && 0 < v.len

/-- A group's measurements. -/
def GroupSample.ok (v : GroupSample) : Bool := mvOk v.vin && mvOk v.vsys && mvOk v.vbus && maOk v.iin

/-- What a self-test finds: failed tests as an 8-bit mask, a fast channel. -/
def SelfTestOutcome.ok (r : SelfTestOutcome) : Bool := numOk 8 r.failed && numOk 4 r.channel

/-- A command is well formed. -/
def Instr.wf (i : Instr) : Bool :=
  match i with
  | .registerWrite _ addr _ _ => numOk 16 addr
  | .accErrClear _ => true
  | .xtalSwitchOver => true
  | .xtalFail => true
  | .fllLock => true
  | .pllLock => true
  | .pllUnlock => true
  | .pllLockRetry _ => true
  | .refclkLoss => true
  | .aonWriteCrossed frame => numOk 32 frame
  | .aonPorAssert _ => true
  | .aonPorRelease vbat vbus => mvOk vbat && vbus.length = 4 && vbus.all mvOk
  | .strapLatch _ => true
  | .bootRomVerify img0 img1 _ => img0.ok && img1.ok
  | .configImageApply => true
  | .powerStageEnable => true
  | .bar0Ready => true
  | .modeEvaluate ibat => maOk ibat
  | .hybDwellExpiry => true
  | .modeRequestKeepAlive => true
  | .modeRequestShip => true
  | .modeRequestClearSafe vsys _ _ => mvOk vsys
  | .kaEntryDelayExpiry => true
  | .kaWake _ => true
  | .kaIdleExpiry => true
  | .shipDelayExpiry => true
  | .shipRailsOff => true
  | .shipEnter => true
  | .shipAbandon _ => true
  | .shipExitButton vbat vbus => mvOk vbat && vbus.length = 4 && vbus.all mvOk
  | .shipExitVbus _ vbat vbus => mvOk vbat && vbus.length = 4 && vbus.all mvOk
  | .packLow vbat => mvOk vbat
  | .packCutoffExpiry vbat => mvOk vbat
  | .kaVbatCheck vbat => mvOk vbat
  | .vsysOvpTrip vsys => mvOk vsys
  | .pairStuckOn => true
  | .batfetStuckOn ibat => maOk ibat
  | .dbAttach _ _ _ => true
  | .vsysMinReached vsys => mvOk vsys
  | .pwrbtnShortPress => true
  | .pwrbtnArm => true
  | .longPress => true
  | .longPressStageOff => true
  | .longPressPor => true
  | .bootstrapPrechargeDone _ => true
  | .bootstrapRefresh _ => true
  | .drvLvlApply _ => true
  | .halfPeriodWrite _ _ _ _ => true
  | .delayLineCalibrate => true
  | .phaseValley _ v => v.ok
  | .groupRefValley _ v => v.ok
  | .dirRampHandover _ => true
  | .phaseShed _ => true
  | .phaseMapSet => true
  | .phaseMapSetDone => true
  | .phaseCycleLimit _ => true
  | .phaseOvercurrent _ => true
  | .phaseHardOvercurrent _ => true
  | .phaseDriverUv _ => true
  | .phaseSwNodeFault _ => true
  | .phaseSenseMismatch _ => true
  | .phaseSlopeFault _ => true
  | .phaseCmFault _ => true
  | .phaseSelfCheckDone _ _ => true
  | .vdrvUv => true
  | .vdrvRecover => true
  | .pairTurnOnDone _ => true
  | .busMoveRampDone _ vin vbus => mvOk vin && mvOk vbus
  | .busMoveBusSettled _ => true
  | .inputSelect => true
  | .vExpSettle _ => true
  | .batfetToSwitch vbat => mvOk vbat
  | .batfetToLinear vbat => mvOk vbat
  | .batfetFastOn => true
  | .batfetReverseOff => true
  | .batfetLinearResume => true
  | .sinkDrop _ vin => mvOk vin
  | .sinkOvp _ vin => mvOk vin
  | .sinkOvpReclose _ => true
  | .sinkReverse _ iin => maOk iin
  | .sinkRevReconnect _ => true
  | .sourceBusReady _ => true
  | .sourceOverload _ => true
  | .sourceShort _ => true
  | .sourceReverse _ => true
  | .tapDetect => true
  | .tapFault => true
  | .packNtcOpen => true
  | .packProbeIdleStart vbat => mvOk vbat
  | .packProbeDone vbat => mvOk vbat
  | .packAbsentPoll vbat => mvOk vbat
  | .packInsert vbat _ => mvOk vbat
  | .packInsertConnect vsys vbat => mvOk vsys && mvOk vbat
  | .chargerEval v => v.ok
  | .chgTrickleToPrecharge => true
  | .chgPrechargeToCc => true
  | .chgCcToPrecharge => true
  | .chgStepAdvance => true
  | .chgCcToCv => true
  | .chgTerminate => true
  | .chgRecharge => true
  | .chgNoInputEnd => true
  | .cellOvTrip _ => true
  | .cellOvClear => true
  | .fastTimerExpiry => true
  | .preTimerExpiry => true
  | .chgOvercurrent => true
  | .packOvSuspend vbat => mvOk vbat
  | .packOvClear vbat => mvOk vbat
  | .prbsStep => true
  | .estimatorUpdate f => f.ok
  | .chargeProfileLoad => true
  | .chargeStart => true
  | .chargeStop => true
  | .chargeRestartAfterFault => true
  | .estimatorRead => true
  | .estimatorReset => true
  | .puppeteerCompute v => v.ok
  | .ovlGrantEnd _ usedUs => numOk 32 usedUs
  | .ovlWindowEnd _ => true
  | .localArbiterEval v => v.ok
  | .localArbiterPmaxUpdate => true
  | .chgShedDeadline power => numOk 32 power
  | .shedTExpiry _ => true
  | .shedHardReset _ => true
  | .sourceRestore _ => true
  | .throtDeassert => true
  | .intentActivate _ => true
  | .intentExpire _ => true
  | .followerRemove _ => true
  | .localFallbackEnter => true
  | .budgetIntent => true
  | .budgetCancelIntent => true
  | .budgetSetPolicy => true
  | .budgetQuery => true
  | .ccRpDetect _ _ _ _ _ => true
  | .sinkAttach _ vbus => mvOk vbus
  | .sourceAttach _ vbus => mvOk vbus
  | .rpChange _ _ => true
  | .sinkDetach _ vbus => mvOk vbus
  | .sourceDetach _ => true
  | .accessoryAttach _ _ _ _ => true
  | .accessoryDetach _ => true
  | .drpToggle _ => true
  | .tryTimeout _ => true
  | .errorRecoveryEnd _ => true
  | .kaScan _ _ => true
  | .rpLevelRaise _ => true
  | .vconnOcp _ => true
  | .vconnReverse _ => true
  | .vbusDischargeDone _ vbus => mvOk vbus
  | .moistScan _ => true
  | .moistTestDone _ z ocv => numsOk 4 z && ocv.length = 4
  | .moistRetest _ => true
  | .moistTestAbort _ => true
  | .pdTxRetry _ => true
  | .chunkTimeout _ => true
  | .discoverIdentityRetry _ => true
  | .bistRx _ _ vbus => mvOk vbus
  | .bistCarrierEnd _ => true
  | .hardResetRx _ => true
  | .softResetRx _ => true
  | .srcCapsRx _ _ _ vbus objs => mvOk vbus && objsOk objs
  | .acceptRx _ => true
  | .psRdyRxSink _ => true
  | .rejectRx _ => true
  | .waitRx _ => true
  | .sinkRequestRetry _ => true
  | .senderResponseTimeout _ => true
  | .psTransitionTimeout _ => true
  | .sinkWaitCapTimeout _ => true
  | .ppsKeepalive _ => true
  | .eprEntryStart _ => true
  | .eprModeRx _ _ => true
  | .eprEnterTimeout _ => true
  | .eprKeepalive _ => true
  | .sourceCapsSend _ => true
  | .requestRx _ rdo _ => numOk 32 rdo
  | .srcTransitionStart _ => true
  | .srcPsRdy _ vbus => mvOk vbus
  | .ppsSourceTimeout _ => true
  | .sinkTxOk _ => true
  | .sinkTxWaitDrop _ => true
  | .prSwapRx _ => true
  | .prSwapSourceOff _ => true
  | .prSwapVbusLow _ vbus => mvOk vbus
  | .psRdyRxSwap _ => true
  | .swapPsRdyTimeout _ => true
  | .vconnSwapRx _ => true
  | .vconnSourceTimeout _ => true
  | .drSwapRx _ _ => true
  | .frsSignalDetect _ => true
  | .frSwapRx _ => true
  | .frsSourceWaitExpiry _ => true
  | .hrSinkAllowanceEnd _ vbus => mvOk vbus
  | .hrSourceVbusOff _ => true
  | .hrSourceRecover _ => true
  | .hostRoutedRx _ _ _ _ _ _ data => bytesOk 260 data
  | .hostReplyTimeout _ => true
  | .tableRequestRx _ _ => true
  | .pdSetPortPolicy => true
  | .pdSetSourceCaps => true
  | .pdSetSinkCaps => true
  | .pdRequest => true
  | .pdSendMsg data => bytesOk 260 data
  | .pdSwapPr => true
  | .pdSwapVconn => true
  | .pdSwapDr => true
  | .pdHardReset => true
  | .pdPortDisable => true
  | .portDisableWrite _ _ _ _ => true
  | .portErrRecovery _ _ _ _ => true
  | .hifEnable _ _ _ => true
  | .kick _ _ _ => true
  | .doorbellPoll => true
  | .doorbellFetchDone err page => numOk 8 err && bytesOk 4096 page
  | .entryFetchDone _ err data => numOk 8 err && bytesOk 512 data && data.length % 64 = 0
  | .irqItimeExpiry _ => true
  | .sqEnable _ _ _ _ => true
  | .sqDisable _ _ _ _ => true
  | .sqDrainDone _ => true
  | .cqEnable _ _ _ _ => true
  | .cqDisable _ _ _ _ => true
  | .evqEnable _ _ _ => true
  | .evqDisable _ _ _ => true
  | .functionLevelReset _ => true
  | .busMasterDisable _ => true
  | .linkL1Entry => true
  | .nop => true
  | .setParam => true
  | .getParam => true
  | .getStatusBlock => true
  | .setEventMask => true
  | .captureConfig => true
  | .captureArm frame => numOk 32 frame
  | .captureStop cur => cur.length = 8
  | .captureRingAttach => true
  | .captureRingDetach => true
  | .thresholdFire _ before after frame => codeOk before && codeOk after && numOk 32 frame
  | .captureTrigger _ src idx frame => numOk 4 src && numOk 8 idx && numOk 32 frame
  | .captureBlockClose _ run lost forming => run.ok && numOk 16 lost && numOk 32 forming
  | .writeOutStart corr bad => numOk 16 corr && numOk 16 bad
  | .fullHeadFetch _ err page => numOk 8 err && bytesOk 4096 page
  | .pressureRestore forming => numOk 32 forming
  | .slowRateApply => true
  | .oneshotGo _ _ _ => true
  | .oneshotDone mean => codeOk mean
  | .arpPrepare _ => true
  | .arpResetDevice _ _ => true
  | .arpGetUdid _ => true
  | .arpGetUdidDirected _ => true
  | .arpAssignAddress udid _ _ _ => udid.length = 16
  | .masterAssignStart => true
  | .assignRetry _ => true
  | .selfAssign => true
  | .twbKaAddressMatch _ => true
  | .twbWriteApplied => true
  | .twbStatus => true
  | .eventSummary => true
  | .eventAck w => w.ok
  | .lastResult => true
  | .lastEvent count typ => numOk 32 count && numOk 8 typ
  | .regRead count addr => numOk 32 count && numOk 16 addr
  | .regWrite w => w.ok
  | .cmdSubmit w => w.ok
  | .cplRead => true
  | .cplPop w => w.ok
  | .resultLo => true
  | .resultHi => true
  | .mbxRead => true
  | .mbxWrite w => w.ok
  | .mbxAckWrite w => w.ok
  | .mbxAckRead => true
  | .compatWrite data _ => bytesOk 255 data
  | .compatRead n => numOk 8 n
  | .alertResponse _ => true
  | .hostNotify _ => true
  | .hostNotifyRetry _ => true
  | .sclTimeout _ => true
  | .sdaTimeout => true
  | .sdaStuck => true
  | .cscFrameStart own => sumOk own
  | .cscSlotRx u x own => slotOk u x && sumOk own
  | .cscDiscoveryEnd => true
  | .followerReadmit _ _ => true
  | .localFallbackLeave => true
  | .twoMasters => true
  | .indexClash _ => true
  | .syncLock half => halfOk half
  | .syncLost => true
  | .parCfgApply => true
  | .tunnelTimeout => true
  | .cscSleepEnter => true
  | .cscWakeBurst => true
  | .cscWakeNoMaster => true
  | .cascadeStatus => true
  | .cascadeRemoteRead => true
  | .cascadeRemoteWrite => true
  | .thermalSample die ntc => die.length = 12 && (ntc.length = 8 && ntc.all fun r => numOk 17 r.ratio)
  | .sampleRateSlow => true
  | .thermalShutdownTrip _ _ => true
  | .sensorReinstate => true
  | .jackPeriodStart => true
  | .jackAnswer _ _ _ tick => numOk 16 tick
  | .jackCheckin _ _ _ => true
  | .coreFaultReset _ _ => true
  | .fallbackExpiry cur => cur.length = 8
  | .jackKey _ _ _ _ => true
  | .jackDisable _ _ _ _ => true
  | .jackEnable _ _ _ => true
  | .jackLock _ _ _ => true
  | .selfTest r => r.ok
  | .railEnable _ => true
  | .railGood _ => true
  | .railPgTimeout _ => true
  | .railLossOfGood _ => true
  | .railDisable _ => true
  | .railOff _ => true
  | .railStuck _ => true
  | .latchedPowerUp => true
  | .auxOverload _ => true
  | .auxUvlo vsys => mvOk vsys
  | .railConfig => true
  | .railOn => true
  | .railOffCmd => true
  | .seqPlatformOn => true
  | .seqPlatformOff => true
  | .tsLoRead _ => true
  | .aonCmpApply _ frame => numOk 32 frame
  | .aonCmpFire _ frame => numOk 32 frame
  | .ftEnable _ _ _ _ => true
  | .ftDisable _ _ _ _ count _ => numOk 32 count
  | .ftCntWrite _ _ _ _ _ => true
  | .ftTopWrite _ _ _ _ count _ => numOk 32 count
  | .ftCmpWrite _ _ _ _ _ count _ frame => numOk 32 count && numOk 32 frame
  | .ftCompareMatch _ _ _ frame => numOk 32 frame
  | .ftWrap _ => true
  | .ftCaptureNow _ _ _ _ count _ => numOk 32 count
  | .ftCaptureEdge _ _ count _ => numOk 32 count
  | .ftCaptRead _ _ => true
  | .debugHalt counts => counts.length = 16 && counts.all fun c => numOk 32 c.1
  | .h2uPush _ _ _ => true
  | .mbxMessageServe => true
  | .h2uAckRead _ => true
  | .u2hPop _ => true
  | .u2hAckWrite _ _ _ => true
  | .echo => true
  | .fwInfo => true
  | .logEntry => true
  | .dbgUnlock _ => true
  | .dbgLock => true
  | .recoverWrite => true
  | .recoverBoot img => img.ok
  | .ec2uTake => true
  | .unitAckWrite _ _ _ => true
  | .u2ecSend _ _ _ => true
  | .lockRead _ _ => true
  | .lockWrite _ _ _ _ => true
  | .fwStage _ _ img => img.ok
  | .fwActivate => true
  | .activationTimeout _ => true
  | .probationEnd _ => true
  | .fwAbort => true
  | .configCommitImage _ _ image => bytesOk 98304 image
  | .configCommitSwap _ => true
  | .logEntryWrite => true
  | .logWriteAbandon vsys => mvOk vsys
  | .logRead => true
  | .logClear => true
  | .gpioEdge _ _ frame => numOk 32 frame
  | .gpioCfgWrite _ _ _ _ => true
  | .goodcrcRx _ => true
  | .sinkCapsRx _ objs => objsOk objs
  | .swapReplyRx _ _ => true
  | .softResetAcceptRx _ => true
  | .eprKeepaliveAckRx _ => true
  | .cableIdentityRx _ _ _ _ _ _ _ => true
  | .chunkRx _ _ _ _ _ bytes => bytesOk 26 bytes
  | .tsinktxExpiry _ => true
  | .hrSinkVbusReturn _ vbus => mvOk vbus
  | .attachWaitCcOpen _ => true
  | .busMasterEnable _ => true
  | .perstDeassert _ => true
  | .debugResume => true
  | .fwActivateWaitTimeout => true

end Sys2Proof
end

