-- ==== Sys2Proof/Tests/Slice0.lean ====
section
/-! SUPPORT. Tests: small checks of single steps against values that the spec states, ill-formed terms that the checks refuse, and
for every statement with hypotheses a concrete state and operands that meet them. -/

set_option Elab.async false

namespace Sys2Proof.Tests

open Sys2Proof.Machine

/-! ### Small states -/

/-- The unit with its AON domain on, past its boot. -/
def base : State :=
  { State.reset with power := .on, md := { State.reset.md with boot := .ready, bar0 := true, firstEvt := false } }

/-- Clocks of every block but PIPE run, and the firmware runs. -/
def run : State := (base.set R.GLB_CLK_STATUS.RUN 0x30F).set R.HIF_STATUS.FW 1

/-- Port 0 with the given TC_STATE and PE_STATE, as source or as sink. -/
def pt (tc pe : Nat) (src : Bool) : State :=
  (((run.set (R.PD_CC_STATUS.TC_STATE 0) tc).set (R.PD_PE_STATUS.PE_STATE 0) pe).set (R.PD_CC_STATUS.POWER_ROLE 0)
    (if src then 2 else 1)).modTc 0 fun x => { x with bmc := true }

def valley : ValleySample :=
  { iv := 0, mr := none, mf := none, vin := 9000, vsys := 7400, len := 21333, lEst := 330, dARise := 10, dAFall := 10,
    dBRise := 10, dBFall := 10, refresh := 0 }

def group : GroupSample :=
  { vin := 9000, iin := 0, vsys := 7400, isys := 0, vbus := 5000, vinOut := 0, ichgOut := 0, vchgOut := 0, iinCorr := 0 }

def charge : ChargeSample := { cells := [], vbat := 7400, ibat := 0, tpack := 2500, ntcFault := false }

def fit : FitSample :=
  { rohm := [1], rct := [1], tau := [1], vcell := [3700], cur := 0, var := 0, perturb := false, agree := false }

def budget : BudgetSample := { vsys := 7400, isys := 0, paux := 0, vbat := 7400, ibat := 0, deliv := [0, 0, 0, 0] }

def straps : StrapReading :=
  { role := true, idx := 0, compat := false, cell := some 1, vchg := some 3, ichg := some 3, vmin := some 3, db := 0 }

/-- Port 0 about to attach as source, with a bus and a usable phase group. -/
def srcFree : State :=
  ((((run.set (R.PD_CC_STATUS.TC_STATE 0) 6).set (R.PD_TC_CFG.ROLE 0) 2).set R.CNV_STATUS.STAGE_EN 1).set R.CNV_PHASE_MAP.MAP 1).set R.MOD_MATRIX_CFG.FIT_A 15

/-- Port 0 sinks on bus A under an explicit contract, Fast Role Swap armed. -/
def frsReady : State :=
  let s := (((pt 4 4 false).set (R.PD_PE_CFG.FRS_EN 0) 1).set (R.PD_PE_STATUS.EXPLICIT 0) 1).set (R.PD_PE_CFG.FRS_CUR 0) 1
  let s := ((s.set (R.PD_TC_CFG.ROLE 0) 2).set R.MOD_MATRIX_STATUS.A_CONN 1).set R.CNV_PHASE_MAP.MAP 1
  let s := ((s.set R.MOD_BATFET_STATUS.STATE 3).set R.CHG_PACK_STATUS.PRESENT 1).set R.MOD_BAT_MEAS.VBAT 16000
  (s.set R.MOD_SRC_PMAX_PORT.PMAX 60000).set R.MOD_SRC_PMAX_UNIT.PMAX 60000

/-- Capture ring 0 in the given state, its stream configured on trigger source 0. -/
def ring0 (st : Nat) : State :=
  (run.set (R.CAP_RING_STATE.STATE 0) st).modStream 0 fun x => { x with conf := true, len := 1 }

def ringIdle : State := (ring0 1).set (R.CAP_RING_SIZE.SIZE 0) 4

def block : CapBlock :=
  { rate := 0, flags := 0, nframes := 1, bits := 16, frameNo := 0, ts := 0, trig := none, gap := 0, level := 0, payload := [0, 0] }

/-- The link is up and the function may master the bus. -/
def dma : State :=
  { run.set R.HIF_STATUS.BME 1 with hif := { run.hif with linkUp := true, perst := false } }

def hostUp : State := { run with hif := { run.hif with linkUp := true, perst := false } }

/-- Words wait in the host's mailbox. -/
def mbox (ws : List Word) : State := { run with mbx := { run.mbx with h2u := ws } }

/-- The ROM's recovery loop, with words in the host's mailbox. -/
def recov (ws : List Word) : State := { mbox ws with fw := { run.fw with recovery := true } }

def ntf (n : Nat) : State :=
  let s := (run.set R.TWB_ADDR.AV 1).set R.TWB_CFG.NOTIFY_MODE 1
  { s with twb := { s.twb with notifyDue := true, notifyTry := n } }

/-- The native address is valid. -/
def tw : State := run.set R.TWB_ADDR.AV 1

def mk (src : CmdSrc) (op : Nat) (ps : List Byte) : Cmd :=
  { handle := 1, src := src, cid := 5, opcode := op, fence := false, resultLen := 0, resultAddr := 0,
    params := ps ++ List.replicate (48 - ps.length) 0, started := false, noCpl := false, bad := none }

/-- `s` with the one outstanding command `c`. -/
def cmdSt (s : State) (c : Cmd) : State := { s with cmds := [c] }

/-- Port 0 sinks on bus B, accepts power role swaps, and may source on bus A. -/
def prsOk : State :=
  let s := (((pt 4 4 false).set (R.PD_PE_CFG.PRS_ACCEPT 0) 1).set (R.PD_TC_CFG.ROLE 0) 2).set R.CNV_PHASE_MAP.MAP 1
  ((s.set R.MOD_MATRIX_CFG.FIT_A 15).set R.CNV_STATUS.STAGE_EN 1).set R.MOD_MATRIX_STATUS.A_AUTO 1

def vcsOk : State := (((pt 4 4 false).set (R.PD_TC_CFG.VCONN_EN 0) 1).set (R.PD_PE_CFG.VCS_ACCEPT 0) 1)

def reach1 : State := (run.set R.CSC_STATUS.STATE 1).set R.BGT_STATUS.MEMBERS 3

def tun5 : TunReq := { handle := 1, target := 1, isWrite := false, addr := 0x400, value := 0, mask := 0, sent := some 5 }

def log4 : LogEntry := { slot := 0, typ := 7, kind := 0, lseq := 4, ts := 0, boot := 1, data := List.replicate 32 0 }

/-- A configuration image without records. -/
def goodImage : List Byte :=
  [0x47, 0x46, 0x43, 0x5A, 32, 0, 0, 0, 0, 0, 0, 0, 0, 0, 0, 0, 0, 0, 0, 0, 0, 0, 0, 0, 0, 0, 0, 0, 113, 2, 199, 15]


/-! ### Witnesses of the statements on rules -/

/-- Queues `c` in front. -/
def queued (s : State) (c : Instr) : State := { s with pending := [c] }

def runOff : State := { run.set R.MOD_STRAP.DB 0xF with power := .off }

def runFll : State := run.set R.GLB_CLK_STATUS.FLL_LOCK 1

/-- An intent of 1 W stands in slot 7. -/
def oneIntent : State :=
  { run with bgt := { run.bgt with intents := [{ slot := 7, gen := 8191, dP := 1000, start := 0, stop := 9, owner := 0, active := true }] } }

def cCancel : Cmd := mk .ec 0x11 [0xFF, 0xFF]
def cCancelNone : Cmd := mk .ec 0x11 [0xFE, 0xFF]
def cQuery : Cmd := mk .ec 0x13 []
def cSet (a : Nat) : Cmd := mk .ec 0x01 (leBytes 2 a ++ [0, 0] ++ leBytes 4 5 ++ leBytes 4 1)
def cGet (a : Nat) : Cmd := mk .ec 0x02 (leBytes 2 a)
def cRail (n deps : Nat) : Cmd := mk .ec 0x50 ([BitVec.ofNat 8 n, 1] ++ leBytes 2 deps ++ [0, 0, 0, 0, 1, 0, 1, 0])
def twi (n : Nat) (p : Pec) (lost : Bool) : TwiWrite := { count := 6, data := [8, 0] ++ List.replicate (n - 2) 0, pec := p, lost := lost }
def hostErr : State := (hostUp.set R.GLB_ACC_ERR_INFO.VALID 1).set R.GLB_ACC_ERR_INFO.COUNT 0xFFFF
def dbgOn : State := run.set R.SEC_DBG_CTRL.DBG_EN 1
def railRuns : State := run.set (R.SEQ_RAIL_STATE.STATE 11) railGood
def railBusy : State :=
  { run.set (R.SEQ_RAIL_STATE.STATE 11) railOff with seq := { run.seq with runs := [{ up := true, rail := 11, group := 0, plat := false, rails := 0x800, cmds := [] }] } }
def modeIn (m conn : Nat) : State :=
  ((run.set R.MOD_MODE_STATUS.MODE m).set R.CNV_STATUS.STAGE_EN 1).set R.MOD_MATRIX_STATUS.A_CONN conn
def logFull : State :=
  { run.set R.LOG_CFG.TYPES 0x1FFF with fw := { run.fw with logQ := List.replicate 32 { typ := 1, seq := 0, ts := 0, payload := [] } } }
def lockOf (k : Nat) : State := run.setWord (A.MBX_LOCK 15) (BitVec.ofNat 32 (0x80000000 + k))
def mail (n : Nat) (u : List Word) : State := { hostUp with mbx := { hostUp.mbx with h2u := List.replicate n 0, u2h := u } }
def fenced : List Cmd := [{ mk .ec 0x00 [] with handle := 2, started := true }, { mk (.ring 3) 0x00 [] with handle := 3 }]

theorem witness_StepRunsTheFrontCommand : (queued run .nop).pending = .nop :: [] := rfl

theorem witness_IdleOnEmptyQueue :
    (run.pending = [] ∧ run.power = .on ∧ ¬ run.on R.GLB_CLK_STATUS.FLL_LOCK) ∧
    (runFll.pending = [] ∧ runFll.power = .on ∧ runFll.on R.GLB_CLK_STATUS.FLL_LOCK) ∧
    (runOff.pending = [] ∧ runOff.power ≠ .on) := by
  decide +kernel

theorem inv_run : run.Inv := by
  unfold State.Inv RegsOk regEntryOk
  decide +kernel

theorem inv_hostErr : hostErr.Inv := by
  unfold State.Inv RegsOk regEntryOk
  decide +kernel

theorem witness_EveryStepKeepsInv :
    (queued run (.registerWrite .application 0xFFFC 1 true)).Inv ∧
      ∃ t, step (queued run (.registerWrite .application 0xFFFC 1 true)) = .next t :=
  ⟨inv_run, _, rfl⟩

theorem witness_ReservedBitsReadZero :
    run.Inv ∧ (∃ t, step run = .next t) ∧ (RegMap.implMask 0x0010).getLsbD 31 = false :=
  ⟨inv_run, ⟨_, rfl⟩, by decide +kernel⟩

theorem witness_OnlyPowerEventsActUnpowered :
    State.reset.power ≠ .on ∧ (∀ b, Instr.nop ≠ .aonPorAssert b) ∧ (∀ v l, Instr.nop ≠ .aonPorRelease v l) ∧
      (∀ v l, Instr.nop ≠ .shipExitButton v l) ∧ (∀ p v l, Instr.nop ≠ .shipExitVbus p v l) :=
  ⟨by decide, nofun, nofun, nofun, nofun⟩

theorem witness_PowerEdges :
    run.power = .on ∧ (runOff.power = .off ∧ (true : Bool)) ∧
    (State.reset.power = .por ∧ 3100 ≤ List.foldl max 0 [0, 0, 0, 3100]) ∧ (runOff.power = .off ∧ runOff.bit R.MOD_STRAP.DB 3) := by
  decide +kernel

theorem witness_CommandStartOrder :
    ({ run with cmds := fenced } : State).nextCmd = some { mk (.ring 3) 0x00 [] with handle := 3 } := by
  decide +kernel

theorem witness_PowerButtonIgnored :
    run.power = .on ∧ (runOff.power = .off ∧ (true : Bool)) ∧
    (({ run with md := { run.md with longPress := 2 } } : State).power = .on ∧
      ({ run with md := { run.md with longPress := 2 } } : State).md.longPress = 2) ∧
    (runOff.power = .off ∧ runOff.bit R.MOD_STRAP.DB 3) ∧ (State.reset.power = .por ∧ 3100 ≤ List.foldl max 3100 []) ∧
    run.md.btnArmed = false := by
  decide +kernel

theorem witness_MeasuredQuantitiesSaturate :
    run.Inv ∧ (R.PD_VBUS_MEAS.VBUS 3).lo + (R.PD_VBUS_MEAS.VBUS 3).width ≤ 32 ∧ 1 ≤ (R.PD_VBUS_MEAS.VBUS 3).width ∧
      fieldMask (R.PD_VBUS_MEAS.VBUS 3).lo (R.PD_VBUS_MEAS.VBUS 3).width &&& RegMap.implMask (R.PD_VBUS_MEAS.VBUS 3).addr =
        fieldMask (R.PD_VBUS_MEAS.VBUS 3).lo (R.PD_VBUS_MEAS.VBUS 3).width :=
  ⟨inv_run, by decide +kernel⟩

theorem witness_BudgetCancelIntent :
    ((cmdSt oneIntent cCancel).power = .on ∧ (cmdSt oneIntent cCancel).nextCmd = some cCancel ∧ cCancel.opcode = 0x11 ∧
      ∃ i ∈ (cmdSt oneIntent cCancel).bgt.intents, i.slot + 8 * i.gen = leAt cCancel.params 0 2) ∧
    ((cmdSt oneIntent cCancelNone).power = .on ∧ (cmdSt oneIntent cCancelNone).nextCmd = some cCancelNone ∧
      cCancelNone.opcode = 0x11 ∧
      ∀ i ∈ (cmdSt oneIntent cCancelNone).bgt.intents, i.slot + 8 * i.gen ≠ leAt cCancelNone.params 0 2) := by
  decide +kernel

theorem witness_BudgetQuery :
    (cmdSt run cQuery).Inv ∧ (cmdSt run cQuery).power = .on ∧ (cmdSt run cQuery).nextCmd = some cQuery ∧ cQuery.opcode = 0x13 :=
  ⟨inv_run, by decide +kernel⟩

theorem witness_ReservedAddresses :
    (cmdSt run (cSet 8)).Inv ∧ (tw.power = .on ∧ 8 < 65536 ∧ 8 % 4 = 0 ∧ RegMap.find 8 = none ∧ RegMap.mapped 8) ∧
    (hostUp.power = .on ∧ hostUp.reaches .host ∧ (Initiator.host = .host → (true : Bool))) ∧
    ((cmdSt run (cSet 8)).power = .on ∧ (cmdSt run (cSet 8)).nextCmd = some (cSet 8) ∧ (cSet 8).opcode = 0x01 ∧
      leAt (cSet 8).params 0 2 = 8 ∧ BitVec.ofNat 32 (leAt (cSet 8).params 8 4) ≠ 0) ∧
    (tw.on R.TWB_ADDR.AV ∧ tw.sysRuns ∧ ¬ tw.busyNack ∧ tw.writeFlaw true 6 (twi 6 .good false) = none ∧
      leAt (twi 6 .good false).data 0 2 = 8) ∧
    (65532 < 65536 ∧ 65532 % 4 = 0 ∧ RegMap.find 65532 = none ∧ ¬ RegMap.mapped 65532) ∧
    ((cmdSt run (cSet 65532)).nextCmd = some (cSet 65532) ∧ (cSet 65532).opcode = 0x01 ∧ leAt (cSet 65532).params 0 2 = 65532) ∧
    ((cmdSt run (cGet 65532)).nextCmd = some (cGet 65532) ∧ (cGet 65532).opcode = 0x02 ∧
      leAt (cGet 65532).params 0 2 = 65532) :=
  ⟨inv_run, by decide +kernel⟩

/-- The cause that refuses a write of `addr`, as the statement `RefusalRecord` writes it. -/
def causeOf (s : State) (ini : Initiator) (addr : Nat) (full : Bool) : Option Nat :=
  let a := if ini = .host then addr % 65536 / 4 * 4 else addr % 65536
  if ini = .debug ∧ ¬ s.on R.SEC_DBG_CTRL.DBG_EN then some 0x4
  else if ¬ RegMap.mapped a then some 0x1
  else if a % 4 ≠ 0 then some 0x5
  else if ini = .host ∧ ¬ full then some 0x3
  else if ini ≠ .supervisor ∧ RegMap.privileged a ∧ (RegMap.find a).isSome then some 0x2
  else none

theorem witness_RefusalRecord :
    run.Inv ∧ hostErr.Inv ∧ (run.power = .on ∧ hostErr.power = .on ∧ run.reaches .debug ∧ run.reaches .ec ∧ hostErr.reaches .host) ∧
    causeOf run .debug 65535 true = some 0x4 ∧ causeOf run .ec 65535 true = some 0x1 ∧ causeOf run .ec 1 true = some 0x5 ∧
    causeOf hostErr .host 0 false = some 0x3 ∧ causeOf run .ec A.WDG_CTRL true = some 0x2 ∧
    (¬ run.on R.GLB_ACC_ERR_INFO.VALID ∧ hostErr.on R.GLB_ACC_ERR_INFO.VALID) :=
  ⟨inv_run, inv_hostErr, by decide +kernel⟩

theorem witness_RailConfigChecks :
    (∀ c ∈ [cRail 11 0x800], c.opcode = 0x50 ∧ leAt c.params 12 2 = 0 ∧ Fin.ofNat 12 (c.byte 0) = 11) ∧
    ((cmdSt railBusy (cRail 11 0x800)).power = .on ∧ (cmdSt railBusy (cRail 11 0x800)).nextCmd = some (cRail 11 0x800) ∧
      ∃ r ∈ railBusy.seq.runs, bitAt r.rails 11) ∧
    ((cmdSt railRuns (cRail 11 0x800)).nextCmd = some (cRail 11 0x800) ∧ railRuns.seq.runs = [] ∧ railRuns.rail 11 = 3) ∧
    ((cmdSt (run.set (R.SEQ_RAIL_STATE.STATE 11) 0) (cRail 11 0x800)).nextCmd = some (cRail 11 0x800) ∧
      (cmdSt (run.set (R.SEQ_RAIL_STATE.STATE 11) 0) (cRail 11 0x800)).seq.runs = [] ∧
      (cmdSt (run.set (R.SEQ_RAIL_STATE.STATE 11) 0) (cRail 11 0x800)).rail 11 = 0 ∧
      (cmdSt (run.set (R.SEQ_RAIL_STATE.STATE 11) 0) (cRail 11 0x800)).depsCycle 11 (leAt (cRail 11 0x800).params 2 2)) := by
  decide +kernel

theorem witness_HostMailboxWords :
    run.Inv ∧ hostErr.Inv ∧ (run.power = .on ∧ run.reaches .ec ∧ Initiator.ec ≠ .host) ∧
    ((mail 15 []).power = .on ∧ (mail 15 []).reaches .host ∧ (mail 15 []).mbx.h2u.length < 16) ∧
    (16 ≤ (mail 16 []).mbx.h2u.length ∧ (mail 16 []).reaches .host) ∧ (mail 0 [7]).mbx.u2h = 7 :: [] ∧
    (mail 0 [7]).reaches .ec ∧ (mail 0 []).mbx.u2h = [] :=
  ⟨inv_run, inv_hostErr, by decide +kernel⟩

theorem witness_TimerCapture :
    run.Inv ∧ run.power = .on ∧ run.reaches .application ∧ (Initiator.application = .debug → run.on R.SEC_DBG_CTRL.DBG_EN) :=
  ⟨inv_run, by decide +kernel⟩

theorem witness_JackQuestion : 0 < 65535 ∧ 65535 < 65536 ∧ lfsrStep 65535 = lfsrStep 65535 := by decide

theorem witness_DeadTimeAdaptation :
    4 ≤ 400 ∧ (4 ≤ 4 ∧ 400 ≤ 400) ∧ (4 ≤ 387 + 13 ∧ 387 + 13 ≤ 400 ∧ 387 + 13 ≤ 392 + 8 ∧ 392 ≤ 387 + 13 + 8) := by decide

theorem witness_RegionHysteresis :
    100 * 8499 < 85 * 10000 ∧ 115 * 10000 < 100 * 11501 ∧ (88 * 10000 ≤ 100 * 8800 ∧ 100 * 8800 ≤ 112 * 10000) ∧
    (85 * 10000 ≤ 100 * 8500 ∧ 100 * 8500 < 88 * 10000) ∧ (112 * 10000 < 100 * 11201 ∧ 100 * 11201 ≤ 115 * 10000) ∧
    1000 * 8649 < 865 * 10000 ∧ (865 * 10000 ≤ 1000 * 8650 ∧ 1000 * 8650 ≤ 1135 * 10000) ∧ 1135 * 10000 < 1000 * 11351 := by
  decide

theorem witness_TimeStamps :
    run.Inv ∧ run.power = .on ∧ run.reaches .debug = true ∧ dbgOn.on R.SEC_DBG_CTRL.DBG_EN ∧ run.reaches .application ∧
      (Initiator.application = .debug → run.on R.SEC_DBG_CTRL.DBG_EN) ∧ ¬ run.on R.GLB_CLK_STATUS.FLL_LOCK ∧ run.pending = [] :=
  ⟨inv_run, by decide +kernel⟩

theorem witness_ModePrecedence :
    (modeIn 5 1).Inv ∧ (∀ m ∈ [2, 3, 4, 5], ∀ c ∈ [0, 1], (modeIn m c).power = .on ∧ (modeIn m c).powered ∧
      (modeIn m c).on R.CNV_STATUS.STAGE_EN ∧ (modeIn m c).mode = m ∧ ((modeIn m c).anySink = decide (c = 1))) ∧
      (-1 : Int) < 0 ∧ (0 : Int) ≤ 0 := by
  refine ⟨?_, by decide +kernel⟩
  unfold State.Inv RegsOk regEntryOk
  decide +kernel

theorem witness_EventRecord :
    (¬ run.bit R.LOG_CFG.TYPES (13 - 1) ∨ ¬ run.fwRuns ∨ run.fw.logQ.length < 32) ∧
    ¬ (¬ logFull.bit R.LOG_CFG.TYPES (13 - 1) ∨ ¬ logFull.fwRuns ∨ logFull.fw.logQ.length < 32) := by
  decide +kernel

theorem witness_ResetDomains : hostErr.Inv := inv_hostErr

theorem witness_Locks :
    run.Inv ∧ (run.power = .on ∧ run.reaches .application ∧ (Initiator.application = .debug → run.on R.SEC_DBG_CTRL.DBG_EN) ∧
      ¬ run.on (R.MBX_LOCK.HELD 15)) ∧
    ((lockOf 1).reaches .application ∧ (lockOf 1).on (R.MBX_LOCK.HELD 15) ∧ (lockOf 1).get (R.MBX_LOCK.OWNER 15) = 1) :=
  ⟨inv_run, by decide +kernel⟩

theorem witness_TwoWireRefusals :
    tw.Inv ∧ (tw.power = .on ∧ tw.on R.TWB_ADDR.AV ∧ tw.sysRuns ∧ ¬ tw.busyNack) ∧
    ({ tw with twb := { tw.twb with applying := true } } : State).busyNack ∧
    (¬ (twi 6 .good false).lost) ∧ ((twi 5 .good false).count = 6 ∧ (twi 5 .good false).data.length < 6) ∧
    ((twi 6 .bad false).data.length = 6 ∧ (twi 6 .bad false).pec = .bad) ∧ (6 < (twi 7 .good false).data.length) ∧
    ((twi 6 .good true).data.length = 6 ∧ (twi 6 .good true).lost) := by
  refine ⟨?_, by decide +kernel⟩
  unfold State.Inv RegsOk regEntryOk
  decide +kernel

theorem witness_CommandRowsRunTheirOperation :
    (run.power = .on ∧ run.nextCmd = none) ∧
    ((cmdSt run cQuery).nextCmd = some cQuery ∧ isOp 0x00 cQuery = false ∧ isOp 0x13 cQuery = true ∧
      opBudgetQuery cQuery ((cmdSt run cQuery).markStarted cQuery.handle) =
        (.done { status := 0x00, result := 1 }, (opBudgetQuery cQuery ((cmdSt run cQuery).markStarted cQuery.handle)).2)) ∧
    ((cmdSt run (mk .ec 0x12 [])).nextCmd = some (mk .ec 0x12 []) ∧ isOp 0x12 (mk .ec 0x12 []) = true ∧
      opBudgetSetPolicy (mk .ec 0x12 []) ((cmdSt run (mk .ec 0x12 [])).markStarted 1) =
        (.wait, (opBudgetSetPolicy (mk .ec 0x12 []) ((cmdSt run (mk .ec 0x12 [])).markStarted 1)).2)) := by
  decide +kernel

/-! ### Well-formedness: an ill-formed term for each check -/

theorem test_wf_refuses_numbers :
    ([.registerWrite .host 65536 0 true, .aonWriteCrossed (2 ^ 32), .ovlGrantEnd 0 (2 ^ 32), .chgShedDeadline (2 ^ 32),
      .requestRx 0 (2 ^ 32) false, .pressureRestore (2 ^ 32), .lastEvent (2 ^ 32) 0, .lastEvent 0 256, .regRead (2 ^ 32) 0,
      .regRead 2 65536, .compatRead 256, .jackAnswer .host 0 true 65536, .ftDisable .host 0 0 true (2 ^ 32) true,
      .ftCmpWrite .host 0 0 0 true (2 ^ 32) true 0, .ftCmpWrite .host 0 0 0 true 0 true (2 ^ 32), .writeOutStart 65536 0,
      .writeOutStart 0 65536, .captureTrigger 0 16 0 0, .captureTrigger 0 0 256 0, .captureTrigger 0 0 0 (2 ^ 32)] :
        List Instr).all (fun i => !i.wf) = true := by
  decide +kernel

theorem test_wf_refuses_measurements :
    ([.modeEvaluate 65536, .modeEvaluate (-65537), .modeRequestClearSafe 65536 true true, .packLow 65536,
      .busMoveRampDone 0 65536 0, .busMoveRampDone 0 0 65536, .sinkDrop 0 65536, .sinkReverse 0 65536, .packInsertConnect 65536 0,
      .packInsertConnect 0 65536, .sinkAttach 0 65536, .aonPorRelease 65536 [0, 0, 0, 0], .aonPorRelease 0 [0, 0, 0],
      .aonPorRelease 0 [0, 0, 0, 65536], .oneshotDone 32768, .thresholdFire 0 32768 0 0, .thresholdFire 0 0 (-32769) 0,
      .thresholdFire 0 0 0 (2 ^ 32), .syncLock 2666, .syncLock 32001] : List Instr).all (fun i => !i.wf) = true := by
  decide +kernel

theorem test_wf_refuses_lists :
    ([.moistTestDone 0 [0, 0, 0] [0, 0, 0, 0], .moistTestDone 0 [0, 0, 0, 2 ^ 32] [0, 0, 0, 0], .moistTestDone 0 [0, 0, 0, 0] [],
      .srcCapsRx 0 false false 0 [], .srcCapsRx 0 false false 65536 [1], .sinkCapsRx 0 (List.replicate 12 0),
      .sinkCapsRx 0 [2 ^ 32], .doorbellFetchDone 256 [], .entryFetchDone 0 256 [], .entryFetchDone 0 0 [0],
      .captureStop [], .captureBlockClose 0 ({} : FrameRun) 65536 0, .captureBlockClose 0 ({} : FrameRun) 0 (2 ^ 32),
      .captureBlockClose 0 ({ frames := [List.replicate 33 0] } : FrameRun) 0 0,
      .captureBlockClose 0 ({ frames := [[32768]] } : FrameRun) 0 0, .arpAssignAddress [] 0 .good false,
      .thermalSample [] (List.replicate 8 ⟨0, 0⟩), .thermalSample (List.replicate 12 0) [],
      .thermalSample (List.replicate 12 0) (List.replicate 8 ⟨131072, 0⟩), .debugHalt [],
      .debugHalt (List.replicate 16 (2 ^ 32, true)), .cscFrameStart (65536, 0, 0),
      .cscSlotRx 0 .silent (0, 65536, 0)] : List Instr).all (fun i => !i.wf) = true := by
  decide +kernel

theorem test_wf_refuses_long_messages :
    ([.hostRoutedRx 0 false false .accept 0 0 (List.replicate 261 0), .chunkRx 0 false .accept 0 0 (List.replicate 27 0),
      .compatWrite (List.replicate 256 0) false, .eventAck { count := 256 }, .eventAck { data := List.replicate 256 0 },
      .doorbellFetchDone 0 (List.replicate 4097 0), .entryFetchDone 0 0 (List.replicate 576 0)] : List Instr).all
      (fun i => !i.wf) = true := by
  decide +kernel

theorem test_wf_refuses_samples :
    ([.phaseValley 0 { valley with len := 0 }, .phaseValley 0 { valley with vin := 65536 },
      .groupRefValley 0 { group with vsys := 65536 }, .groupRefValley 0 { group with iin := 65536 },
      .estimatorUpdate { fit with vcell := List.replicate 6 3700 }, .estimatorUpdate { fit with cur := 65536 },
      .bootRomVerify ⟨5, 0, 0⟩ ⟨0, 0, 0⟩ true, .bootRomVerify ⟨0, 0, 0⟩ ⟨0, 256, 0⟩ true, .recoverBoot ⟨0, 0, 2 ^ 32⟩,
      .selfTest { failed := 256, corr := 0, uncorr := 0, channel := 0, share := 0, lpo := 0, vectors := 0 }] :
        List Instr).all (fun i => !i.wf) = true := by
  decide +kernel

theorem test_wf_accepts :
    ([.registerWrite .host 65535 0 true, .nop, .packLow 65535, .syncLock 2667, .syncLock 32000, .modeEvaluate (-65536)] :
      List Instr).all Instr.wf = true := by
  decide +kernel

/-! ### Small tests; each expected value is the spec's -/

/-- The word of a next state's register, 0xDEADBEEF where there is none. -/
def wordAfter (o : Res) (a : Nat) : Word :=
  match o with
  | .next t => t.word a
  | _ => 0xDEADBEEF

/-- What the next state sent out last. -/
def lastOut (o : Res) : Option Emit :=
  match o with
  | .next t => t.out.head?
  | _ => none

/-- R2: the identity register. -/
theorem test_id_reads : State.reset.word 0x0000 = 0x1D5A4896 := by decide +kernel

/-- R25: the silicon revision, and the reset value of CLK_STATUS. -/
theorem test_rev_reads : State.reset.word 0x0004 = 0x0000B000 ∧ State.reset.word 0x0010 = 0x00000001 := by decide +kernel

/-- R435: a reserved address keeps nothing. -/
theorem test_reserved_write : wordAfter (exec (.registerWrite .application 0x0008 0xFFFFFFFF true) run) 0x0008 = 0 := by
  decide +kernel

/-- R24: an unmapped address is recorded with cause 0x1, one refusal, a write, by initiator 1. -/
theorem test_unmapped_recorded :
    wordAfter (exec (.registerWrite .application 0xFFFC 0 true) run) A.GLB_ACC_ERR_INFO = 0x80000119 ∧
      wordAfter (exec (.registerWrite .application 0xFFFC 0 true) run) A.GLB_ACC_ERR_ADDR = 0xFFFC := by
  decide +kernel

/-- R24: a partial BAR0 write to a privileged register records 0x3. -/
theorem test_partial_privileged :
    wordAfter (exec (.registerWrite .host A.WDG_CTRL 0 false) hostUp) A.GLB_ACC_ERR_INFO = 0x8000013A := by
  decide +kernel

/-- R358: the example's questions and answers with SEED 0x7E21. -/
theorem test_jack_example :
    jackAnswerTo 0x4896 0x7E21 = 0xA942 ∧ lfsrStep 0x4896 = 0x912C ∧ jackAnswerTo 0x912C 0x7E21 = 0x980D ∧
      lfsrStep 0x912C = 0x2258 := by decide

/-- R270: the example's block of nine frames holds 42 bits. -/
theorem test_delta_example :
    (payloadBits 2 ([256, 258, 259, 259, 257, 256, 256, 257, 258].map fun (x : Int) => [x])).length = 42 := by
  decide +kernel

/-- R308 and the example of the two-wire chapter: STATUS reads 0x52, 0x0B. -/
theorem test_status_word :
    lastOut (exec .twbStatus { tw.set R.TWB_STATUS.ALERT 1 with twb := { tw.twb with cpls := [{ cpl := [], area := [] }] } }) =
      some (.reply [0x52, 0x0B]) := by
  decide +kernel

/-- R406: a free lock answers 0 and is then held by its reader; read again it answers 0x80000001. -/
theorem test_lock_taken :
    lastOut (exec (.lockRead .application 5) run) = some (.regRead .application (A.MBX_LOCK 5) 0) ∧
      wordAfter (exec (.lockRead .application 5) run) (A.MBX_LOCK 5) = 0x80000001 := by
  decide +kernel

/-- R401: the seventeenth word is dropped and sets H2U_OVF. -/
theorem test_h2u_overflow :
    (wordAfter (exec (.h2uPush .host 1 true) (mail 16 [])) A.MBX_H2U_STATUS).getLsbD 31 = true := by
  decide +kernel

/-- R27: with the thermal latch nothing moves the mode; without a sink it is BATTERY. -/
theorem test_mode_precedence :
    wordAfter (exec (.modeEvaluate (-1)) (modeIn 5 1)) A.MOD_MODE_STATUS &&& 0xF = 5 ∧
      wordAfter (exec (.modeEvaluate (-1)) (modeIn 3 1)) A.MOD_MODE_STATUS &&& 0xF = 4 ∧
      wordAfter (exec (.modeEvaluate 0) (modeIn 3 0)) A.MOD_MODE_STATUS &&& 0xF = 2 := by
  decide +kernel

/-- R58: a group that starts takes its region from the midpoints. -/
theorem test_first_region : nextRegion 3 48000 16000 = 0 ∧ nextRegion 3 16000 16000 = 1 ∧ nextRegion 3 5000 16000 = 2 := by decide

/-- R243: the first event after AON power-on reset carries 1, and the count wraps from 0xFFFF_FFFF to 0. -/
theorem test_event_seq :
    (run.raise 0x01 []).evSeq = 1 ∧ ({ run with evSeq := 0xFFFFFFFF } : State).evSeq = 0xFFFFFFFF ∧
      (({ run with evSeq := 0xFFFFFFFF } : State).raise 0x01 []).evSeq = 0 := by
  decide +kernel

/-- An idle block lets time pass: one AON tick before the FLL locks (log entry 6). -/
theorem test_idle_tick : (match step run with | .next t => t.ts | _ => 0) = 1024 := by decide +kernel

/-! ### Witnesses of the completion statements -/

def w_bootstrapPrechargeDone : State := (run.set R.CNV_STATUS.STAGE_EN 1).modPhase 0 fun x => { x with precharge := true }

def w_bootstrapRefresh : State := (run.set R.CNV_STATUS.SWITCHING 1).set (R.CNV_GRP_STATUS.REGION 0) 0

def w_drvLvlApply : State := run.modPhase 0 fun x => { x with drvHeld := some 2 }

def w_phaseValley : State := run.set R.CNV_STATUS.SWITCHING 1

def w_groupRefValley : State := (run.set R.CNV_STATUS.SWITCHING 1).set R.CNV_PHASE_MAP.MAP 1

def w_dirRampHandover : State := run.modGroup 0 fun x => { x with dirTarget := some 1 }

def w_phaseShed : State := (((run.set R.CNV_STATUS.SWITCHING 3).set R.CNV_PHASE_MAP.MAP 5).set (R.CNV_GRP_CFG.SHED_EN 0) 1).set (R.CNV_GRP_CFG.SHED_MIN 0) 1

def w_phaseMapSetDone : State := { run with stage := { run.stage with mapChange := some { handle := none, target := 0 } } }

def w_phaseCycleLimit : State := run.set R.CNV_STATUS.SWITCHING 1

def w_phaseOvercurrent : State := (run.set R.CNV_STATUS.SWITCHING 1).modPhase 0 fun x => { x with ocRun := 15 }

def w_phaseHardOvercurrent : State := run.set R.CNV_STATUS.SWITCHING 1

def w_phaseDriverUv : State := run.set R.CNV_STATUS.SWITCHING 1

def w_phaseSwNodeFault : State := run.set R.CNV_STATUS.SWITCHING 1

def w_phaseSenseMismatch : State := (run.set R.CNV_STATUS.SWITCHING 1).set (R.PH_STATUS.FF_HOLD 0) 1

def w_phaseSlopeFault : State := run.set R.CNV_STATUS.SWITCHING 32

def w_phaseCmFault : State := run.set R.CNV_STATUS.SWITCHING 1

def w_phaseSelfCheckDone : State := run.modPhase 0 fun x => { x with checking := true }

def w_vdrvUv : State := run.set R.CNV_STATUS.STAGE_EN 1

def w_vdrvRecover : State := run.set R.CNV_STATUS.VDRV_UV 1

def w_pairTurnOnDone : State := run.modBus 0 fun x => { x with move := .closing 1 false }

def w_busMoveRampDone : State := run.modBus 0 fun x => { x with move := .ramp none }

def w_busMoveBusSettled : State := run.modBus 1 fun x => { x with move := .settle 2 }

def w_vExpSettle : State := run.modPath 0 fun x => { x with trans := some (9000, 5000) }

def w_batfetToSwitch : State := run.set R.MOD_BATFET_STATUS.STATE 1

def w_batfetToLinear : State := ((run.set R.MOD_BATFET_STATUS.STATE 2).set R.MOD_MATRIX_STATUS.A_CONN 1).set R.MOD_VSYS_CFG.VSYS_MIN 5000

def w_batfetFastOn : State := run.set R.MOD_BATFET_STATUS.STATE 3

def w_batfetReverseOff : State := { run.set R.MOD_BATFET_STATUS.STATE 3 with path := { run.path with fastOn := true } }

def w_batfetLinearResume : State := { run.set R.MOD_BATFET_STATUS.STATE 1 with path := { run.path with fastOn := true } }

def w_sinkDrop : State := run.set R.MOD_MATRIX_STATUS.A_CONN 1

def w_sinkOvp : State := run.set R.MOD_MATRIX_STATUS.A_CONN 1

def w_sinkOvpReclose : State := run.modBus 0 fun x => { x with held := some (3, .ovp) }

def w_sinkReverse : State := run.set R.MOD_MATRIX_STATUS.B_CONN 1

def w_sinkRevReconnect : State := run.modBus 0 fun x => { x with held := some (0, .rev) }

def w_sourceBusReady : State := run.modPath 3 fun x => { x with src := .raising, srcBus := some 0 }

def w_sourceOverload : State := run.set R.MOD_MATRIX_STATUS.SRC 1

def w_sourceShort : State := run.set R.MOD_MATRIX_STATUS.SRC 8

def w_sourceReverse : State := run.set R.MOD_MATRIX_STATUS.SRC 1

def w_tapDetect : State := run.set R.CHG_PACK_STATUS.PRESENT 1

def w_tapFault : State := run.set R.CHG_STATUS.TAPS 1

def w_packNtcOpen : State := (run.set R.CHG_PACK_STATUS.PRESENT 1).set R.CHG_TEMP_CFG.PRES_NTC 1

def w_packProbeIdleStart : State := (run.set R.CHG_PACK_STATUS.PRESENT 1).set R.CHG_STATUS.PHASE 5

def w_packProbeDone : State := { run with chg := { run.chg with probe := some 8000 } }

def w_packInsert : State := run.set R.CHG_STATUS.PHASE 1

def w_packInsertConnect : State := { run with chg := { run.chg with inserting := true } }

def w_prbsStep : State := ((run.set R.CHG_STATUS.PHASE 5).set (R.CHG_PROFILE.W 2) 0x100).set R.CHG_CURRENT.I_SET 250

def w_estimatorUpdate : State := { run.set (R.CHG_PROFILE.W 2) 0x100 with chg := { run.chg with est := { run.chg.est with state := 1 } } }

def w_chgTrickleToPrecharge : State := { run.set R.CHG_STATUS.PHASE 3 with chg := { run.chg with vLo := 2200 } }

def w_chgPrechargeToCc : State := run.set R.CHG_STATUS.PHASE 4

def w_chgCcToPrecharge : State := (run.set R.CHG_STATUS.PHASE 5).set (R.CHG_PROFILE.W 4) (3000 * 65536)

def w_chgStepAdvance : State := (run.set R.CHG_STATUS.PHASE 5).set (R.CHG_PROFILE.W 10) 2

def w_chgCcToCv : State := ((run.set R.CHG_STATUS.PHASE 5).set R.MOD_MATRIX_STATUS.A_CONN 1).set (R.CNV_GRP_STATUS.LIMITER 0) 16

def w_chgTerminate : State := (((run.set R.CHG_STATUS.PHASE 6).set R.MOD_MATRIX_STATUS.A_CONN 1).set (R.CNV_GRP_STATUS.LIMITER 0) 16).set (R.CHG_PROFILE.W 5) (300 * 65536)

def w_chgRecharge : State := (run.set R.CHG_STATUS.PHASE 7).set (R.CHG_PROFILE.W 3) (4200 * 65536)

def w_chgNoInputEnd : State := run.set R.CHG_STATUS.CYCLE 1

def w_cellOvClear : State := run.set R.CHG_COV_STATUS.ACTIVE 1

def w_fastTimerExpiry : State := run.set R.CHG_STATUS.CYCLE 1

def w_preTimerExpiry : State := run.set R.CHG_STATUS.CYCLE 1

def w_chgOvercurrent : State := (run.set R.CHG_STATUS.PHASE 5).set R.MOD_BAT_MEAS.IBAT 2501

def w_packOvSuspend : State := run.set R.CHG_STATUS.PHASE 5

def w_packOvClear : State := ((run.set R.CHG_STATUS.SUSP 2).set (R.CHG_PROFILE.W 2) 1).set (R.CHG_PROFILE.W 3) (4200 * 65536)

def w_sampleRateSlow : State := (List.range 8).foldl (fun (x : State) (n : Nat) => x.set (R.THM_NTC_TEMP.TEMP n) 400) (run.set R.THM_STATUS.FAST 1)

def w_ovlGrantEnd : State := run.modPb 0 fun x => { x with window := some { usedUs := 0, pct := 10, granting := true } }

def w_ovlWindowEnd : State := run.modPb 3 fun x => { x with window := some { usedUs := 0, pct := 10, granting := false } }

def w_shedTExpiry : State := run.modPb 0 fun x => { x with shed := some { cut := 0, before := 15000, taken := false } }

def w_shedHardReset : State := run.modPb 0 fun x => { x with shed := some { cut := 0, before := 15000, taken := true } }

def w_sourceRestore : State := (run.set R.MOD_MATRIX_STATUS.SRC 1).modPb 0 fun x => { x with restore := some 0 }

def w_throtDeassert : State := { run.set R.BGT_STATUS.THROT 1 with bgt := { run.bgt with overNow := -5000000 } }

def w_intentActivate : State := { run with bgt := { run.bgt with intents := [{ slot := 7, gen := 1, dP := 1000, start := 0, stop := 9, owner := 0, active := false }] } }

def w_intentExpire : State := { run with bgt := { run.bgt with intents := [{ slot := 0, gen := 1, dP := 1000, start := 0, stop := 9, owner := 0, active := true }] } }

def w_ccRpDetect : State := pt 2 0 false

def w_attachWaitCcOpen : State := pt 3 0 false

def w_sinkAttach : State := pt 3 0 false

def w_rpChange : State := pt 4 0 false

def w_sinkDetach : State := pt 4 0 false

def w_sourceDetach : State := run.set (R.PD_CC_STATUS.TC_STATE 3) 7

def w_accessoryAttach : State := (pt 2 0 false).set (R.PD_TC_CFG.ACC_EN 0) 1

def w_accessoryDetach : State := pt 0xC 0 false

def w_drpToggle : State := (pt 5 0 false).set (R.PD_TC_CFG.ROLE 0) 2

def w_tryTimeout : State := pt 0xB 0 false

def w_errorRecoveryEnd : State := pt 1 0 false

def w_rpLevelRaise : State := (((pt 7 0 true).set (R.PD_TC_CFG.RP_LVL 0) 1).set R.BGT_SRC_FLOOR.FLOOR 60000).modTc 0 fun x => { x with term := .rp 0 }

def w_vconnOcp : State := run.set (R.PD_VCONN.ON 0) 1

def w_vconnReverse : State := run.set (R.PD_VCONN.ON 0) 1

def w_vbusDischargeDone : State := run.modTc 0 fun x => { x with discharge := some 800 }

def w_moistScan : State := (pt 2 0 false).set (R.PD_TC_CFG.MOIST_EN 0) 1

def w_moistTestDone : State := run.modTc 0 fun x => { x with moistPins := some 15 }

def w_moistRetest : State := run.modTc 0 fun x => { x with moistRe := true }

def w_moistTestAbort : State := run.modTc 0 fun x => { x with moistPins := some 12 }

def w_pdTxRetry : State := run.modTc 0 fun x => { x with tx := some { sop := 0, kind := .accept, objs := [], retries := 0 } }

def w_goodcrcRx : State := run.modTc 0 fun x => { x with tx := some { sop := 1, kind := .accept, objs := [], retries := 0 } }

def w_chunkTimeout : State := run.modTc 0 fun x => { x with chunk := some { sending := true, kind := .status, data := [], total := 30 } }

def w_discoverIdentityRetry : State := run.modTc 0 fun x => { x with discover := some 20 }

def w_cableIdentityRx : State := run.modTc 0 fun x => { x with discover := some 1 }

def w_bistRx : State := pt 4 4 false

def w_bistCarrierEnd : State := run.modTc 0 fun x => { x with bist := 1 }

def w_hardResetRx : State := pt 4 4 false

def w_softResetRx : State := pt 4 4 false

def w_srcCapsRx : State := pt 4 1 false

def w_acceptRx : State := (pt 4 2 false).modPe 0 fun x => { x with await := .request }

def w_psRdyRxSink : State := pt 4 3 false

def w_rejectRx : State := (pt 4 2 false).modPe 0 fun x => { x with await := .request }

def w_waitRx : State := (pt 4 2 false).modPe 0 fun x => { x with await := .request }

def w_sinkRequestRetry : State := (pt 4 2 false).modPe 0 fun x => { x with waits := 1 }

def w_senderResponseTimeout : State := (pt 4 2 false).modPe 0 fun x => { x with await := .request }

def w_psTransitionTimeout : State := pt 4 3 false

def w_sinkWaitCapTimeout : State := pt 4 1 false

def w_ppsKeepalive : State := ((pt 4 4 false).set (R.PD_PE_STATUS.EXPLICIT 0) 1).set (R.PD_PE_STATUS.CONTRACT 0) 2

def w_eprEntryStart : State := (((((pt 4 4 false).set (R.PD_PE_CFG.EPR_EN 0) 1).set (R.PD_PARTNER_SRC_PDO.W 0 0) 0x00800000).set (R.PD_SNK_PDO.W 0 7) 1).set (R.PD_PE_STATUS.EXPLICIT 0) 1).set (R.PD_PRL_STATUS.PARTNER_REV 0) 2

def w_eprModeRx : State := pt 4 5 false

def w_eprEnterTimeout : State := (pt 4 6 false).modPe 0 fun x => { x with eprStage := 2 }

def w_eprKeepalive : State := (pt 4 5 false).set (R.PD_PE_STATUS.EPR_MODE 0) 1

def w_eprKeepaliveAckRx : State := (pt 4 5 false).modPe 0 fun x => { x with await := .keepAlive }

def w_sinkCapsRx : State := pt 4 4 false

def w_sinkTxOk : State := ((pt 4 4 false).set (R.PD_PE_STATUS.EXPLICIT 0) 1).set (R.PD_PRL_STATUS.PARTNER_REV 0) 2

def w_sinkTxWaitDrop : State := (pt 4 4 false).modPe 0 fun x => { x with held := .prSwap }

def w_sourceCapsSend : State := (pt 7 0x10 true).modPath 0 fun x => { x with src := .on }

def w_requestRx : State := (pt 7 0x13 true).modPath 0 fun x => { x with src := .on }

def w_srcTransitionStart : State := pt 7 0x12 true

def w_srcPsRdy : State := ((pt 7 0x12 true).modPath 0 fun x => { x with trans := some (5000, 5000) }).modPe 0 fun x => { x with next := some { pos := 1, kind := 1, mv := 5000, ma := 3000, rdo := 0 } }

def w_ppsSourceTimeout : State := ((pt 7 0x13 true).set (R.PD_PE_STATUS.EXPLICIT 0) 1).set (R.PD_PE_STATUS.CONTRACT 0) 2

def w_tsinktxExpiry : State := (pt 7 0x13 true).modPe 0 fun x => { x with held := .prSwap }

def w_hostRoutedRx : State := pt 4 4 false

def w_drSwapRx : State := pt 4 4 false

def w_hostReplyTimeout : State := (pt 4 4 false).set (R.PD_PE_STATUS.HOST_WAIT 0) 1

def w_tableRequestRx : State := pt 4 4 false

def w_chunkRx : State := pt 4 4 false

def w_prSwapRx : State := pt 4 4 false

def w_prSwapSourceOff : State := (pt 7 0x20 true).modPe 0 fun x => { x with swapStage := 2 }

def w_prSwapVbusLow : State := (pt 7 0x20 true).modPe 0 fun x => { x with swapStage := 2 }

def w_psRdyRxSwap : State := (pt 7 0x20 true).modPe 0 fun x => { x with swapStage := 3 }

def w_swapPsRdyTimeout : State := (pt 7 0x20 true).modPe 0 fun x => { x with swapStage := 3 }

def w_vconnSwapRx : State := pt 4 4 false

def w_vconnSourceTimeout : State := ((pt 4 0x22 false).modPe 0 fun x => { x with swapStage := 2 }).set (R.PD_PE_STATUS.VCONN_SRC 0) 1

def w_swapReplyRx : State := (pt 4 4 false).modPe 0 fun x => { x with await := .prSwap }

def w_frSwapRx : State := pt 7 0x25 true

def w_frsSourceWaitExpiry : State := pt 7 0x25 true

def w_hrSinkAllowanceEnd : State := pt 4 7 false

def w_hrSinkVbusReturn : State := pt 4 7 false

def w_hrSourceVbusOff : State := pt 7 0x15 true

def w_hrSourceRecover : State := pt 7 0x15 true

def w_softResetAcceptRx : State := (pt 4 0x26 false).modPe 0 fun x => { x with await := .softReset }

def w_railEnable : State := (run.set (R.SEQ_RAIL_STATE.STATE 0) railWait).set (R.SEQ_RAIL_CFG.DEPS 0) 0

def w_railGood : State := run.set (R.SEQ_RAIL_STATE.STATE 0) railRamp

def w_railPgTimeout : State := run.set (R.SEQ_RAIL_STATE.STATE 0) railRamp

def w_railLossOfGood : State := run.set (R.SEQ_RAIL_STATE.STATE 4) railGood

def w_railDisable : State := run.set (R.SEQ_RAIL_STATE.STATE 11) railHold

def w_railOff : State := run.set (R.SEQ_RAIL_STATE.STATE 0) railFall

def w_railStuck : State := ((run.set (R.SEQ_RAIL_STATE.STATE 5) railFall).set (R.SEQ_RAIL_CFG.DEPS 5) 1).set (R.SEQ_RAIL_STATE.STATE 0) railHold

def w_latchedPowerUp : State := { run with seq := { run.seq with latch := [{ up := true, rails := 1, rail := 0, group := 0, plat := false, cmds := [] }] } }

def w_auxOverload : State := run.set R.SEQ_STATUS.ENABLED 1

def w_thresholdFire : State := (run.set (R.CAP_TH_CFG.EN 0) 1).set (R.CAP_TH_CFG.CH 0) 0

def w_captureTrigger : State := ring0 2

def w_captureBlockClose : State := ring0 3

def w_writeOutStart : State := dma.modStream 0 fun x => { x with due := [block] }

def w_pressureRestore : State := run.set R.CAP_STATUS.LEVEL 1

def w_slowRateApply : State := { run with cap := { run.cap with slowWait := true } }

def w_oneshotDone : State := run.set R.CAP_ONESHOT_RES.BUSY 1

def w_doorbellPoll : State := ((run.set R.HIF_CTRL.POLL_US 10).set R.HIF_STATUS.L0 1).set R.HIF_STATUS.RUNNING 1

def w_doorbellFetchDone : State := run.set R.HIF_STATUS.FETCHING 1

def w_fullHeadFetch : State := run.modStream 0 fun x => { x with heading := true }

def w_entryFetchDone : State := { run with hif := { run.hif with fetches := [{ ring := 0, first := 0, count := 1 }] } }

def w_linkL1Entry : State := dma.set R.HIF_STATUS.L0 1

def w_jackPeriodStart : State := run.set R.WDG_STATUS.STATE 0

def w_fallbackExpiry : State := run.set R.WDG_FALLBACK.ARMED 1

def w_logEntryWrite : State := { run with fw := { run.fw with logQ := [{ typ := 7, seq := 1, ts := 0, payload := [] }] } }

def w_logWriteAbandon : State := { run with fw := { run.fw with logQ := [{ typ := 7, seq := 1, ts := 0, payload := [] }] } }

def w_fwActivateWaitTimeout : State := { run with fw := { run.fw with actWait := some 1 } }

def w_activationTimeout : State := { run with fw := { run.fw with gap := some { bank := 1, back := false, handle := none, diag := 0 } } }

def w_probationEnd : State := { run with fw := { run.fw with record := { bank := 0, slot := 0, trial := true, seq := 1 } } }

def w_bootRomVerify : State := { run with md := { run.md with boot := .clocked } }

def w_ftCompareMatch : State := run.set (R.TMR_FT_CFG.EN 0) 1

def w_ftWrap : State := run.set (R.TMR_FT_CFG.EN 15) 1

def w_ftCaptureEdge : State := run.set (R.TMR_FT_CFG.CAP_EDGE 0) 3

def w_debugHalt : State := run.set R.SEC_DBG_CTRL.DBG_EN 1

def w_debugResume : State := { run with tmr := { run.tmr with halted := true } }

def w_ftDisable : State := run.set (R.TMR_FT_CFG.EN 0) 1

def w_aonCmpApply : State := { run with aonq := [{ ini := .application, addr := A.TMR_CMP_HI 7, data := 0, mask := 0xFFFFFFFF }] }

def w_echo : State := mbox [0x01010007, 9]

def w_fwInfo : State := mbox [0x10000007]

def w_logEntry : State := { mbox [0x11020007, 4, 1] with fw := { (mbox []).fw with log := [log4] } }

def w_dbgUnlock : State := mbox [0x120D0007, 0, 0, 0, 0, 0, 0, 0, 0, 0, 0, 0, 0, 0]

def w_dbgLock : State := mbox [0x13000007]

def w_recoverWrite : State := recov [0x300F0007, 0, 0, 0, 0, 0, 0, 0, 0, 0, 0, 0, 0, 0, 0, 0]

def w_recoverBoot : State := recov [0x31000007]

def w_assignRetry : State := { run with twb := { run.twb with assigning := true } }

def w_selfAssign : State := run.set R.MOD_STRAP.IDX 1

def w_twbKaAddressMatch : State := run.set R.MOD_MODE_STATUS.MODE 1

def w_alertResponse : State := (run.set R.TWB_STATUS.ALERT 1).set R.TWB_ADDR.AV 1

def w_hostNotify : State := ntf 0

def w_hostNotifyRetry : State := ntf 1

def w_compatWrite : State := tw.set R.TWB_ADDR.COMPAT 1

def w_compatRead : State := tw.set R.TWB_ADDR.COMPAT 1

def w_followerRemove : State := ((run.set R.CSC_STATUS.STATE 1).set R.BGT_STATUS.MEMBERS 3).modPeer 1 fun x => { x with silent := 3 }

def w_followerReadmit : State := ((run.set R.CSC_STATUS.STATE 1).set R.CSC_CFG.EXPECT 3).modPeer 1 fun x => { x with good := 16 }

def w_localFallbackEnter : State := (run.set R.MOD_STRAP.IDX 1).set R.CSC_CFG.LINK_EN 1

def w_localFallbackLeave : State := (run.set R.CSC_STATUS.STATE 3).modPeer 0 fun x => { x with good := 16 }

def w_cscFrameStart : State := run.set R.MOD_STRAP.ROLE 1

def w_cscDiscoveryEnd : State := run.set R.CSC_STATUS.DISCOVERY 1

def w_cscSlotRx : State := (run.set R.CSC_STATUS.STATE 1).set R.CSC_CFG.LINK_EN 1

def w_twoMasters : State := (run.set R.MOD_STRAP.ROLE 1).set R.CSC_STATUS.STATE 1

def w_indexClash : State := (run.set R.CSC_STATUS.STATE 1).modPeer 3 fun x => { x with clash := 3 }

def w_syncLock : State := run.set (R.CSC_LOCK.LOCK 0) 1

def w_syncLost : State := (run.set (R.CSC_LOCK.LOCK 1) 1).set R.CSC_STATUS.SYNC_LOCK 1

def w_parCfgApply : State := run.modCsc fun c => { c with parHeld := some 0 }

def w_cscSleepEnter : State := run.modCsc fun c => { c with sleepN := some 3 }

def w_cscWakeBurst : State := (run.set R.MOD_MODE_STATUS.MODE 1).set R.CSC_STATUS.STATE 2

def w_cscWakeNoMaster : State := (run.set R.CSC_STATUS.STATE 2).modCsc fun c => { c with waking := 1 }

def w_tunnelTimeout : State := run.modCsc fun c => { c with queue := [tun5] }

def w_xtalFail : State := run.set R.GLB_CLK_STATUS.XTAL_ACTIVE 1

def w_pllLock : State := { run with md := { run.md with boot := .strapped } }

def w_pllUnlock : State := run.set R.GLB_CLK_STATUS.PLL_LOCK 1

def w_pllLockRetry : State := run.set R.GLB_CLK_STATUS.PLL_HOLDOVER 1

def w_refclkLoss : State := dma.set R.HIF_STATUS.L0 1

def w_strapLatch : State := { base with md := { base.md with boot := .released } }

def w_configImageApply : State := { run with md := { run.md with boot := .running } }

def w_powerStageEnable : State := { run with md := { run.md with boot := .configured } }

def w_bar0Ready : State := { run with md := { run.md with boot := .staged } }

def w_dbAttach : State := ((pt 2 0 false).set R.MOD_STRAP.DB 1).set R.MOD_MODE_STATUS.DB_START 1 |>.set (R.PD_VBUS_MEAS.VBUS 0) 5000

def w_vsysMinReached : State := { run.set R.MOD_MATRIX_STATUS.A_CONN 1 with md := { run.md with dbHold := true } }

def w_modeEvaluate : State := run.set R.CNV_STATUS.STAGE_EN 1

def w_hybDwellExpiry : State := { run.set R.MOD_MODE_STATUS.MODE 4 with md := { run.md with dwell := true } }

def w_kaEntryDelayExpiry : State := { run with md := { run.md with entry := .ka } }

def w_kaWake : State := run.set R.MOD_MODE_STATUS.MODE 1

def w_kaIdleExpiry : State := { run with md := { run.md with kaReturn := true } }

def w_kaScan : State := (run.set R.MOD_MODE_STATUS.MODE 1).set (R.PD_TC_CFG.ROLE 0) 2

def w_kaVbatCheck : State := run.set R.MOD_MODE_STATUS.MODE 1

def w_shipDelayExpiry : State := { run with md := { run.md with entry := .ship } }

def w_shipRailsOff : State := { run with md := { run.md with entry := .shipDown } }

def w_shipEnter : State := { run with md := { run.md with entry := .shipOff } }

def w_shipAbandon : State := { run with md := { run.md with entry := .ship } }

def w_packCutoffExpiry : State := { run with md := { run.md with packLow := true } }

def w_pwrbtnShortPress : State := { run with md := { run.md with btnArmed := true } }

def w_longPress : State := { run with md := { run.md with btnArmed := true } }

def w_longPressStageOff : State := { run with md := { run.md with longPress := 1 } }

def w_longPressPor : State := { run with md := { run.md with longPress := 2 } }

def c_budgetIntent : Cmd := mk .ec 0x10 [0xE8, 3, 0, 0, 0, 0, 0, 0, 0, 0, 0, 0, 10, 0, 0, 0]

def w_budgetIntent : State := cmdSt run c_budgetIntent

def c_budgetSetPolicy : Cmd := mk .ec 0x12 [0]

def w_budgetSetPolicy : State := cmdSt run c_budgetSetPolicy

def c_chargeProfileLoad : Cmd := mk .ec 0x20 [2]

def w_chargeProfileLoad : State := cmdSt run c_chargeProfileLoad

def c_chargeStart : Cmd := mk .ec 0x21 [0]

def w_chargeStart : State := cmdSt (run.set R.CHG_STATUS.PHASE 2) c_chargeStart

def c_chargeStop : Cmd := mk .ec 0x22 [0]

def w_chargeStop : State := cmdSt run c_chargeStop

def c_chargeRestartAfterFault : Cmd := mk .ec 0x23 [0]

def w_chargeRestartAfterFault : State := cmdSt (run.set R.CHG_STATUS.PHASE 9) c_chargeRestartAfterFault

def c_estimatorRead : Cmd := mk .ec 0x24 [0]

def w_estimatorRead : State := cmdSt run c_estimatorRead

def c_estimatorReset : Cmd := mk .ec 0x25 [0]

def w_estimatorReset : State := cmdSt (run.set (R.CHG_PROFILE.W 2) 0x100) c_estimatorReset

def c_inputSelect : Cmd := mk .ec 0x62 [0xFE, 0xFE]

def w_inputSelect : State := cmdSt (run.set R.MOD_BATFET_STATUS.STATE 3) c_inputSelect

def c_phaseMapSet : Cmd := mk .ec 0x61 [1, 1, 1, 2, 2, 2, 0]

def w_phaseMapSet : State := cmdSt run c_phaseMapSet

def c_sensorReinstate : Cmd := mk .ec 0x82 [1, 0, 0]

def w_sensorReinstate : State := cmdSt run c_sensorReinstate

def c_selfTest : Cmd := mk .ec 0x83 [2]

def w_selfTest : State := cmdSt run c_selfTest

def c_pdSetPortPolicy : Cmd := mk .ec 0x30 [0]

def w_pdSetPortPolicy : State := cmdSt run c_pdSetPortPolicy

def c_pdSetSourceCaps : Cmd := mk .ec 0x31 [0, 1, 0, 0, 0x2C, 0x91, 0x01, 0x00]

def w_pdSetSourceCaps : State := cmdSt run c_pdSetSourceCaps

def c_pdSetSinkCaps : Cmd := mk .ec 0x32 [0, 0, 1, 0, 0x2C, 0x91, 0x01, 0x00]

def w_pdSetSinkCaps : State := cmdSt run c_pdSetSinkCaps

def c_pdRequest3 : Cmd := mk .ec 0x33 [0, 0]

def w_pdRequest3 : State := cmdSt run c_pdRequest3

def c_pdRequest4 : Cmd := mk .ec 0x33 [0, 1]

def w_pdRequest4 : State := cmdSt ((pt 4 4 false).set (R.PD_PARTNER_SRC_PDO.W 0 0) 0x0001912C) c_pdRequest4

def c_pdSendMsg : Cmd := mk .ec 0x34 [0, 0, 0, 0, 0x0E]

def w_pdSendMsg : State := cmdSt (pt 4 4 false) c_pdSendMsg

def c_pdSwapPr : Cmd := mk .ec 0x35 [0, 0]

def w_pdSwapPr : State := cmdSt prsOk c_pdSwapPr

def c_pdSwapVconn : Cmd := mk .ec 0x35 [0, 1]

def w_pdSwapVconn : State := cmdSt vcsOk c_pdSwapVconn

def c_pdSwapDr : Cmd := mk .ec 0x35 [0, 2]

def w_pdSwapDr : State := cmdSt ((pt 4 4 false).set (R.PD_PE_CFG.HOST_DRS 0) 1) c_pdSwapDr

def c_pdHardReset : Cmd := mk .ec 0x36 [0]

def w_pdHardReset : State := cmdSt (pt 4 4 false) c_pdHardReset

def c_pdPortDisable : Cmd := mk .ec 0x37 [0, 1]

def w_pdPortDisable : State := cmdSt run c_pdPortDisable

def c_railConfig : Cmd := mk .ec 0x50 [5]

def w_railConfig : State := cmdSt (run.set (R.SEQ_RAIL_STATE.STATE 5) railOff) c_railConfig

def c_railOn : Cmd := mk .ec 0x51 [0]

def w_railOn : State := cmdSt ((run.set (R.SEQ_RAIL_STATE.STATE 0) railOff).set (R.SEQ_RAIL_CFG.DEPS 0) 0) c_railOn

def c_railOffCmd : Cmd := mk .ec 0x52 [0]

def w_railOffCmd : State := cmdSt run c_railOffCmd

def c_seqPlatformOn : Cmd := mk .ec 0x53 [0]

def w_seqPlatformOn : State := cmdSt run c_seqPlatformOn

def c_seqPlatformOff : Cmd := mk .ec 0x54 [0]

def w_seqPlatformOff : State := cmdSt run c_seqPlatformOff

def c_captureConfig : Cmd := mk .ec 0x40 [0, 0, 0, 0, 1, 0, 0, 0, 1, 0, 0, 0, 1, 0, 0, 0, 1, 0, 1, 0]

def w_captureConfig : State := cmdSt run c_captureConfig

def c_captureArm : Cmd := mk .ec 0x41 [1, 0]

def w_captureArm : State := cmdSt ringIdle c_captureArm

def c_captureStop : Cmd := mk .ec 0x42 [0]

def w_captureStop : State := cmdSt run c_captureStop

def c_captureRingAttach : Cmd := mk .ec 0x43 [0, 0, 0, 0, 0, 0x10, 0, 0, 0, 0, 0, 0, 4, 0, 0, 0]

def w_captureRingAttach : State := cmdSt (run.set R.HIF_CTRL.ENABLE 1) c_captureRingAttach

def c_captureRingDetach : Cmd := mk .ec 0x43 [0, 1]

def w_captureRingDetach : State := cmdSt (run.set R.HIF_CTRL.ENABLE 1) c_captureRingDetach

def c_nop : Cmd := mk .ec 0x00 [0]

def w_nop : State := cmdSt run c_nop

def c_getStatusBlock : Cmd := mk .ec 0x03 [0]

def w_getStatusBlock : State := cmdSt run c_getStatusBlock

def c_setEventMask : Cmd := mk .ec 0x04 [2, 0]

def w_setEventMask : State := cmdSt run c_setEventMask

def c_setParam : Cmd := mk .ec 0x01 [8, 4, 0, 0, 5, 0, 0, 0, 31, 0, 0, 0]

def w_setParam : State := cmdSt run c_setParam

def c_getParam : Cmd := mk .ec 0x02 [0, 4]

def w_getParam : State := cmdSt run c_getParam

def c_modeRequestKeepAlive : Cmd := mk .ec 0x60 [1, 0, 0, 0]

def w_modeRequestKeepAlive : State := cmdSt run c_modeRequestKeepAlive

def c_modeRequestShip : Cmd := mk .ec 0x60 [2, 0, 0, 0]

def w_modeRequestShip : State := cmdSt run c_modeRequestShip

def c_modeRequestClearSafe : Cmd := mk .ec 0x60 [3]

def w_modeRequestClearSafe : State := cmdSt (run.set R.MOD_MODE_STATUS.MODE 5) c_modeRequestClearSafe

def c_cascadeStatus : Cmd := mk .ec 0x90 [1]

def w_cascadeStatus : State := cmdSt run c_cascadeStatus

def c_cascadeRemoteRead : Cmd := mk .ec 0x91 [1, 0, 0, 4]

def w_cascadeRemoteRead : State := cmdSt reach1 c_cascadeRemoteRead

def c_cascadeRemoteWrite : Cmd := mk .ec 0x91 [1, 1, 8, 4, 5, 0, 0, 0, 31, 0, 0, 0]

def w_cascadeRemoteWrite : State := cmdSt reach1 c_cascadeRemoteWrite

def c_logRead : Cmd := mk .ec 0x80 [0, 0, 0, 0, 1, 0]

def w_logRead : State := cmdSt run c_logRead

def c_logClear : Cmd := mk .ec 0x81 [0x43, 0x4C]

def w_logClear : State := cmdSt run c_logClear

def c_fwStage : Cmd := mk .ec 0x70 [0, 0, 0, 0, 0, 0, 0, 0, 4, 0, 0, 0]

def w_fwStage : State := cmdSt ({ run with fw := { run.fw with staged := some 0 } }) c_fwStage

def c_fwActivate : Cmd := mk .ec 0x71 [0]

def w_fwActivate : State := cmdSt (run.set R.SEC_FW_STATUS.STAGED 1) c_fwActivate

def c_fwAbort : Cmd := mk .ec 0x72 [0]

def w_fwAbort : State := cmdSt ({ run with fw := { run.fw with staged := some 0 } }) c_fwAbort

def c_configCommitImage : Cmd := mk (.ring 0) 0x73 [1, 0, 0, 0, 0, 0, 0, 0, 0, 0, 0, 0, 32, 0, 0, 0]

def w_configCommitImage : State := cmdSt run c_configCommitImage

def c_configCommitSwap : Cmd := mk .ec 0x73 [0]

def w_configCommitSwap : State := cmdSt ({ run with fw := { run.fw with slot1 := { valid := true, records := [] } } }) c_configCommitSwap

/-- Every clause of `PowerStageRows` has a state and operands that meet its hypotheses. -/
theorem witness_PowerStageRows :
    (w_bootstrapPrechargeDone.power = .on ∧ (w_bootstrapPrechargeDone.stage.phases.get (0 : Fin 6)).precharge ∧
        w_bootstrapPrechargeDone.mayswitch) ∧
    (w_bootstrapRefresh.power = .on ∧ w_bootstrapRefresh.heldOn (0 : Fin 6)) ∧
    (w_drvLvlApply.power = .on ∧ ¬ (w_drvLvlApply.switching (0 : Fin 6)) ∧ (w_drvLvlApply.stage.phases.get (0 : Fin
        6)).drvHeld.isSome) ∧
    (run.power = .on) ∧
    (w_phaseValley.power = .on ∧ w_phaseValley.switching (0 : Fin 6)) ∧
    (w_groupRefValley.power = .on ∧ w_groupRefValley.nSwitch (0 : Fin 2) ≠ 0) ∧
    (w_dirRampHandover.power = .on ∧ (w_dirRampHandover.stage.groups.get (0 : Fin 2)).dirTarget.isSome ∧
        w_dirRampHandover.geti (R.CNV_GRP_STATUS.IREF (0 : Fin 2)) = 0) ∧
    (w_phaseShed.power = .on ∧ w_phaseShed.maySheds (0 : Fin 2) ∧ w_phaseShed.topPhase (0 : Fin 2) = some (1 : Fin 6)) ∧
    (w_phaseMapSetDone.power = .on ∧ w_phaseMapSetDone.stage.mapChange.isSome ∧ ((allPhases.all fun ph =>
        !(w_phaseMapSetDone.stage.phases.get ph).moving && !(w_phaseMapSetDone.stage.phases.get ph).checking))) ∧
    (w_phaseCycleLimit.power = .on ∧ w_phaseCycleLimit.switching (0 : Fin 6) ∧ ¬ ((w_phaseCycleLimit.stage.phases.get
        (0 : Fin 6)).clHit)) ∧
    (w_phaseOvercurrent.power = .on ∧ w_phaseOvercurrent.switching (0 : Fin 6) ∧ (w_phaseOvercurrent.stage.phases.get
        (0 : Fin 6)).ocRun ≥ w_phaseOvercurrent.get (R.PH_HW.OC_CNT (0 : Fin 6))) ∧
    (w_phaseHardOvercurrent.power = .on ∧ w_phaseHardOvercurrent.switching (0 : Fin 6)) ∧
    (w_phaseDriverUv.power = .on ∧ w_phaseDriverUv.inService (0 : Fin 6)) ∧
    (w_phaseSwNodeFault.power = .on ∧ w_phaseSwNodeFault.switching (0 : Fin 6)) ∧
    (w_phaseSenseMismatch.power = .on ∧ w_phaseSenseMismatch.switching (0 : Fin 6) ∧ w_phaseSenseMismatch.on
        (R.PH_STATUS.FF_HOLD (0 : Fin 6))) ∧
    (w_phaseSlopeFault.power = .on ∧ w_phaseSlopeFault.switching (5 : Fin 6)) ∧
    (w_phaseCmFault.power = .on ∧ w_phaseCmFault.inService (0 : Fin 6)) ∧
    (w_phaseSelfCheckDone.power = .on ∧ (w_phaseSelfCheckDone.stage.phases.get (0 : Fin 6)).checking) ∧
    (w_vdrvUv.power = .on ∧ w_vdrvUv.on R.CNV_STATUS.STAGE_EN ∧ ¬ (w_vdrvUv.on R.CNV_STATUS.VDRV_UV)) ∧
    (w_vdrvRecover.power = .on ∧ w_vdrvRecover.on R.CNV_STATUS.VDRV_UV) := by
  refine ⟨?_, ?_, ?_, ?_, ?_, ?_, ?_, ?_, ?_, ?_, ?_, ?_, ?_, ?_, ?_, ?_, ?_, ?_, ?_, ?_⟩ <;> decide +kernel

/-- Every clause of `PathMoves` has a state and operands that meet its hypotheses. -/
theorem witness_PathMoves :
    (w_pairTurnOnDone.power = .on ∧ (w_pairTurnOnDone.path.buses.get (0 : Fin 2)).move = .closing (1 : Fin 4) false) ∧
    (w_busMoveRampDone.power = .on ∧ (w_busMoveRampDone.path.buses.get (0 : Fin 2)).move = .ramp (none : Option (Fin
        4)) ∧ w_busMoveRampDone.freeToClose (0 : Fin 2) (none : Option (Fin 4))) ∧
    (w_busMoveBusSettled.power = .on ∧ (w_busMoveBusSettled.path.buses.get (1 : Fin 2)).move = .settle (2 : Fin 4)) ∧
    (w_vExpSettle.power = .on ∧ (w_vExpSettle.path.ports.get (0 : Fin 4)).trans.isSome ∧ ¬ (w_vExpSettle.isSrc (0 : Fin
        4)) ∧ w_vExpSettle.peState (0 : Fin 4) ≠ 3) ∧
    (w_batfetToSwitch.power = .on ∧ w_batfetToSwitch.bat = batLinear ∧ 60000 ≥ w_batfetToSwitch.get
        R.MOD_VSYS_CFG.VSYS_MIN) ∧
    (w_batfetToLinear.power = .on ∧ w_batfetToLinear.bat = batSwitch ∧ w_batfetToLinear.anySink ∧ 0 + 200 <
        w_batfetToLinear.get R.MOD_VSYS_CFG.VSYS_MIN) ∧
    (w_batfetFastOn.power = .on ∧ (w_batfetFastOn.bat = batLinear || w_batfetFastOn.bat = batIdeal)) ∧
    (w_batfetReverseOff.power = .on ∧ w_batfetReverseOff.bat = batIdeal ∧ w_batfetReverseOff.path.fastOn) ∧
    (w_batfetLinearResume.power = .on ∧ w_batfetLinearResume.bat = batLinear ∧ w_batfetLinearResume.path.fastOn) ∧
    (w_sinkDrop.power = .on ∧ ((w_sinkDrop.sinkConn (0 : Fin 2) && 3599 < w_sinkDrop.dropTh (0 : Fin 2)
        (w_sinkDrop.busPort (0 : Fin 2))) || (!w_sinkDrop.sinkConn (0 : Fin 2) && w_sinkDrop.parDrop (0 : Fin 2) 3599))
            = true) ∧
    (w_sinkOvp.power = .on ∧ ((w_sinkOvp.sinkConn (0 : Fin 2) && 5751 > w_sinkOvp.ovpTh (w_sinkOvp.busPort (0 : Fin
        2))) || (!w_sinkOvp.sinkConn (0 : Fin 2) && w_sinkOvp.parOvp (0 : Fin 2) 5751)) = true) ∧
    (w_sinkOvpReclose.power = .on ∧ (w_sinkOvpReclose.path.buses.get (0 : Fin 2)).held = some ((3 : Fin 4), .ovp)) ∧
    (w_sinkReverse.power = .on ∧ w_sinkReverse.sinkConn (1 : Fin 2) ∧ (-1001 : Int) < -1000) ∧
    (w_sinkRevReconnect.power = .on ∧ (w_sinkRevReconnect.path.buses.get (0 : Fin 2)).held = some ((0 : Fin 4), .rev)) ∧
    (w_sourceBusReady.power = .on ∧ (w_sourceBusReady.path.ports.get (3 : Fin 4)).src = .raising ∧
        (w_sourceBusReady.path.ports.get (3 : Fin 4)).srcBus = some (0 : Fin 2)) ∧
    (w_sourceOverload.power = .on ∧ w_sourceOverload.sourcing (0 : Fin 4) ∧ w_sourceOverload.get
        (R.PD_PE_STATUS.CONTRACT (0 : Fin 4)) ≠ 2) ∧
    (w_sourceShort.power = .on ∧ w_sourceShort.sourcing (3 : Fin 4)) ∧
    (w_sourceReverse.power = .on ∧ w_sourceReverse.sourcing (0 : Fin 4)) := by
  refine ⟨?_, ?_, ?_, ?_, ?_, ?_, ?_, ?_, ?_, ?_, ?_, ?_, ?_, ?_, ?_, ?_, ?_, ?_⟩ <;> decide +kernel

/-- Every clause of `PackPresence` has a state and operands that meet its hypotheses. -/
theorem witness_PackPresence :
    (w_tapDetect.power = .on ∧ w_tapDetect.packPresent) ∧
    (w_tapFault.power = .on ∧ w_tapFault.tapsUsed ∧ w_tapFault.get R.CHG_STATUS.PHASE ≠ 9) ∧
    (w_packNtcOpen.power = .on ∧ w_packNtcOpen.packPresent ∧ w_packNtcOpen.on R.CHG_TEMP_CFG.PRES_NTC) ∧
    (w_packProbeIdleStart.power = .on ∧ w_packProbeIdleStart.packPresent ∧ w_packProbeIdleStart.chg.probe.isNone ∧ 3 ≤
        w_packProbeIdleStart.get R.CHG_STATUS.PHASE ∧ w_packProbeIdleStart.get R.CHG_STATUS.PHASE ≤ 5) ∧
    (w_packProbeDone.power = .on ∧ w_packProbeDone.chg.probe.isSome) ∧
    (run.power = .on ∧ ¬ run.packPresent ∧ run.bat = batOff) ∧
    (w_packInsert.power = .on ∧ ¬ w_packInsert.packPresent ∧ w_packInsert.bat = batOff ∧ 1000 ≥ 1000 ∧ ¬ false ∧
        w_packInsert.get R.CHG_STATUS.PHASE ≠ 0) ∧
    (w_packInsertConnect.power = .on ∧ w_packInsertConnect.chg.inserting ∧ within 8100 8000 100) ∧
    (run.power = .on) ∧
    (w_prbsStep.power = .on ∧ w_prbsStep.perturbs) ∧
    (w_estimatorUpdate.power = .on ∧ w_estimatorUpdate.pmEn ∧ w_estimatorUpdate.fwRuns ∧
        w_estimatorUpdate.chg.est.state ≠ 0) := by
  refine ⟨?_, ?_, ?_, ?_, ?_, ?_, ?_, ?_, ?_, ?_, ?_⟩ <;> decide +kernel

/-- Every clause of `ChargePhases` has a state and operands that meet its hypotheses. -/
theorem witness_ChargePhases :
    (w_chgTrickleToPrecharge.power = .on ∧ w_chgTrickleToPrecharge.get R.CHG_STATUS.PHASE = 3 ∧
        w_chgTrickleToPrecharge.chg.vLo ≥ 2200) ∧
    (w_chgPrechargeToCc.power = .on ∧ w_chgPrechargeToCc.get R.CHG_STATUS.PHASE = 4 ∧ w_chgPrechargeToCc.chg.vLo ≥
        w_chgPrechargeToCc.prof16 0x12) ∧
    (w_chgCcToPrecharge.power = .on ∧ w_chgCcToPrecharge.get R.CHG_STATUS.PHASE = 5 ∧ w_chgCcToPrecharge.chg.vLo + 100
        < w_chgCcToPrecharge.prof16 0x12) ∧
    (w_chgStepAdvance.power = .on ∧ w_chgStepAdvance.get R.CHG_STATUS.PHASE = 5 ∧ w_chgStepAdvance.chg.vHi ≥
        w_chgStepAdvance.stepV (w_chgStepAdvance.get R.CHG_STATUS.STEP) ∧ w_chgStepAdvance.get R.CHG_STATUS.STEP + 1 <
            w_chgStepAdvance.nSteps) ∧
    (w_chgCcToCv.power = .on ∧ w_chgCcToCv.get R.CHG_STATUS.PHASE = 5 ∧ w_chgCcToCv.vchgBinds) ∧
    (w_chgTerminate.power = .on ∧ w_chgTerminate.get R.CHG_STATUS.PHASE = 6 ∧ w_chgTerminate.chg.cvMs ≥
        w_chgTerminate.prof16 0x1A * 60000 ∧ w_chgTerminate.geti R.MOD_BAT_MEAS.IBAT * 2 < w_chgTerminate.prof16 0x16 ∧
            w_chgTerminate.vchgBinds) ∧
    (w_chgRecharge.power = .on ∧ w_chgRecharge.get R.CHG_STATUS.PHASE = 7 ∧ w_chgRecharge.chg.vHi +
        w_chgRecharge.prof16 0x18 < w_chgRecharge.zoneVolt) ∧
    (w_chgNoInputEnd.power = .on ∧ ¬ w_chgNoInputEnd.anySink ∧ w_chgNoInputEnd.on R.CHG_STATUS.CYCLE) ∧
    (run.power = .on ∧ (1 : Fin 32).val ≠ 0) ∧
    (w_cellOvClear.power = .on ∧ w_cellOvClear.get R.CHG_COV_STATUS.ACTIVE ≠ 0) ∧
    (w_fastTimerExpiry.power = .on ∧ w_fastTimerExpiry.chg.fastMs ≥ w_fastTimerExpiry.prof16 0x1E * 60000 ∧
        w_fastTimerExpiry.on R.CHG_STATUS.CYCLE) ∧
    (w_preTimerExpiry.power = .on ∧ w_preTimerExpiry.chg.preMs ≥ w_preTimerExpiry.prof16 0x1C * 60000 ∧
        w_preTimerExpiry.on R.CHG_STATUS.CYCLE) ∧
    (w_chgOvercurrent.power = .on ∧ w_chgOvercurrent.charging ∧ w_chgOvercurrent.geti R.MOD_BAT_MEAS.IBAT * 2 * 10 >
        w_chgOvercurrent.geti R.CHG_CURRENT.I_SET * 2 * 12 + 5000) ∧
    (w_packOvSuspend.power = .on ∧ w_packOvSuspend.charging ∧ 101 > w_packOvSuspend.cells * w_packOvSuspend.zoneVolt +
        100) ∧
    (w_packOvClear.power = .on ∧ w_packOvClear.bit R.CHG_STATUS.SUSP 1 ∧ 4199 < w_packOvClear.cells *
        w_packOvClear.zoneVolt) := by
  refine ⟨?_, ?_, ?_, ?_, ?_, ?_, ?_, ?_, ?_, ?_, ?_, ?_, ?_, ?_, ?_⟩ <;> decide +kernel

/-- Every clause of `ThermalAndBudgetRows` has a state and operands that meet its hypotheses. -/
theorem witness_ThermalAndBudgetRows :
    (run.power = .on ∧ run.powered) ∧
    (w_sampleRateSlow.power = .on ∧ w_sampleRateSlow.powered ∧ w_sampleRateSlow.on R.THM_STATUS.FAST ∧ ¬
        (w_sampleRateSlow.nearLimit 12)) ∧
    (run.power = .on ∧ (pairVote (3 : Fin 4096) (0 : Fin 4096) || loneVote (3 : Fin 4096) (0 : Fin 4096)) = true) ∧
    (run.power = .on ∧ run.get R.BGT_STATUS.SOURCE ≠ 1) ∧
    (w_ovlGrantEnd.power = .on ∧ (w_ovlGrantEnd.bgt.ports.get (0 : Fin 4)).window = some
        ({ usedUs := 0, pct := 10, granting := true } : OvlWindow) ∧ ({ usedUs := 0, pct := 10, granting := true } :
            OvlWindow).granting) ∧
    (w_ovlWindowEnd.power = .on ∧ (w_ovlWindowEnd.bgt.ports.get (3 : Fin 4)).window.isSome) ∧
    (run.power = .on) ∧
    (run.power = .on) ∧
    (run.power = .on ∧ 1001 > run.get R.BGT_STR_CHG.P + max (run.get R.BGT_STR_CHG.P / 50) 1000) ∧
    (w_shedTExpiry.power = .on ∧ (w_shedTExpiry.bgt.ports.get (0 : Fin 4)).shed = some
        ({ cut := 0, before := 15000, taken := false } : Shed) ∧ ¬ ({ cut := 0, before := 15000, taken := false } :
            Shed).taken) ∧
    (w_shedHardReset.power = .on ∧ (w_shedHardReset.bgt.ports.get (0 : Fin 4)).shed = some
        ({ cut := 0, before := 15000, taken := true } : Shed) ∧ ({ cut := 0, before := 15000, taken := true } :
            Shed).taken) ∧
    (w_sourceRestore.power = .on ∧ w_sourceRestore.mayRestore (0 : Fin 4)) ∧
    (w_throtDeassert.power = .on ∧ w_throtDeassert.on R.BGT_STATUS.THROT ∧ ¬ w_throtDeassert.inSafe ∧
        w_throtDeassert.bgt.overNow ≤ -(w_throtDeassert.get R.BGT_THROT_CFG.HYST * 1000 : Int)) ∧
    (w_intentActivate.power = .on ∧ ((w_intentActivate.bgt.intents.any fun i => i.slot = (7 : Fin 8) && !i.active))) ∧
    (w_intentExpire.power = .on ∧ ((w_intentExpire.bgt.intents.any fun i => i.slot = (0 : Fin 8)))) := by
  refine ⟨?_, ?_, ?_, ?_, ?_, ?_, ?_, ?_, ?_, ?_, ?_, ?_, ?_, ?_, ?_⟩ <;> decide +kernel

/-- Every clause of `PortAttach` has a state and operands that meet its hypotheses. -/
theorem witness_PortAttach :
    (w_ccRpDetect.power = .on ∧ (if false then w_ccRpDetect.tcState (0 : Fin 4) = 5 && (w_ccRpDetect.tc (0 : Fin
        4)).term != .open_ && !w_ccRpDetect.wet (0 : Fin 4) else w_ccRpDetect.tcState (0 : Fin 4) = 2)) ∧
    (w_attachWaitCcOpen.power = .on ∧ (w_attachWaitCcOpen.tcState (0 : Fin 4) = 3 || w_attachWaitCcOpen.tcState (0 :
        Fin 4) = 6)) ∧
    (w_sinkAttach.power = .on ∧ (w_sinkAttach.tcState (0 : Fin 4) = 3 || w_sinkAttach.tcState (0 : Fin 4) = 9 ||
        w_sinkAttach.tcState (0 : Fin 4) = 0xA) ∧ 4000 ≥ 4000 ∧ w_sinkAttach.attachFree (0 : Fin 4)) ∧
    (srcFree.power = .on ∧ (srcFree.tcState (0 : Fin 4) = 6 || srcFree.tcState (0 : Fin 4) = 8 || srcFree.tcState (0 :
        Fin 4) = 0xB) ∧ 799 < 800 ∧ srcFree.attachFree (0 : Fin 4) ∧ srcFree.srcAvail (0 : Fin 4)) ∧
    (w_rpChange.power = .on ∧ w_rpChange.tcState (0 : Fin 4) = 4) ∧
    (w_sinkDetach.power = .on ∧ w_sinkDetach.tcState (0 : Fin 4) = 4 ∧ 3669 < 3670 ∧ ¬ (w_sinkDetach.vbusMayFall (0 :
        Fin 4))) ∧
    (w_sourceDetach.power = .on ∧ w_sourceDetach.tcState (3 : Fin 4) = 7) ∧
    (w_accessoryAttach.power = .on ∧ w_accessoryAttach.on (R.PD_TC_CFG.ACC_EN (0 : Fin 4)) ∧ ¬ (w_accessoryAttach.wet
        (0 : Fin 4)) ∧ (if (2 : Fin 3) = 2 then w_accessoryAttach.tcState (0 : Fin 4) = 2 || w_accessoryAttach.tcState
            (0 : Fin 4) = 3 else (w_accessoryAttach.tcState (0 : Fin 4) = 5 || w_accessoryAttach.tcState (0 : Fin 4) =
                6) && w_accessoryAttach.srcAvail (0 : Fin 4))) ∧
    (w_accessoryDetach.power = .on ∧ (w_accessoryDetach.tcState (0 : Fin 4) = 0xC || w_accessoryDetach.tcState (0 : Fin
        4) = 0xD || w_accessoryDetach.tcState (0 : Fin 4) = 0xE)) ∧
    (w_drpToggle.power = .on ∧ w_drpToggle.get (R.PD_TC_CFG.ROLE (0 : Fin 4)) = 2 ∧ (w_drpToggle.tcState (0 : Fin 4) =
        2 || w_drpToggle.tcState (0 : Fin 4) = 5) ∧ ¬ (w_drpToggle.on (R.PD_CTRL.DISABLE (0 : Fin 4))) ∧ ¬
            w_drpToggle.md.standAlone ∧ ¬ (w_drpToggle.wet (0 : Fin 4))) ∧
    (w_tryTimeout.power = .on ∧ 8 ≤ w_tryTimeout.tcState (0 : Fin 4) ∧ w_tryTimeout.tcState (0 : Fin 4) ≤ 0xB) ∧
    (w_errorRecoveryEnd.power = .on ∧ w_errorRecoveryEnd.tcState (0 : Fin 4) = 1) ∧
    (w_rpLevelRaise.power = .on ∧ w_rpLevelRaise.isSrc (0 : Fin 4) ∧ ¬ (w_rpLevelRaise.on (R.PD_PE_STATUS.EXPLICIT (0 :
        Fin 4))) ∧ (w_rpLevelRaise.tc (0 : Fin 4)).term = .rp 0 ∧ (w_rpLevelRaise.rpLevel (0 : Fin 4) > 0)) := by
  refine ⟨?_, ?_, ?_, ?_, ?_, ?_, ?_, ?_, ?_, ?_, ?_, ?_, ?_⟩ <;> decide +kernel

/-- Every clause of `PortLink` has a state and operands that meet its hypotheses. -/
theorem witness_PortLink :
    (w_vconnOcp.power = .on ∧ w_vconnOcp.on (R.PD_VCONN.ON (0 : Fin 4))) ∧
    (w_vconnReverse.power = .on ∧ w_vconnReverse.on (R.PD_VCONN.ON (0 : Fin 4))) ∧
    (w_vbusDischargeDone.power = .on ∧ (w_vbusDischargeDone.tc (0 : Fin 4)).discharge.isSome ∧ 800 ≤
        (w_vbusDischargeDone.tc (0 : Fin 4)).discharge.getD 0) ∧
    (w_moistScan.power = .on ∧ w_moistScan.on (R.PD_TC_CFG.MOIST_EN (0 : Fin 4)) ∧ w_moistScan.noTest ∧
        w_moistScan.mode ≠ 0 ∧ (if w_moistScan.wet (0 : Fin 4) then true else w_moistScan.detached (0 : Fin 4) &&
            w_moistScan.mode != 1)) ∧
    (w_moistTestDone.power = .on ∧ (w_moistTestDone.tc (0 : Fin 4)).moistPins.isSome) ∧
    (w_moistRetest.power = .on ∧ (w_moistRetest.tc (0 : Fin 4)).moistRe ∧ w_moistRetest.noTest) ∧
    (w_moistTestAbort.power = .on ∧ (w_moistTestAbort.tc (0 : Fin 4)).moistPins.isSome) ∧
    (w_pdTxRetry.power = .on ∧ (w_pdTxRetry.tc (0 : Fin 4)).tx.isSome ∧ (w_pdTxRetry.tc (0 : Fin 4)).tx = some
        ({ sop := 0, kind := .accept, objs := [], retries := 0 } : TxMsg)) ∧
    (w_goodcrcRx.power = .on ∧ (w_goodcrcRx.tc (0 : Fin 4)).tx.isSome ∧ (w_goodcrcRx.tc (0 : Fin 4)).tx = some
        ({ sop := 1, kind := .accept, objs := [], retries := 0 } : TxMsg)) ∧
    (w_chunkTimeout.power = .on ∧ (w_chunkTimeout.tc (0 : Fin 4)).chunk.isSome) ∧
    (w_discoverIdentityRetry.power = .on ∧ (w_discoverIdentityRetry.tc (0 : Fin 4)).discover.isSome) ∧
    (w_cableIdentityRx.power = .on ∧ (w_cableIdentityRx.tc (0 : Fin 4)).discover.isSome) ∧
    (w_bistRx.power = .on ∧ w_bistRx.talks (0 : Fin 4) ∧ 4750 ≤ 5500 ∧ 5500 ≤ 5500 ∧ (1 : Fin 3) ≠ 2) ∧
    (w_bistCarrierEnd.power = .on ∧ (w_bistCarrierEnd.tc (0 : Fin 4)).bist = 1) ∧
    (w_hardResetRx.power = .on ∧ w_hardResetRx.talks (0 : Fin 4) ∧ (w_hardResetRx.tcState (0 : Fin 4) = 4 ||
        w_hardResetRx.tcState (0 : Fin 4) = 7)) ∧
    (w_softResetRx.power = .on ∧ w_softResetRx.talks (0 : Fin 4) ∧ (w_softResetRx.tc (0 : Fin 4)).bist ≠ 2) := by
  refine ⟨?_, ?_, ?_, ?_, ?_, ?_, ?_, ?_, ?_, ?_, ?_, ?_, ?_, ?_, ?_, ?_⟩ <;> decide +kernel

/-- Every clause of `PolicySink` has a state and operands that meet its hypotheses. -/
theorem witness_PolicySink :
    (w_srcCapsRx.power = .on ∧ w_srcCapsRx.listens (0 : Fin 4) ∧ w_srcCapsRx.takesCaps (0 : Fin 4) 5000) ∧
    (w_acceptRx.power = .on ∧ w_acceptRx.awaitsReply (0 : Fin 4)) ∧
    (w_psRdyRxSink.power = .on ∧ w_psRdyRxSink.listens (0 : Fin 4) ∧ w_psRdyRxSink.peState (0 : Fin 4) = 0x03) ∧
    (w_rejectRx.power = .on ∧ w_rejectRx.awaitsReply (0 : Fin 4)) ∧
    (w_waitRx.power = .on ∧ w_waitRx.awaitsReply (0 : Fin 4)) ∧
    (w_sinkRequestRetry.power = .on ∧ w_sinkRequestRetry.waitsRetry (0 : Fin 4)) ∧
    (w_senderResponseTimeout.power = .on ∧ (w_senderResponseTimeout.pe (0 : Fin 4)).await ≠ .none) ∧
    (w_psTransitionTimeout.power = .on ∧ w_psTransitionTimeout.peState (0 : Fin 4) = 0x03) ∧
    (w_sinkWaitCapTimeout.power = .on ∧ w_sinkWaitCapTimeout.peState (0 : Fin 4) = 0x01 ∧ w_sinkWaitCapTimeout.tcState
        (0 : Fin 4) = 4) ∧
    (w_ppsKeepalive.power = .on ∧ w_ppsKeepalive.listens (0 : Fin 4) ∧ w_ppsKeepalive.on (R.PD_PE_STATUS.EXPLICIT (0 :
        Fin 4)) ∧ w_ppsKeepalive.get (R.PD_PE_STATUS.CONTRACT (0 : Fin 4)) = 2 ∧ ¬ (w_ppsKeepalive.isSrc (0 : Fin 4))) ∧
    (w_eprEntryStart.power = .on ∧ w_eprEntryStart.listens (0 : Fin 4) ∧ w_eprEntryStart.peState (0 : Fin 4) = 0x04 ∧
        w_eprEntryStart.eprMay (0 : Fin 4)) ∧
    (w_eprModeRx.power = .on ∧ w_eprModeRx.listens (0 : Fin 4)) ∧
    (w_eprEnterTimeout.power = .on ∧ w_eprEnterTimeout.peState (0 : Fin 4) = 0x06 ∧ (w_eprEnterTimeout.pe (0 : Fin
        4)).eprStage = 2) ∧
    (w_eprKeepalive.power = .on ∧ w_eprKeepalive.listens (0 : Fin 4) ∧ w_eprKeepalive.on (R.PD_PE_STATUS.EPR_MODE (0 :
        Fin 4)) ∧ ¬ (w_eprKeepalive.isSrc (0 : Fin 4))) ∧
    (w_eprKeepaliveAckRx.power = .on ∧ w_eprKeepaliveAckRx.listens (0 : Fin 4) ∧ (w_eprKeepaliveAckRx.pe (0 : Fin
        4)).await = .keepAlive) ∧
    (w_sinkCapsRx.power = .on ∧ w_sinkCapsRx.listens (0 : Fin 4) ∧ (w_sinkCapsRx.tcState (0 : Fin 4) = 4 ||
        w_sinkCapsRx.tcState (0 : Fin 4) = 7)) ∧
    (w_sinkTxOk.power = .on ∧ w_sinkTxOk.listens (0 : Fin 4) ∧ ¬ (w_sinkTxOk.isSrc (0 : Fin 4)) ∧ w_sinkTxOk.tcState (0
        : Fin 4) = 4 ∧ w_sinkTxOk.on (R.PD_PE_STATUS.EXPLICIT (0 : Fin 4)) ∧ w_sinkTxOk.get
            (R.PD_PRL_STATUS.PARTNER_REV (0 : Fin 4)) = 2) ∧
    (w_sinkTxWaitDrop.power = .on ∧ ¬ (w_sinkTxWaitDrop.isSrc (0 : Fin 4)) ∧ (w_sinkTxWaitDrop.pe (0 : Fin 4)).seq =
        .none ∧ (((w_sinkTxWaitDrop.pe (0 : Fin 4)).line.any fun q => w_sinkTxWaitDrop.mayDrop (0 : Fin 4) q))) := by
  refine ⟨?_, ?_, ?_, ?_, ?_, ?_, ?_, ?_, ?_, ?_, ?_, ?_, ?_, ?_, ?_, ?_, ?_, ?_⟩ <;> decide +kernel

/-- Every clause of `PolicySource` has a state and operands that meet its hypotheses. -/
theorem witness_PolicySource :
    (w_sourceCapsSend.power = .on ∧ w_sourceCapsSend.listens (0 : Fin 4) ∧ w_sourceCapsSend.sendsCaps (0 : Fin 4)) ∧
    (w_requestRx.power = .on ∧ w_requestRx.takesRequest (0 : Fin 4)) ∧
    (w_srcTransitionStart.power = .on ∧ w_srcTransitionStart.peState (0 : Fin 4) = 0x12 ∧
        (w_srcTransitionStart.path.ports.get (0 : Fin 4)).trans.isNone) ∧
    (w_srcPsRdy.power = .on ∧ w_srcPsRdy.peState (0 : Fin 4) = 0x12 ∧ (w_srcPsRdy.path.ports.get (0 : Fin
        4)).trans.isSome ∧ (w_srcPsRdy.pe (0 : Fin 4)).next = some
            ({ pos := 1, kind := 1, mv := 5000, ma := 3000, rdo := 0 } : Contract) ∧ within3 5000
                ({ pos := 1, kind := 1, mv := 5000, ma := 3000, rdo := 0 } : Contract).mv) ∧
    (w_ppsSourceTimeout.power = .on ∧ w_ppsSourceTimeout.listens (0 : Fin 4) ∧ w_ppsSourceTimeout.isSrc (0 : Fin 4) ∧
        w_ppsSourceTimeout.on (R.PD_PE_STATUS.EXPLICIT (0 : Fin 4)) ∧ w_ppsSourceTimeout.get (R.PD_PE_STATUS.CONTRACT
            (0 : Fin 4)) = 2) ∧
    (w_tsinktxExpiry.power = .on ∧ w_tsinktxExpiry.listens (0 : Fin 4) ∧ w_tsinktxExpiry.isSrc (0 : Fin 4) ∧
        (w_tsinktxExpiry.pe (0 : Fin 4)).held ≠ .none ∧ (w_tsinktxExpiry.pe (0 : Fin 4)).seq = .none) ∧
    (w_hostRoutedRx.power = .on ∧ w_hostRoutedRx.listens (0 : Fin 4) ∧ hostKind (.status : MsgKind)) ∧
    (w_drSwapRx.power = .on ∧ w_drSwapRx.listens (0 : Fin 4) ∧ w_drSwapRx.inReady (0 : Fin 4)) ∧
    (w_hostReplyTimeout.power = .on ∧ w_hostReplyTimeout.on (R.PD_PE_STATUS.HOST_WAIT (0 : Fin 4))) ∧
    (w_tableRequestRx.power = .on ∧ w_tableRequestRx.listens (0 : Fin 4)) ∧
    (w_chunkRx.power = .on ∧ w_chunkRx.listens (0 : Fin 4)) := by
  refine ⟨?_, ?_, ?_, ?_, ?_, ?_, ?_, ?_, ?_, ?_, ?_⟩ <;> decide +kernel

/-- Every clause of `PolicySwaps` has a state and operands that meet its hypotheses. -/
theorem witness_PolicySwaps :
    (w_prSwapRx.power = .on ∧ w_prSwapRx.listens (0 : Fin 4) ∧ w_prSwapRx.inReady (0 : Fin 4)) ∧
    (w_prSwapSourceOff.power = .on ∧ w_prSwapSourceOff.peState (0 : Fin 4) = 0x20 ∧ (w_prSwapSourceOff.pe (0 : Fin
        4)).swapStage = 2) ∧
    (w_prSwapVbusLow.power = .on ∧ w_prSwapVbusLow.peState (0 : Fin 4) = 0x20 ∧ (w_prSwapVbusLow.pe (0 : Fin
        4)).swapStage = 2 ∧ (w_prSwapVbusLow.path.ports.get (0 : Fin 4)).srcBus.isNone ∧ 799 < 800) ∧
    (w_psRdyRxSwap.power = .on ∧ w_psRdyRxSwap.listens (0 : Fin 4)) ∧
    (w_swapPsRdyTimeout.power = .on ∧ w_swapPsRdyTimeout.awaitsSwapRdy (0 : Fin 4)) ∧
    (w_vconnSwapRx.power = .on ∧ w_vconnSwapRx.listens (0 : Fin 4) ∧ w_vconnSwapRx.inReady (0 : Fin 4)) ∧
    (w_vconnSourceTimeout.power = .on ∧ w_vconnSourceTimeout.peState (0 : Fin 4) = 0x22 ∧ (w_vconnSourceTimeout.pe (0 :
        Fin 4)).swapStage = 2 ∧ w_vconnSourceTimeout.on (R.PD_PE_STATUS.VCONN_SRC (0 : Fin 4))) ∧
    (w_swapReplyRx.power = .on ∧ w_swapReplyRx.listens (0 : Fin 4)) ∧
    (frsReady.power = .on ∧ frsReady.listens (0 : Fin 4) ∧ frsReady.tcState (0 : Fin 4) = 4 ∧ frsReady.frsArmed (0 :
        Fin 4) ∧ ¬ (frsReady.isSrc (0 : Fin 4))) ∧
    (w_frSwapRx.power = .on ∧ w_frSwapRx.listens (0 : Fin 4) ∧ w_frSwapRx.peState (0 : Fin 4) = 0x25 ∧ (w_frSwapRx.pe
        (0 : Fin 4)).swapStage = 0) ∧
    (w_frsSourceWaitExpiry.power = .on ∧ w_frsSourceWaitExpiry.peState (0 : Fin 4) = 0x25 ∧ (w_frsSourceWaitExpiry.pe
        (0 : Fin 4)).swapStage = 0) ∧
    (w_hrSinkAllowanceEnd.power = .on ∧ w_hrSinkAllowanceEnd.peState (0 : Fin 4) = 0x07) ∧
    (w_hrSinkVbusReturn.power = .on ∧ w_hrSinkVbusReturn.peState (0 : Fin 4) = 0x07 ∧ vSafe5V 4750) ∧
    (w_hrSourceVbusOff.power = .on ∧ w_hrSourceVbusOff.peState (0 : Fin 4) = 0x15) ∧
    (w_hrSourceRecover.power = .on ∧ w_hrSourceRecover.peState (0 : Fin 4) = 0x15 ∧ (w_hrSourceRecover.path.ports.get
        (0 : Fin 4)).srcBus.isNone) ∧
    (w_softResetAcceptRx.power = .on ∧ w_softResetAcceptRx.listens (0 : Fin 4) ∧ w_softResetAcceptRx.peState (0 : Fin
        4) = 0x26 ∧ (w_softResetAcceptRx.pe (0 : Fin 4)).await = .softReset) := by
  refine ⟨?_, ?_, ?_, ?_, ?_, ?_, ?_, ?_, ?_, ?_, ?_, ?_, ?_, ?_, ?_, ?_⟩ <;> decide +kernel

/-- Every clause of `RailMoves` has a state and operands that meet its hypotheses. -/
theorem witness_RailMoves :
    (w_railEnable.power = .on ∧ w_railEnable.rail (0 : Fin 12) = railWait ∧ (w_railEnable.depsOf (0 : Fin 12) &&&
        w_railEnable.railsIn railGood = w_railEnable.depsOf (0 : Fin 12))) ∧
    (w_railGood.power = .on ∧ w_railGood.rail (0 : Fin 12) = railRamp) ∧
    (w_railPgTimeout.power = .on ∧ w_railPgTimeout.rail (0 : Fin 12) = railRamp) ∧
    (w_railLossOfGood.power = .on ∧ w_railLossOfGood.rail (4 : Fin 12) = railGood) ∧
    (w_railDisable.power = .on ∧ w_railDisable.rail (11 : Fin 12) = railHold ∧ ((allRails.all fun d => !bitAt
        (w_railDisable.depsOf d) (11 : Fin 12) || w_railDisable.letsGo d))) ∧
    (w_railOff.power = .on ∧ (w_railOff.rail (0 : Fin 12) = railFall || w_railOff.rail (0 : Fin 12) = railStuck)) ∧
    (w_railStuck.power = .on ∧ w_railStuck.rail (5 : Fin 12) = railFall ∧ (w_railStuck.depsOf (5 : Fin 12) &&&
        w_railStuck.railsIn railHold != 0)) ∧
    (w_latchedPowerUp.power = .on ∧ ¬ w_latchedPowerUp.downRuns ∧ ¬ w_latchedPowerUp.seq.latch.isEmpty) ∧
    (w_auxOverload.power = .on ∧ w_auxOverload.bit R.SEQ_STATUS.ENABLED ((0 : Fin 4).castLE (by decide) : Fin 12)) ∧
    (run.power = .on ∧ 2781 ≤ 2781) := by
  refine ⟨?_, ?_, ?_, ?_, ?_, ?_, ?_, ?_, ?_, ?_⟩ <;> decide +kernel

/-- Every clause of `CaptureAndRingRows` has a state and operands that meet its hypotheses. -/
theorem witness_CaptureAndRingRows :
    (w_thresholdFire.power = .on ∧ w_thresholdFire.on (R.CAP_TH_CFG.EN (0 : Fin 4)) ∧ w_thresholdFire.crossing (0 : Fin
        4) (-20000 : Int) (0 : Int)) ∧
    (w_captureTrigger.power = .on ∧ w_captureTrigger.ring (0 : Fin 8) = capArmed ∧ (w_captureTrigger.stream (0 : Fin
        8)).matches 0 0) ∧
    (w_captureBlockClose.power = .on ∧ w_captureBlockClose.ringOn (0 : Fin 8) ∧ ¬ ((w_captureBlockClose.stream (0 : Fin
        8)).ended)) ∧
    (w_writeOutStart.power = .on ∧ w_writeOutStart.canDma ∧ ((allRings.any fun (c : Fin 8) => !(w_writeOutStart.stream
        c).due.isEmpty))) ∧
    (w_pressureRestore.power = .on ∧ w_pressureRestore.get R.CAP_STATUS.LEVEL ≠ 0 ∧ w_pressureRestore.capFill + 0 -
        w_pressureRestore.cap.forming < 65536) ∧
    (w_slowRateApply.power = .on ∧ w_slowRateApply.cap.slowWait) ∧
    (w_oneshotDone.power = .on ∧ w_oneshotDone.on R.CAP_ONESHOT_RES.BUSY) ∧
    (w_doorbellPoll.power = .on ∧ w_doorbellPoll.get R.HIF_CTRL.POLL_US ≠ 0 ∧ w_doorbellPoll.on R.HIF_STATUS.L0 ∧
        w_doorbellPoll.on R.HIF_STATUS.RUNNING ∧ ¬ (w_doorbellPoll.on R.HIF_STATUS.FETCHING)) ∧
    (w_doorbellFetchDone.power = .on ∧ w_doorbellFetchDone.on R.HIF_STATUS.FETCHING) ∧
    (w_fullHeadFetch.power = .on ∧ (w_fullHeadFetch.stream (0 : Fin 8)).heading) ∧
    (w_entryFetchDone.power = .on ∧ ((w_entryFetchDone.hif.fetches.any fun (x : EntryFetch) => x.ring = (0 : Fin 8))) ∧
        ((w_entryFetchDone.hif.fetches.find? fun (x : EntryFetch) => x.ring = (0 : Fin 8)) = some
            ({ ring := 0, first := 0, count := 1 } : EntryFetch))) ∧
    (run.power = .on) ∧
    (run.power = .on) ∧
    (run.power = .on) ∧
    (dma.power = .on ∧ dma.hif.linkUp) ∧
    (dma.power = .on ∧ dma.hif.linkUp) ∧
    (w_linkL1Entry.power = .on ∧ w_linkL1Entry.hif.linkUp ∧ w_linkL1Entry.on R.HIF_STATUS.L0 ∧ ¬ (w_linkL1Entry.on
        R.HIF_STATUS.FETCHING) ∧ w_linkL1Entry.hif.fetches.isEmpty) ∧
    (run.power = .on ∧ run.hif.perst ∧ run.powered) := by
  refine ⟨?_, ?_, ?_, ?_, ?_, ?_, ?_, ?_, ?_, ?_, ?_, ?_, ?_, ?_, ?_, ?_, ?_, ?_⟩ <;> decide +kernel

/-- Every clause of `JackAndFirmwareRows` has a state and operands that meet its hypotheses. -/
theorem witness_JackAndFirmwareRows :
    (w_jackPeriodStart.power = .on ∧ w_jackPeriodStart.get R.WDG_STATUS.STATE = 0) ∧
    (run.power = .on ∧ bitAt (run.get R.GLB_CLK_STATUS.RUN) 3 ∧ run.get R.HIF_STATUS.FW ≠ 3) ∧
    (w_fallbackExpiry.power = .on ∧ w_fallbackExpiry.on R.WDG_FALLBACK.ARMED ∧ w_fallbackExpiry.fw.gap.isNone) ∧
    (w_logEntryWrite.power = .on ∧ w_logEntryWrite.fwRuns ∧ w_logEntryWrite.fw.logQ =
        ({ typ := 7, seq := 1, ts := 0, payload := [] } : Event) :: ([] : List Event)) ∧
    (w_logWriteAbandon.power = .on ∧ w_logWriteAbandon.fwRuns ∧ 2899 < 2900 ∧ w_logWriteAbandon.fw.logQ =
        ({ typ := 7, seq := 1, ts := 0, payload := [] } : Event) :: ([] : List Event)) ∧
    (w_fwActivateWaitTimeout.power = .on ∧ w_fwActivateWaitTimeout.fw.gap.isNone ∧ w_fwActivateWaitTimeout.fw.actWait =
        some 1) ∧
    (w_activationTimeout.power = .on ∧ w_activationTimeout.fw.gap = some
        ({ bank := 1, back := false, handle := none, diag := 0 } : Gap) ∧ ¬
            ({ bank := 1, back := false, handle := none, diag := 0 } : Gap).back) ∧
    (w_probationEnd.power = .on ∧ w_probationEnd.fw.record.trial ∧ w_probationEnd.fw.gap.isNone) ∧
    (w_bootRomVerify.power = .on ∧ w_bootRomVerify.md.boot = .clocked) := by
  refine ⟨?_, ?_, ?_, ?_, ?_, ?_, ?_, ?_, ?_⟩ <;> decide +kernel

/-- Every clause of `TimerMoves` has a state and operands that meet its hypotheses. -/
theorem witness_TimerMoves :
    (run.power = .on) ∧
    (w_ftCompareMatch.power = .on ∧ w_ftCompareMatch.ftRuns (0 : Fin 16) ∧ (w_ftCompareMatch.get (cmpVal (0 : Fin 16)
        (1 : Fin 2))) ≤ (w_ftCompareMatch.get (R.TMR_FT_TOP.TOP (0 : Fin 16))) ∧ w_ftCompareMatch.dirAllowed (0 : Fin
            16) (1 : Fin 2) true ∧ ((w_ftCompareMatch.get (R.TMR_FT_CFG.MODE (0 : Fin 16))) = 2 || true =
                ((w_ftCompareMatch.get (R.TMR_FT_CFG.MODE (0 : Fin 16))) = 0))) ∧
    (w_ftWrap.power = .on ∧ w_ftWrap.ftRuns (15 : Fin 16)) ∧
    (w_ftCaptureEdge.power = .on ∧ ((w_ftCaptureEdge.get (R.TMR_FT_CFG.CAP_EDGE (0 : Fin 16))) = 3 || (if true then
        (w_ftCaptureEdge.get (R.TMR_FT_CFG.CAP_EDGE (0 : Fin 16))) = 1 else (w_ftCaptureEdge.get (R.TMR_FT_CFG.CAP_EDGE
            (0 : Fin 16))) = 2))) ∧
    (w_debugHalt.power = .on ∧ w_debugHalt.on R.SEC_DBG_CTRL.DBG_EN ∧ ¬ w_debugHalt.tmr.halted) ∧
    (w_debugResume.power = .on ∧ w_debugResume.tmr.halted) ∧
    (run.power = .on) := by
  decide +kernel

/-- Every clause of `RegisterWrites` has a state and operands that meet its hypotheses. -/
theorem witness_RegisterWrites :
    (hostUp.power = .on ∧ hostUp.reaches (.host : Initiator)) ∧
    (hostUp.power = .on ∧ hostUp.reaches (.host : Initiator)) ∧
    (run.power = .on ∧ run.reaches (.application : Initiator)) ∧
    (run.power = .on ∧ run.reaches (.application : Initiator)) ∧
    (run.power = .on ∧ run.reaches (.application : Initiator) ∧ getBits (0x40000000 : Word) 30 1 = 1 ∧ getBits
        (0x40000000 : Word) 31 1 = run.get (R.PD_CTRL.DISABLE (0 : Fin 4))) ∧
    (hostUp.power = .on ∧ hostUp.reaches (.host : Initiator)) ∧
    (hostUp.power = .on ∧ hostUp.reaches (.host : Initiator)) ∧
    (hostUp.power = .on ∧ hostUp.reaches (.host : Initiator) ∧ getBits (0x80000000 : Word) (R.HIF_SQ_CFG.EN (0 : Fin
        8)).lo 1 = 1) ∧
    (hostUp.power = .on ∧ hostUp.reaches (.host : Initiator) ∧ getBits (0 : Word) (R.HIF_SQ_CFG.EN (0 : Fin 8)).lo 1 = 0) ∧
    (hostUp.power = .on ∧ hostUp.reaches (.host : Initiator) ∧ getBits (0x80000000 : Word) (R.HIF_CQ_CFG.EN (7 : Fin
        8)).lo 1 = 1) ∧
    (hostUp.power = .on ∧ hostUp.reaches (.host : Initiator) ∧ getBits (0 : Word) (R.HIF_CQ_CFG.EN (0 : Fin 8)).lo 1 = 0) ∧
    (hostUp.power = .on ∧ hostUp.reaches (.host : Initiator) ∧ getBits (0x80000000 : Word) R.HIF_EVQ_CFG.EN.lo 1 = 1) ∧
    (hostUp.power = .on ∧ hostUp.reaches (.host : Initiator) ∧ getBits (0 : Word) R.HIF_EVQ_CFG.EN.lo 1 = 0) ∧
    (run.power = .on ∧ run.reaches (.application : Initiator) ∧ getBits (0x80000000 : Word) 31 1 = 1) ∧
    (run.power = .on ∧ run.reaches (.application : Initiator)) ∧
    (run.power = .on ∧ run.reaches (.application : Initiator)) ∧
    (run.power = .on ∧ run.reaches (.application : Initiator)) ∧
    (run.power = .on ∧ run.reaches (.application : Initiator) ∧ getBits (0x80000000 : Word) 31 1 = 1) ∧
    (run.power = .on ∧ run.reaches (.application : Initiator) ∧ getBits (0 : Word) 31 1 = 0) ∧
    (run.power = .on ∧ run.reaches (.application : Initiator) ∧ getBits (0x40000000 : Word) 30 1 = 1 ∧ getBits
        (0x40000000 : Word) 31 1 = 0) ∧
    (hostUp.power = .on ∧ hostUp.reaches (.host : Initiator)) ∧
    (hostUp.power = .on ∧ hostUp.reaches (.host : Initiator)) ∧
    (run.power = .on ∧ run.reaches (.ec : Initiator)) ∧
    (run.power = .on ∧ run.reaches (.application : Initiator)) ∧
    (run.power = .on ∧ run.reaches (.application : Initiator)) ∧
    (run.power = .on ∧ run.reaches (.application : Initiator) ∧ getBits (0x80000000 : Word) 31 1 = 1 ∧ ¬ (run.on
        (R.TMR_FT_CFG.EN (0 : Fin 16)))) ∧
    (w_ftDisable.power = .on ∧ w_ftDisable.reaches (.application : Initiator) ∧ getBits (0 : Word) 31 1 = 0 ∧
        w_ftDisable.on (R.TMR_FT_CFG.EN (0 : Fin 16))) ∧
    (run.power = .on ∧ run.reaches (.application : Initiator) ∧ getBits (0x4000 : Word) 14 1 = 1 ∧ getBits (0x4000 :
        Word) 31 1 = run.get (R.TMR_FT_CFG.EN (0 : Fin 16))) ∧
    (run.power = .on ∧ run.reaches (.application : Initiator)) ∧
    (run.power = .on ∧ run.reaches (.application : Initiator)) ∧
    (run.power = .on ∧ run.reaches (.application : Initiator)) ∧
    (run.power = .on ∧ run.reaches (.application : Initiator)) := by
  refine ⟨?_, ?_, ?_, ?_, ?_, ?_, ?_, ?_, ?_, ?_, ?_, ?_, ?_, ?_, ?_, ?_, ?_, ?_, ?_, ?_, ?_, ?_, ?_, ?_, ?_, ?_, ?_, ?_, ?_, ?_, ?_, ?_⟩ <;> decide +kernel

/-- Every clause of `RegisterReads` has a state and operands that meet its hypotheses. -/
theorem witness_RegisterReads :
    (run.power = .on ∧ run.reaches (.application : Initiator)) ∧
    (run.power = .on ∧ run.reaches (.application : Initiator)) ∧
    (hostUp.power = .on ∧ hostUp.reaches (.host : Initiator)) ∧
    (hostUp.power = .on ∧ hostUp.reaches (.host : Initiator)) ∧
    (run.power = .on ∧ run.reaches (.application : Initiator)) ∧
    (run.power = .on ∧ run.reaches .application) ∧
    (run.power = .on ∧ (¬ ((List.range 8).any fun (n : Nat) => run.aonFront = some (A.TMR_CMP_HI n)))) ∧
    (w_aonCmpApply.power = .on ∧ w_aonCmpApply.aonFront = some (A.TMR_CMP_HI (7 : Fin 8))) := by
  refine ⟨?_, ?_, ?_, ?_, ?_, ?_, ?_, ?_⟩ <;> decide +kernel

/-- Every clause of `MailboxServices` has a state and operands that meet its hypotheses. -/
theorem witness_MailboxServices :
    (run.power = .on ∧ (run.fwRuns || run.fw.recovery) = true) ∧
    (w_echo.power = .on ∧ w_echo.message = some ({ svc := 1, len := 1, tag := 7, pay := [9] } : MbxMsg) ∧
        w_echo.mayTake ∧ w_echo.offered 0x01 ∧ ({ svc := 1, len := 1, tag := 7, pay := [9] } : MbxMsg).svc = 0x01 ∧
            ({ svc := 1, len := 1, tag := 7, pay := [9] } : MbxMsg).len ≤ 15) ∧
    (w_fwInfo.power = .on ∧ w_fwInfo.message = some ({ svc := 16, len := 0, tag := 7, pay := [] } : MbxMsg) ∧
        w_fwInfo.mayTake ∧ w_fwInfo.offered 0x10 ∧ ({ svc := 16, len := 0, tag := 7, pay := [] } : MbxMsg).svc = 0x10 ∧
            ({ svc := 16, len := 0, tag := 7, pay := [] } : MbxMsg).len = 0) ∧
    (w_logEntry.power = .on ∧ w_logEntry.message = some ({ svc := 17, len := 2, tag := 7, pay := [4, 1] } : MbxMsg) ∧
        w_logEntry.mayTake ∧ w_logEntry.offered 0x11 ∧ ({ svc := 17, len := 2, tag := 7, pay := [4, 1] } : MbxMsg).svc
            = 0x11 ∧ ({ svc := 17, len := 2, tag := 7, pay := [4, 1] } : MbxMsg).len = 2 ∧ ((w_logEntry.fw.log.find?
                fun (x : LogEntry) => x.lseq = (({ svc := 17, len := 2, tag := 7, pay := [4, 1] } : MbxMsg).pay.getD 0
                    0).toNat) = some log4) ∧ (({ svc := 17, len := 2, tag := 7, pay := [4, 1] } : MbxMsg).pay.getD 1
                        0).toNat ≤ 1) ∧
    (w_dbgUnlock.power = .on ∧ w_dbgUnlock.message = some
        ({ svc := 18, len := 13, tag := 7, pay := List.replicate 13 0 } : MbxMsg) ∧ w_dbgUnlock.mayTake ∧
            w_dbgUnlock.offered 0x12 ∧ ({ svc := 18, len := 13, tag := 7, pay := List.replicate 13 0 } : MbxMsg).svc =
                0x12 ∧ ({ svc := 18, len := 13, tag := 7, pay := List.replicate 13 0 } : MbxMsg).len = 13 ∧
                    (({ svc := 18, len := 13, tag := 7, pay := List.replicate 13 0 } : MbxMsg).pay.getD 0 0).toNat ≤ 1) ∧
    (w_dbgLock.power = .on ∧ w_dbgLock.message = some ({ svc := 19, len := 0, tag := 7, pay := [] } : MbxMsg) ∧
        w_dbgLock.mayTake ∧ w_dbgLock.offered 0x13 ∧ ({ svc := 19, len := 0, tag := 7, pay := [] } : MbxMsg).svc = 0x13
            ∧ ({ svc := 19, len := 0, tag := 7, pay := [] } : MbxMsg).len = 0) ∧
    (w_recoverWrite.power = .on ∧ w_recoverWrite.message = some
        ({ svc := 48, len := 15, tag := 7, pay := List.replicate 15 0 } : MbxMsg) ∧ w_recoverWrite.mayTake ∧
            w_recoverWrite.offered 0x30 ∧ ({ svc := 48, len := 15, tag := 7, pay := List.replicate 15 0 } : MbxMsg).svc
                = 0x30 ∧ ({ svc := 48, len := 15, tag := 7, pay := List.replicate 15 0 } : MbxMsg).len = 15 ∧
                    w_recoverWrite.fw.recovery ∧ (({ svc := 48, len := 15, tag := 7, pay := List.replicate 15 0 } :
                        MbxMsg).pay.getD 0 0).toNat % 56 = 0 ∧
                            (({ svc := 48, len := 15, tag := 7, pay := List.replicate 15 0 } : MbxMsg).pay.getD 0
                                0).toNat < 786432) ∧
    (w_recoverBoot.power = .on ∧ w_recoverBoot.message = some ({ svc := 49, len := 0, tag := 7, pay := [] } : MbxMsg) ∧
        w_recoverBoot.mayTake ∧ w_recoverBoot.offered 0x31 ∧ ({ svc := 49, len := 0, tag := 7, pay := [] } :
            MbxMsg).svc = 0x31 ∧ ({ svc := 49, len := 0, tag := 7, pay := [] } : MbxMsg).len = 0 ∧
                w_recoverBoot.fw.recovery) := by
  refine ⟨?_, ?_, ?_, ?_, ?_, ?_, ?_, ?_⟩ <;> decide +kernel

/-- Every clause of `TwoWireArp` has a state and operands that meet its hypotheses. -/
theorem witness_TwoWireArp :
    (run.power = .on ∧ run.sysRuns) ∧
    (run.power = .on ∧ run.sysRuns) ∧
    (run.power = .on ∧ run.sysRuns) ∧
    (run.power = .on ∧ run.sysRuns) ∧
    (run.power = .on ∧ run.sysRuns) ∧
    (run.power = .on ∧ run.md.boot = .ready ∧ run.assigns ∧ ¬ (run.on R.TWB_ADDR.EC_ARP) ∧ run.on R.TWB_CFG.ARP_AUTO ∧
        run.sysRuns) ∧
    (w_assignRetry.power = .on ∧ w_assignRetry.mayAssign ∧ w_assignRetry.twb.tries.get (1 : Fin 4) < 3) ∧
    (w_selfAssign.power = .on ∧ w_selfAssign.isFollower ∧ w_selfAssign.md.boot = .ready ∧ ¬ (w_selfAssign.on
        R.TWB_ADDR.AV) ∧ w_selfAssign.get R.CSC_STATUS.STATE ≠ 2 ∧ ¬ (w_selfAssign.on R.TWB_ADDR.EC_ARP)) ∧
    (w_twbKaAddressMatch.power = .on ∧ w_twbKaAddressMatch.inKa ∧ w_twbKaAddressMatch.recognises (0x61 : Fin 128)) ∧
    (run.power = .on) ∧
    (w_alertResponse.power = .on ∧ w_alertResponse.on R.TWB_STATUS.ALERT ∧ w_alertResponse.on R.TWB_ADDR.AV ∧
        w_alertResponse.sysRuns ∧ true) ∧
    (w_hostNotify.power = .on ∧ w_hostNotify.mayNotify ∧ w_hostNotify.twb.notifyTry = 0) ∧
    (w_hostNotifyRetry.power = .on ∧ w_hostNotifyRetry.mayNotify ∧ w_hostNotifyRetry.twb.notifyTry ≠ 0) ∧
    (run.power = .on ∧ run.sysRuns) ∧
    (run.power = .on ∧ run.sysRuns) ∧
    (run.power = .on ∧ run.sysRuns) := by
  refine ⟨?_, ?_, ?_, ?_, ?_, ?_, ?_, ?_, ?_, ?_, ?_, ?_, ?_, ?_, ?_, ?_⟩ <;> decide +kernel

/-- Every clause of `TwoWireCodes` has a state and operands that meet its hypotheses. -/
theorem witness_TwoWireCodes :
    (tw.power = .on ∧ tw.on R.TWB_ADDR.AV ∧ tw.sysRuns ∧ ¬ tw.busyNack) ∧
    (tw.power = .on ∧ tw.on R.TWB_ADDR.AV ∧ tw.sysRuns ∧ ¬ tw.busyNack) ∧
    (tw.power = .on ∧ tw.on R.TWB_ADDR.AV ∧ tw.sysRuns ∧ ((¬ tw.busyNack ∨
        ({ count := 0, data := [1, 0], pec := .good, lost := false } : TwiWrite).lost)) ∧ tw.writeFlaw false 2
            ({ count := 0, data := [1, 0], pec := .good, lost := false } : TwiWrite) = none) ∧
    (tw.power = .on ∧ tw.on R.TWB_ADDR.AV ∧ tw.sysRuns ∧ ¬ tw.busyNack) ∧
    (tw.power = .on ∧ tw.on R.TWB_ADDR.AV ∧ tw.sysRuns ∧ ¬ tw.busyNack) ∧
    (tw.power = .on ∧ tw.on R.TWB_ADDR.AV ∧ tw.sysRuns ∧ ¬ tw.busyNack) ∧
    (tw.power = .on ∧ tw.on R.TWB_ADDR.AV ∧ tw.sysRuns ∧ ((¬ tw.busyNack ∨
        ({ count := 6, data := [8, 4, 0, 0, 0, 0], pec := .good, lost := false } : TwiWrite).lost)) ∧ tw.writeFlaw true
            6 ({ count := 6, data := [8, 4, 0, 0, 0, 0], pec := .good, lost := false } : TwiWrite) = none) ∧
    (tw.power = .on ∧ tw.on R.TWB_ADDR.AV ∧ tw.sysRuns ∧ ((¬ tw.busyNack ∨
        ({ count := 64, data := List.replicate 64 0, pec := .good, lost := false } : TwiWrite).lost)) ∧ tw.writeFlaw
            true 64 ({ count := 64, data := List.replicate 64 0, pec := .good, lost := false } : TwiWrite) = none) ∧
    (tw.power = .on ∧ tw.on R.TWB_ADDR.AV ∧ tw.sysRuns ∧ ¬ tw.busyNack) ∧
    (tw.power = .on ∧ tw.on R.TWB_ADDR.AV ∧ tw.sysRuns ∧ ((¬ tw.busyNack ∨
        ({ count := 0, data := [], pec := .good, lost := false } : TwiWrite).lost)) ∧ tw.writeFlaw false 0
            ({ count := 0, data := [], pec := .good, lost := false } : TwiWrite) = none) ∧
    (tw.power = .on ∧ tw.on R.TWB_ADDR.AV ∧ tw.sysRuns ∧ ¬ tw.busyNack) ∧
    (tw.power = .on ∧ tw.on R.TWB_ADDR.AV ∧ tw.sysRuns ∧ ¬ tw.busyNack) ∧
    (tw.power = .on ∧ tw.on R.TWB_ADDR.AV ∧ tw.sysRuns ∧ ¬ tw.busyNack) ∧
    (tw.power = .on ∧ tw.on R.TWB_ADDR.AV ∧ tw.sysRuns ∧ ((¬ tw.busyNack ∨
        ({ count := 4, data := [1, 2, 3, 4], pec := .good, lost := false } : TwiWrite).lost)) ∧ tw.writeFlaw true 4
            ({ count := 4, data := [1, 2, 3, 4], pec := .good, lost := false } : TwiWrite) = none) ∧
    (tw.power = .on ∧ tw.on R.TWB_ADDR.AV ∧ tw.sysRuns ∧ ((¬ tw.busyNack ∨
        ({ count := 0, data := [1], pec := .good, lost := false } : TwiWrite).lost)) ∧ tw.writeFlaw false 1
            ({ count := 0, data := [1], pec := .good, lost := false } : TwiWrite) = none) ∧
    (tw.power = .on ∧ tw.on R.TWB_ADDR.AV ∧ tw.sysRuns ∧ ¬ tw.busyNack) ∧
    (w_compatWrite.power = .on ∧ w_compatWrite.on R.TWB_ADDR.COMPAT ∧ w_compatWrite.sysRuns ∧ ((¬
        w_compatWrite.busyNack ∨ false))) ∧
    (w_compatRead.power = .on ∧ w_compatRead.on R.TWB_ADDR.COMPAT ∧ w_compatRead.sysRuns ∧ ¬ w_compatRead.busyNack) := by
  refine ⟨?_, ?_, ?_, ?_, ?_, ?_, ?_, ?_, ?_, ?_, ?_, ?_, ?_, ?_, ?_, ?_, ?_, ?_⟩ <;> decide +kernel

/-- Every clause of `CascadeMoves` has a state and operands that meet its hypotheses. -/
theorem witness_CascadeMoves :
    (w_followerRemove.power = .on ∧ w_followerRemove.member (1 : Fin 4) ∧ 3 ≤ (w_followerRemove.peer (1 : Fin
        4)).silent ∧ ¬ w_followerRemove.quietOk) ∧
    (w_followerReadmit.power = .on ∧ w_followerReadmit.get R.CSC_STATUS.STATE = 1 ∧ (1 : Fin 4) ≠ 0 ∧ ¬
        (w_followerReadmit.member (1 : Fin 4)) ∧ 16 ≤ (w_followerReadmit.peer (1 : Fin 4)).good ∧
            (w_followerReadmit.bit R.CSC_CFG.EXPECT (1 : Fin 4) || w_followerReadmit.on R.CSC_STATUS.DISCOVERY) ∧ ¬
                (w_followerReadmit.bit R.CSC_STATUS.EXCLUDED (1 : Fin 4))) ∧
    (w_localFallbackEnter.power = .on ∧ w_localFallbackEnter.isFollower ∧ w_localFallbackEnter.on R.CSC_CFG.LINK_EN ∧
        w_localFallbackEnter.sysRuns ∧ w_localFallbackEnter.md.boot = .ready ∧ ¬ w_localFallbackEnter.quietOk ∧
            (w_localFallbackEnter.get R.CSC_STATUS.STATE = 0 || (w_localFallbackEnter.follows && 3 ≤
                (w_localFallbackEnter.peer 0).silent))) ∧
    (w_localFallbackLeave.power = .on ∧ w_localFallbackLeave.get R.CSC_STATUS.STATE = 3 ∧ ¬
        w_localFallbackLeave.csc.barred ∧ 16 ≤ (w_localFallbackLeave.peer 0).good) ∧
    (w_cscFrameStart.power = .on ∧ w_cscFrameStart.isMaster ∧ w_cscFrameStart.md.boot = .ready ∧
        w_cscFrameStart.sysRuns ∧ ¬ w_cscFrameStart.csc.barred) ∧
    (w_cscDiscoveryEnd.power = .on ∧ w_cscDiscoveryEnd.on R.CSC_STATUS.DISCOVERY) ∧
    (w_cscSlotRx.power = .on ∧ w_cscSlotRx.cscRuns ∧ (1 : Fin 4) ≠ w_cscSlotRx.idx ∧ (w_cscSlotRx.isFollower ||
        w_cscSlotRx.get R.CSC_STATUS.STATE = 1)) ∧
    (w_twoMasters.power = .on ∧ w_twoMasters.isMaster ∧ w_twoMasters.get R.CSC_STATUS.STATE = 1) ∧
    (w_indexClash.power = .on ∧ w_indexClash.get R.CSC_STATUS.STATE = 1 ∧ (3 : Fin 4) ≠ 0 ∧ 3 ≤ (w_indexClash.peer (3 :
        Fin 4)).clash ∧ ¬ (w_indexClash.bit R.CSC_STATUS.EXCLUDED (3 : Fin 4))) ∧
    (w_syncLock.power = .on ∧ w_syncLock.locks ∧ ¬ (w_syncLock.on R.CSC_STATUS.SYNC_LOCK) ∧ w_syncLock.sysRuns) ∧
    (w_syncLost.power = .on ∧ w_syncLost.locks ∧ w_syncLost.on R.CSC_STATUS.SYNC_LOCK) ∧
    (w_parCfgApply.power = .on ∧ w_parCfgApply.csc.parHeld = some (0 : Word)) ∧
    (w_cscSleepEnter.power = .on ∧ w_cscSleepEnter.csc.sleepN = some 3 ∧ 3 ≤ 3) ∧
    (w_cscWakeBurst.power = .on ∧ w_cscWakeBurst.inKa ∧ w_cscWakeBurst.multi) ∧
    (w_cscWakeNoMaster.power = .on ∧ w_cscWakeNoMaster.follows ∧ ¬ w_cscWakeNoMaster.inKa ∧
        w_cscWakeNoMaster.csc.waking ≠ 0) ∧
    (w_tunnelTimeout.power = .on ∧ ((w_tunnelTimeout.csc.queue.find? fun (x : TunReq) => 5 ≤ x.sent.getD 0) = some tun5)) := by
  refine ⟨?_, ?_, ?_, ?_, ?_, ?_, ?_, ?_, ?_, ?_, ?_, ?_, ?_, ?_, ?_, ?_⟩ <;> decide +kernel

/-- Every clause of `ClocksAndBoot` has a state and operands that meet its hypotheses. -/
theorem witness_ClocksAndBoot :
    (run.power = .on ∧ ¬ run.xtalBad) ∧
    (w_xtalFail.power = .on ∧ w_xtalFail.on R.GLB_CLK_STATUS.XTAL_ACTIVE) ∧
    (run.power = .on ∧ bitAt (run.get R.GLB_CLK_STATUS.RUN) 2) ∧
    (w_pllLock.power = .on ∧ w_pllLock.md.boot = .strapped) ∧
    (w_pllUnlock.power = .on ∧ w_pllUnlock.on R.GLB_CLK_STATUS.PLL_LOCK) ∧
    (w_pllLockRetry.power = .on ∧ w_pllLockRetry.on R.GLB_CLK_STATUS.PLL_HOLDOVER ∧ true) ∧
    (w_refclkLoss.power = .on ∧ w_refclkLoss.hif.linkUp ∧ w_refclkLoss.on R.HIF_STATUS.L0) ∧
    (w_strapLatch.power = .on ∧ w_strapLatch.md.boot = .released) ∧
    (w_configImageApply.power = .on ∧ w_configImageApply.md.boot = .running) ∧
    (w_powerStageEnable.power = .on ∧ w_powerStageEnable.md.boot = .configured) ∧
    (w_bar0Ready.power = .on ∧ w_bar0Ready.md.boot = .staged) ∧
    (w_dbAttach.power = .on ∧ w_dbAttach.on R.MOD_MODE_STATUS.DB_START ∧ w_dbAttach.md.dbPort.isNone ∧
        w_dbAttach.pdRuns ∧ w_dbAttach.bit R.MOD_STRAP.DB (0 : Fin 4) ∧ 4000 ≤ w_dbAttach.get (R.PD_VBUS_MEAS.VBUS (0 :
            Fin 4)) ∧ (w_dbAttach.tcState (0 : Fin 4) = 2 || w_dbAttach.tcState (0 : Fin 4) = 3)) ∧
    (w_vsysMinReached.power = .on ∧ (w_vsysMinReached.md.dbHold || w_vsysMinReached.md.lowBoot) ∧
        w_vsysMinReached.anySink ∧ w_vsysMinReached.get R.MOD_VSYS_CFG.VSYS_MIN ≤ 65535) := by
  refine ⟨?_, ?_, ?_, ?_, ?_, ?_, ?_, ?_, ?_, ?_, ?_, ?_, ?_⟩ <;> decide +kernel

/-- Every clause of `ModesAndSafe` has a state and operands that meet its hypotheses. -/
theorem witness_ModesAndSafe :
    (w_modeEvaluate.power = .on ∧ w_modeEvaluate.powered ∧ w_modeEvaluate.on R.CNV_STATUS.STAGE_EN) ∧
    (w_hybDwellExpiry.power = .on ∧ w_hybDwellExpiry.mode = 4 ∧ w_hybDwellExpiry.md.dwell) ∧
    (w_kaEntryDelayExpiry.power = .on ∧ w_kaEntryDelayExpiry.md.entry = .ka ∧ w_kaEntryDelayExpiry.csc.sleepN.isNone) ∧
    (w_kaWake.power = .on) ∧
    (w_kaIdleExpiry.power = .on ∧ w_kaIdleExpiry.md.kaReturn ∧ ¬ w_kaIdleExpiry.isFollower ∧ w_kaIdleExpiry.md.entry =
        .none ∧ w_kaIdleExpiry.kaOk) ∧
    (w_kaScan.power = .on ∧ w_kaScan.inKa ∧ true ∧ w_kaScan.get (R.PD_TC_CFG.ROLE (0 : Fin 4)) ≠ 0 ∧ ¬ (w_kaScan.on
        (R.PD_CTRL.DISABLE (0 : Fin 4)))) ∧
    (w_kaVbatCheck.power = .on ∧ w_kaVbatCheck.inKa) ∧
    (run.power = .on ∧ run.powered ∧ run.get R.MOD_SAFE_CFG.VSYS_OVP < 65535 ∧ ¬ (run.safeHas 3)) ∧
    (run.power = .on ∧ run.powered ∧ (run.pairsOpen 0 || run.pairsOpen 1) ∧ ¬ (run.safeHas 4)) ∧
    (run.power = .on ∧ run.powered ∧ run.bat = batOff ∧ 200 ≤ (-200 : Int).natAbs ∧ ¬ (run.safeHas 5)) := by
  refine ⟨?_, ?_, ?_, ?_, ?_, ?_, ?_, ?_, ?_, ?_⟩ <;> decide +kernel

/-- Every clause of `ShipAndButtons` has a state and operands that meet its hypotheses. -/
theorem witness_ShipAndButtons :
    (w_shipDelayExpiry.power = .on ∧ w_shipDelayExpiry.md.entry = .ship) ∧
    (w_shipRailsOff.power = .on ∧ w_shipRailsOff.md.entry = .shipDown ∧ ¬ w_shipRailsOff.downRuns) ∧
    (w_shipEnter.power = .on ∧ w_shipEnter.md.entry = .shipOff) ∧
    (w_shipAbandon.power = .on ∧ (w_shipAbandon.md.entry = .ship || w_shipAbandon.md.entry = .shipDown ||
        w_shipAbandon.md.entry = .shipOff)) ∧
    (run.power = .on ∧ run.mode = 2 ∧ run.md.boot = .ready) ∧
    (w_packCutoffExpiry.power = .on ∧ w_packCutoffExpiry.mode = 2 ∧ w_packCutoffExpiry.md.packLow ∧ ¬
        w_packCutoffExpiry.anyAttached ∧ w_packCutoffExpiry.md.longPress = 0 ∧ (w_packCutoffExpiry.md.entry = .none ||
            w_packCutoffExpiry.md.entry = .ka)) ∧
    (w_pwrbtnShortPress.power = .on ∧ w_pwrbtnShortPress.md.btnArmed ∧ w_pwrbtnShortPress.md.longPress = 0) ∧
    (run.power = .on) ∧
    (w_longPress.power = .on ∧ w_longPress.md.btnArmed) ∧
    (w_longPressStageOff.power = .on ∧ w_longPressStageOff.md.longPress = 1) ∧
    (w_longPressPor.power = .on ∧ w_longPressPor.md.longPress = 2) := by
  refine ⟨?_, ?_, ?_, ?_, ?_, ?_, ?_, ?_, ?_, ?_, ?_⟩ <;> decide +kernel

/-- Every clause of `BudgetCommands` has a state and operands that meet its hypotheses. -/
theorem witness_BudgetCommands :
    (w_budgetIntent.power = .on ∧ w_budgetIntent.nextCmd = some c_budgetIntent ∧ c_budgetIntent.opcode = 0x10 ∧ (if
        c_budgetIntent.num 4 8 = 0 then w_budgetIntent.ts else c_budgetIntent.num 4 8) ≤ w_budgetIntent.ts + tsSec 60 ∧
            w_budgetIntent.ts < (if c_budgetIntent.num 4 8 = 0 then w_budgetIntent.ts else c_budgetIntent.num 4 8) +
                tsUs (clampTo 10 10000000 (c_budgetIntent.num 12 4)).1 ∧ ¬ w_budgetIntent.noMaster ∧
                    w_budgetIntent.freeSlot = some 0) ∧
    (w_budgetSetPolicy.power = .on ∧ w_budgetSetPolicy.nextCmd = some c_budgetSetPolicy ∧ c_budgetSetPolicy.opcode = 0x12) := by
  decide +kernel

/-- Every clause of `ChargerCommands` has a state and operands that meet its hypotheses. -/
theorem witness_ChargerCommands :
    (w_chargeProfileLoad.power = .on ∧ w_chargeProfileLoad.nextCmd = some c_chargeProfileLoad ∧
        c_chargeProfileLoad.opcode = 0x20 ∧ ¬ bitAt (c_chargeProfileLoad.byte 1) 0) ∧
    (w_chargeStart.power = .on ∧ w_chargeStart.nextCmd = some c_chargeStart ∧ c_chargeStart.opcode = 0x21 ∧
        w_chargeStart.get R.CHG_STATUS.PHASE ≠ 9 ∧ w_chargeStart.get R.CHG_STATUS.PHASE ≠ 0 ∧ w_chargeStart.get
            R.CHG_STATUS.PHASE ≠ 1) ∧
    (w_chargeStop.power = .on ∧ w_chargeStop.nextCmd = some c_chargeStop ∧ c_chargeStop.opcode = 0x22) ∧
    (w_chargeRestartAfterFault.power = .on ∧ w_chargeRestartAfterFault.nextCmd = some c_chargeRestartAfterFault ∧
        c_chargeRestartAfterFault.opcode = 0x23 ∧ w_chargeRestartAfterFault.get R.CHG_STATUS.PHASE = 9 ∧ ¬
            w_chargeRestartAfterFault.on R.CHG_COV_STATUS.LATCH ∧ w_chargeRestartAfterFault.get R.CHG_STATUS.FAULT ≠ 4) ∧
    (w_estimatorRead.power = .on ∧ w_estimatorRead.nextCmd = some c_estimatorRead ∧ c_estimatorRead.opcode = 0x24) ∧
    (w_estimatorReset.power = .on ∧ w_estimatorReset.nextCmd = some c_estimatorReset ∧ c_estimatorReset.opcode = 0x25 ∧
        w_estimatorReset.pmEn) ∧
    (w_inputSelect.power = .on ∧ w_inputSelect.nextCmd = some c_inputSelect ∧ c_inputSelect.opcode = 0x62 ∧
        w_inputSelect.path.inputSel = none ∧ ¬ w_inputSelect.selUnfitted 0 (c_inputSelect.byte 0) ∧ ¬
            w_inputSelect.selUnfitted 1 (c_inputSelect.byte 1) ∧ (((namedPort (c_inputSelect.byte 0)).isSome →
                namedPort (c_inputSelect.byte 0) ≠ namedPort (c_inputSelect.byte 1))) ∧ ¬ w_inputSelect.selWrongPort 0
                    (c_inputSelect.byte 0) ∧ ¬ w_inputSelect.selWrongPort 1 (c_inputSelect.byte 1) ∧ ¬
                        w_inputSelect.selNoPhase 0 (c_inputSelect.byte 0) ∧ ¬ w_inputSelect.selNoPhase 1
                            (c_inputSelect.byte 1) ∧ w_inputSelect.bat ≠ batOff) ∧
    (w_phaseMapSet.power = .on ∧ w_phaseMapSet.nextCmd = some c_phaseMapSet ∧ c_phaseMapSet.opcode = 0x61 ∧
        w_phaseMapSet.stage.mapChange = none ∧ w_phaseMapSet.mapBad c_phaseMapSet = none ∧ ((allPhases.all fun ph =>
            !(w_phaseMapSet.reinstates c_phaseMapSet ph && w_phaseMapSet.reinst ph ≥ 3))) ∧ w_phaseMapSet.mapLeaves
                c_phaseMapSet 0 ∧ w_phaseMapSet.mapLeaves c_phaseMapSet 1 ∧ ¬ w_phaseMapSet.inSafe) ∧
    (w_sensorReinstate.power = .on ∧ w_sensorReinstate.nextCmd = some c_sensorReinstate ∧ c_sensorReinstate.opcode =
        0x82 ∧ ((List.range 8).all (fun n => !(bitAt (c_sensorReinstate.byte 2) n && (w_sensorReinstate.on
            (R.THM_NTC_TEMP.OPEN n) || w_sensorReinstate.on (R.THM_NTC_TEMP.SHORT n)))))) ∧
    (w_selfTest.power = .on ∧ w_selfTest.nextCmd = some c_selfTest ∧ c_selfTest.opcode = 0x83 ∧ c_selfTest.byte 0 ≠ 0 ∧
        ((¬ bitAt (c_selfTest.byte 0) 0 ∨ ¬ (w_selfTest.markStarted c_selfTest.handle).fwBusy))) := by
  refine ⟨?_, ?_, ?_, ?_, ?_, ?_, ?_, ?_, ?_, ?_⟩ <;> decide +kernel

/-- Every clause of `PortCommands` has a state and operands that meet its hypotheses. -/
theorem witness_PortCommands :
    (w_pdSetPortPolicy.power = .on ∧ w_pdSetPortPolicy.nextCmd = some c_pdSetPortPolicy ∧ c_pdSetPortPolicy.opcode =
        0x30 ∧ ((¬ w_pdSetPortPolicy.reevals c_pdSetPortPolicy.port c_pdSetPortPolicy ∨ ¬ w_pdSetPortPolicy.portBusy
            c_pdSetPortPolicy.port))) ∧
    (w_pdSetSourceCaps.power = .on ∧ w_pdSetSourceCaps.nextCmd = some c_pdSetSourceCaps ∧ c_pdSetSourceCaps.opcode =
        0x31 ∧ restNonZero (cmdPdos c_pdSetSourceCaps) (clampTo 1 7 (c_pdSetSourceCaps.byte 1)).1 = none ∧ firstIs5V
            ((cmdPdos c_pdSetSourceCaps).getD 0 0) ∧ srcOrder 0 false ((cmdPdos c_pdSetSourceCaps).take (clampTo 1 7
                (c_pdSetSourceCaps.byte 1)).1)) ∧
    (w_pdSetSinkCaps.power = .on ∧ w_pdSetSinkCaps.nextCmd = some c_pdSetSinkCaps ∧ c_pdSetSinkCaps.opcode = 0x32 ∧ (¬
        (c_pdSetSinkCaps.byte 1 = 0 ∧ c_pdSetSinkCaps.byte 2 = 0)) ∧ restNonZero (cmdPdos c_pdSetSinkCaps) (min (if
            c_pdSetSinkCaps.byte 1 = 0 then 7 else 4) (c_pdSetSinkCaps.byte 2)) = none ∧ ((c_pdSetSinkCaps.byte 1 = 0 →
                firstIs5V ((cmdPdos c_pdSetSinkCaps).getD 0 0) ∧ ((cmdPdos c_pdSetSinkCaps).take (min 7
                    (c_pdSetSinkCaps.byte 2))).all isSpr)) ∧ ((c_pdSetSinkCaps.byte 1 ≠ 0 → ((cmdPdos
                        c_pdSetSinkCaps).take (min 4 (c_pdSetSinkCaps.byte 2))).all isEpr))) ∧
    (w_pdRequest3.power = .on ∧ w_pdRequest3.nextCmd = some c_pdRequest3 ∧ c_pdRequest3.opcode = 0x33 ∧
        c_pdRequest3.byte 1 = 0) ∧
    (w_pdRequest4.power = .on ∧ w_pdRequest4.nextCmd = some c_pdRequest4 ∧ c_pdRequest4.opcode = 0x33 ∧
        c_pdRequest4.byte 1 ≠ 0 ∧ ¬ w_pdRequest4.portBusy c_pdRequest4.port ∧ ((w_pdRequest4.peState c_pdRequest4.port
            = 4 ∨ w_pdRequest4.peState c_pdRequest4.port = 5)) ∧ ((c_pdRequest4.byte 1 ≤ 7 ∨ w_pdRequest4.on
                (R.PD_PE_STATUS.EPR_MODE c_pdRequest4.port))) ∧ c_pdRequest4.byte 1 ≤ 11 ∧ w_pdRequest4.get
                    (R.PD_PARTNER_SRC_PDO.W c_pdRequest4.port (c_pdRequest4.byte 1 - 1)) ≠ 0 ∧ reqVoltOk
                        (w_pdRequest4.get (R.PD_PARTNER_SRC_PDO.W c_pdRequest4.port (c_pdRequest4.byte 1 - 1)))
                            (c_pdRequest4.num 4 2)) ∧
    (w_pdSendMsg.power = .on ∧ w_pdSendMsg.nextCmd = some c_pdSendMsg ∧ c_pdSendMsg.opcode = 0x34 ∧ (¬ (bitAt
        (c_pdSendMsg.byte 2) 1 ∧ c_pdSendMsg.src = .ec)) ∧ (if bitAt (c_pdSendMsg.byte 2) 0 then replyKind
            (c_pdSendMsg.num 4 2) (min 7 (c_pdSendMsg.byte 3)) else hostCmdKind (c_pdSendMsg.num 4 2) (min 7
                (c_pdSendMsg.byte 3))) = some (.dataReset : MsgKind) ∧ w_pdSendMsg.sendRefusal c_pdSendMsg.port (bitAt
                    (c_pdSendMsg.byte 2) 0) = none) ∧
    (w_pdSwapPr.power = .on ∧ w_pdSwapPr.nextCmd = some c_pdSwapPr ∧ c_pdSwapPr.opcode = 0x35 ∧ c_pdSwapPr.byte 1 = 0 ∧
        ¬ w_pdSwapPr.portBusy c_pdSwapPr.port ∧ ¬ w_pdSwapPr.prsRefused c_pdSwapPr.port ∧ ¬ w_pdSwapPr.busMoving
            c_pdSwapPr.port ∧ w_pdSwapPr.maySwap c_pdSwapPr.port) ∧
    (w_pdSwapVconn.power = .on ∧ w_pdSwapVconn.nextCmd = some c_pdSwapVconn ∧ c_pdSwapVconn.opcode = 0x35 ∧
        c_pdSwapVconn.byte 1 = 1 ∧ ¬ w_pdSwapVconn.portBusy c_pdSwapVconn.port ∧ ¬ w_pdSwapVconn.vcsRefused
            c_pdSwapVconn.port ∧ (¬ (w_pdSwapVconn.on (R.PD_PE_STATUS.VCONN_SRC c_pdSwapVconn.port) ∧ (w_pdSwapVconn.tc
                c_pdSwapVconn.port).discover.isSome)) ∧ w_pdSwapVconn.maySwap c_pdSwapVconn.port) ∧
    (w_pdSwapDr.power = .on ∧ w_pdSwapDr.nextCmd = some c_pdSwapDr ∧ c_pdSwapDr.opcode = 0x35 ∧ c_pdSwapDr.byte 1 = 2 ∧
        ¬ w_pdSwapDr.portBusy c_pdSwapDr.port ∧ w_pdSwapDr.on (R.PD_PE_CFG.HOST_DRS c_pdSwapDr.port) ∧ ¬
            w_pdSwapDr.md.standAlone ∧ w_pdSwapDr.maySwap c_pdSwapDr.port) ∧
    (w_pdHardReset.power = .on ∧ w_pdHardReset.nextCmd = some c_pdHardReset ∧ c_pdHardReset.opcode = 0x36 ∧
        ((w_pdHardReset.tcState c_pdHardReset.port = 4 ∨ w_pdHardReset.tcState c_pdHardReset.port = 7)) ∧
            w_pdHardReset.talks c_pdHardReset.port ∧ ¬ w_pdHardReset.supplyOnly c_pdHardReset.port) ∧
    (w_pdPortDisable.power = .on ∧ w_pdPortDisable.nextCmd = some c_pdPortDisable ∧ c_pdPortDisable.opcode = 0x37 ∧ ¬
        w_pdPortDisable.disableIgnored c_pdPortDisable.port (c_pdPortDisable.byte 1 = 1)) := by
  refine ⟨?_, ?_, ?_, ?_, ?_, ?_, ?_, ?_, ?_, ?_, ?_⟩ <;> decide +kernel

/-- Every clause of `RailCommands` has a state and operands that meet its hypotheses. -/
theorem witness_RailCommands :
    (w_railConfig.power = .on ∧ w_railConfig.nextCmd = some c_railConfig ∧ c_railConfig.opcode = 0x50 ∧
        ((w_railConfig.seq.runs.all fun r => !bitAt r.rails c_railConfig.railNo)) ∧ ((w_railConfig.rail
            c_railConfig.railNo = railOff ∨ w_railConfig.rail c_railConfig.railNo = railFault ∨ w_railConfig.rail
                c_railConfig.railNo = railUnused)) ∧ ((c_railConfig.railNo = 3 ∨ c_railConfig.num 12 2 = 0)) ∧ ¬
                    w_railConfig.depsCycle c_railConfig.railNo (c_railConfig.num 2 2)) ∧
    (w_railOn.power = .on ∧ w_railOn.nextCmd = some c_railOn ∧ c_railOn.opcode = 0x51 ∧ ¬ w_railOn.railsBarred ∧
        w_railOn.rail c_railOn.railNo ≠ railUnused ∧ ¬ w_railOn.depMissing c_railOn.railNo) ∧
    (w_railOffCmd.power = .on ∧ w_railOffCmd.nextCmd = some c_railOffCmd ∧ c_railOffCmd.opcode = 0x52 ∧ ¬
        w_railOffCmd.railsBarred) ∧
    (w_seqPlatformOn.power = .on ∧ w_seqPlatformOn.nextCmd = some c_seqPlatformOn ∧ c_seqPlatformOn.opcode = 0x53 ∧ ¬
        w_seqPlatformOn.railsBarred) ∧
    (w_seqPlatformOff.power = .on ∧ w_seqPlatformOff.nextCmd = some c_seqPlatformOff ∧ c_seqPlatformOff.opcode = 0x54 ∧
        ¬ w_seqPlatformOff.railsBarred) := by
  decide +kernel

/-- Every clause of `CaptureCommands` has a state and operands that meet its hypotheses. -/
theorem witness_CaptureCommands :
    (w_captureConfig.power = .on ∧ w_captureConfig.nextCmd = some c_captureConfig ∧ c_captureConfig.opcode = 0x40 ∧
        ((c_captureConfig.byte 1 = 4 ∨ c_captureConfig.num 6 2 = 0)) ∧ ¬ w_captureConfig.ringOn c_captureConfig.ring ∧
            configBad c_captureConfig = none ∧ w_captureConfig.preTotal - (w_captureConfig.stream
                c_captureConfig.ring).pre + c_captureConfig.byte 10 ≤ 16 ∧ w_captureConfig.rateWith
                    c_captureConfig.ring ((w_captureConfig.stream c_captureConfig.ring).configure c_captureConfig) ≤
                        10240000000) ∧
    (w_captureArm.power = .on ∧ w_captureArm.nextCmd = some c_captureArm ∧ c_captureArm.opcode = 0x41 ∧ (((maskRings
        (c_captureArm.byte 0)).all fun r => w_captureArm.ring r != capDetached && w_captureArm.ring r != capError &&
            (w_captureArm.stream r).conf)) ∧ (((maskRings (c_captureArm.byte 0)).all fun r => w_captureArm.ringOn r ||
                (w_captureArm.stream r).mode != 0 || (w_captureArm.stream r).pre + (w_captureArm.stream r).len ≤
                    w_captureArm.capFree r)) ∧ ((bitAt (c_captureArm.byte 1) 0 ∨ (maskRings (c_captureArm.byte 0)).all
                        fun r => !w_captureArm.ringOn r))) ∧
    (w_captureStop.power = .on ∧ w_captureStop.nextCmd = some c_captureStop ∧ c_captureStop.opcode = 0x42) ∧
    (w_captureRingAttach.power = .on ∧ w_captureRingAttach.nextCmd = some c_captureRingAttach ∧
        c_captureRingAttach.opcode = 0x43 ∧ ¬ bitAt (c_captureRingAttach.byte 1) 0 ∧ ¬ w_captureRingAttach.ringOn
            c_captureRingAttach.ring ∧ w_captureRingAttach.on R.HIF_CTRL.ENABLE ∧ c_captureRingAttach.num 4 8 ≠ 0 ∧
                c_captureRingAttach.num 4 8 % 4096 = 0 ∧ c_captureRingAttach.num 12 4 ≠ 0 ∧ c_captureRingAttach.num 12
                    4 ≤ 1048576 ∧ w_captureRingAttach.sizeWith c_captureRingAttach.ring (c_captureRingAttach.num 12 4)
                        ≤ 4194304) ∧
    (w_captureRingDetach.power = .on ∧ w_captureRingDetach.nextCmd = some c_captureRingDetach ∧
        c_captureRingDetach.opcode = 0x43 ∧ bitAt (c_captureRingDetach.byte 1) 0 ∧ ¬ w_captureRingDetach.ringOn
            c_captureRingDetach.ring ∧ w_captureRingDetach.on R.HIF_CTRL.ENABLE ∧ c_captureRingDetach.num 4 8 = 0 ∧
                c_captureRingDetach.num 12 4 = 0) := by
  decide +kernel

/-- Every clause of `HostCommands` has a state and operands that meet its hypotheses. -/
theorem witness_HostCommands :
    (w_nop.power = .on ∧ w_nop.nextCmd = some c_nop ∧ c_nop.opcode = 0x00) ∧
    (w_getStatusBlock.power = .on ∧ w_getStatusBlock.nextCmd = some c_getStatusBlock ∧ c_getStatusBlock.opcode = 0x03) ∧
    (w_setEventMask.power = .on ∧ w_setEventMask.nextCmd = some c_setEventMask ∧ c_setEventMask.opcode = 0x04) ∧
    (w_setParam.power = .on ∧ w_setParam.nextCmd = some c_setParam ∧ c_setParam.opcode = 0x01 ∧ RegMap.mapped
        (c_setParam.num 0 2) ∧ c_setParam.num 0 2 % 4 = 0 ∧ BitVec.ofNat 32 (c_setParam.num 8 4) ≠ 0) ∧
    (w_getParam.power = .on ∧ w_getParam.nextCmd = some c_getParam ∧ c_getParam.opcode = 0x02 ∧ w_getParam.refusal
        .application (c_getParam.num 0 2) false true = none) ∧
    (w_modeRequestKeepAlive.power = .on ∧ w_modeRequestKeepAlive.nextCmd = some c_modeRequestKeepAlive ∧
        c_modeRequestKeepAlive.opcode = 0x60 ∧ c_modeRequestKeepAlive.byte 0 = 1 ∧ w_modeRequestKeepAlive.md.longPress
            = 0 ∧ w_modeRequestKeepAlive.md.entry = .none ∧ ¬ w_modeRequestKeepAlive.isFollower ∧
                w_modeRequestKeepAlive.mode = 2 ∧ (w_modeRequestKeepAlive.markStarted c_modeRequestKeepAlive.handle).kaOk) ∧
    (w_modeRequestShip.power = .on ∧ w_modeRequestShip.nextCmd = some c_modeRequestShip ∧ c_modeRequestShip.opcode =
        0x60 ∧ c_modeRequestShip.byte 0 = 2 ∧ w_modeRequestShip.md.longPress = 0 ∧ w_modeRequestShip.md.entry = .none ∧
            w_modeRequestShip.mode = 2 ∧ ¬ w_modeRequestShip.anyAttached) ∧
    (w_modeRequestClearSafe.power = .on ∧ w_modeRequestClearSafe.nextCmd = some c_modeRequestClearSafe ∧
        c_modeRequestClearSafe.opcode = 0x60 ∧ c_modeRequestClearSafe.byte 0 = 3 ∧ w_modeRequestClearSafe.md.longPress
            = 0 ∧ w_modeRequestClearSafe.inSafe ∧ ¬ w_modeRequestClearSafe.safeStays 0 true true) ∧
    (w_cascadeStatus.power = .on ∧ w_cascadeStatus.nextCmd = some c_cascadeStatus ∧ c_cascadeStatus.opcode = 0x90) ∧
    (w_cascadeRemoteRead.power = .on ∧ w_cascadeRemoteRead.nextCmd = some c_cascadeRemoteRead ∧
        c_cascadeRemoteRead.opcode = 0x91 ∧ c_cascadeRemoteRead.byte 1 = 0 ∧ remoteBad c_cascadeRemoteRead = none ∧
            (Fin.ofNat 4 (c_cascadeRemoteRead.byte 0)) ≠ w_cascadeRemoteRead.idx ∧ w_cascadeRemoteRead.reachable
                (Fin.ofNat 4 (c_cascadeRemoteRead.byte 0)) ∧ w_cascadeRemoteRead.csc.queue.length < 8) ∧
    (w_cascadeRemoteWrite.power = .on ∧ w_cascadeRemoteWrite.nextCmd = some c_cascadeRemoteWrite ∧
        c_cascadeRemoteWrite.opcode = 0x91 ∧ c_cascadeRemoteWrite.byte 1 = 1 ∧ remoteBad c_cascadeRemoteWrite = none ∧
            (Fin.ofNat 4 (c_cascadeRemoteWrite.byte 0)) ≠ w_cascadeRemoteWrite.idx ∧ w_cascadeRemoteWrite.reachable
                (Fin.ofNat 4 (c_cascadeRemoteWrite.byte 0)) ∧ w_cascadeRemoteWrite.csc.queue.length < 8) := by
  refine ⟨?_, ?_, ?_, ?_, ?_, ?_, ?_, ?_, ?_, ?_, ?_⟩ <;> decide +kernel

/-- Every clause of `FirmwareCommands` has a state and operands that meet its hypotheses. -/
theorem witness_FirmwareCommands :
    (w_logRead.power = .on ∧ w_logRead.nextCmd = some c_logRead ∧ c_logRead.opcode = 0x80) ∧
    (w_logClear.power = .on ∧ w_logClear.nextCmd = some c_logClear ∧ c_logClear.opcode = 0x81 ∧ c_logClear.num 0 2 =
        0x4C43) ∧
    (w_fwStage.power = .on ∧ w_fwStage.nextCmd = some c_fwStage ∧ c_fwStage.opcode = 0x70 ∧ (clampTo 4 65536
        (c_fwStage.num 8 4)).1 % 4 = 0 ∧ c_fwStage.num 12 8 % 4 = 0 ∧ ¬ (w_fwStage.markStarted
            c_fwStage.handle).activating ∧ ¬ w_fwStage.fw.record.trial ∧ (if bitAt (c_fwStage.byte 0) 0 then
                c_fwStage.num 4 4 = 0 else w_fwStage.fw.staged = some (c_fwStage.num 4 4)) ∧ c_fwStage.num 4 4 +
                    (clampTo 4 65536 (c_fwStage.num 8 4)).1 ≤ 786432 ∧ true = true ∧ true = true ∧ ¬ bitAt
                        (c_fwStage.byte 0) 1) ∧
    (w_fwActivate.power = .on ∧ w_fwActivate.nextCmd = some c_fwActivate ∧ c_fwActivate.opcode = 0x71 ∧ w_fwActivate.on
        R.SEC_FW_STATUS.STAGED ∧ ¬ (w_fwActivate.markStarted c_fwActivate.handle).activating) ∧
    (w_fwAbort.power = .on ∧ w_fwAbort.nextCmd = some c_fwAbort ∧ c_fwAbort.opcode = 0x72 ∧ w_fwAbort.fw.record.trial =
        false ∧ w_fwAbort.fw.staged.isSome ∧ w_fwAbort.fw.actWait = none) ∧
    (w_configCommitImage.power = .on ∧ w_configCommitImage.nextCmd = some c_configCommitImage ∧
        c_configCommitImage.opcode = 0x73 ∧ c_configCommitImage.byte 0 = 1 ∧ c_configCommitImage.src ≠ .ec ∧ ¬
            (w_configCommitImage.markStarted c_configCommitImage.handle).activating ∧ true = true ∧ true = true ∧
                parseImage (goodImage.take (c_configCommitImage.num 12 4)) = some ([] : List CfgRecord)) ∧
    (w_configCommitSwap.power = .on ∧ w_configCommitSwap.nextCmd = some c_configCommitSwap ∧ c_configCommitSwap.opcode
        = 0x73 ∧ c_configCommitSwap.byte 0 ≠ 1 ∧ c_configCommitSwap.num 4 8 = 0 ∧ c_configCommitSwap.num 12 4 = 0 ∧ ¬
            (w_configCommitSwap.markStarted c_configCommitSwap.handle).activating ∧ (w_configCommitSwap.cfgSlot (1 -
                w_configCommitSwap.fw.record.slot)).valid ∧ true = true) := by
  decide +kernel

end Sys2Proof.Tests
end

section
/-! The power button after AON power-on reset (R43): which of the two edges of the reset touches `btnArmed`, and what the
button commands do with it. -/

namespace Sys2Proof.Machine

/-- Every assertion of AON power-on reset leaves the button unarmed. -/
@[simp] theorem State.porReset_btnArmed (s : State) : s.porReset.md.btnArmed = false := by
  rw [State.porReset_md]

/-- The release of AON power-on reset does not arm the button. -/
@[simp] theorem State.porRelease_btnArmed (s : State) (vbat : Nat) (vbus : List Nat) :
    (s.porRelease vbat vbus).md.btnArmed = s.md.btnArmed := by
  rw [State.porRelease_md]

/-- A start by the ship keeper is a reset and its release, so that the press that ends SHIP does not count. -/
@[simp] theorem State.keeperStart_btnArmed (s : State) (cause vbat : Nat) (vbus : List Nat) :
    (s.keeperStart cause vbat vbus).md.btnArmed = false := by
  rw [State.keeperStart, State.porRelease_btnArmed]
  exact s.porReset_btnArmed

/-- Where AON_POR_ASSERT can arise, it is the reset, with the keeper's latch lost where no supply is left. -/
theorem exec_aonPorAssert_eq (s : State) (gone : Bool) (h : s.power = .on ∨ (s.power = .off ∧ gone)) :
    exec (.aonPorAssert gone) s = .next
      { s.porReset with md := { s.porReset.md with keeper := if gone then 0 else s.porReset.md.keeper } } := by
  have guard : (s.power = .on || (s.power = .off && gone)) = true := by simpa using h
  exact congrArg Host.Outcome.next (if_pos guard)

/-- The reset that a long press ends in. -/
theorem exec_longPressPor_eq (s : State) (hon : s.power = .on) (hlp : s.md.longPress = 2) :
    exec .longPressPor s = .next s.porReset :=
  congrArg Host.Outcome.next (State.when_true _ hon (decide_eq_true hlp))

theorem exec_shipExitButton_eq (s : State) (vbat : Nat) (vbus : List Nat) (hoff : s.power = .off) :
    exec (.shipExitButton vbat vbus) s = .next (s.keeperStart 2 vbat vbus) :=
  congrArg Host.Outcome.next (if_pos hoff)

theorem exec_shipExitVbus_eq (s : State) (p : Fin 4) (vbat : Nat) (vbus : List Nat) (hoff : s.power = .off)
    (hdb : s.bit R.MOD_STRAP.DB p) : exec (.shipExitVbus p vbat vbus) s = .next (s.keeperStart 3 vbat vbus) := by
  have guard : (s.power = .off && s.bit R.MOD_STRAP.DB p) = true := by simp [hoff, hdb]
  exact congrArg Host.Outcome.next (if_pos guard)

/-- A supply of 3.10 V lies above the 3.038 V at which the reset ends. -/
theorem exec_aonPorRelease_eq (s : State) (vbat : Nat) (vbus : List Nat) (hpor : s.power = .por)
    (hv : 3100 ≤ highest vbat vbus) : exec (.aonPorRelease vbat vbus) s = .next (s.porRelease vbat vbus) := by
  have h3038 : 3038 ≤ highest vbat vbus := by omega
  have guard : (s.power = .por && (3038 ≤ highest vbat vbus || s.md.keeper = 1)) = true := by simp [hpor, h3038]
  exact congrArg Host.Outcome.next (if_pos guard)

/-- An unarmed button: a short press is not seen. -/
theorem exec_pwrbtnShortPress_unarmed (s : State) (h : s.md.btnArmed = false) : exec .pwrbtnShortPress s = .next s := by
  have guard : (s.md.btnArmed && s.md.longPress = 0) = false := by simp [h]
  calc exec .pwrbtnShortPress s
    _ = .next (s.when (s.md.btnArmed && s.md.longPress = 0) _) := rfl
    _ = .next s := by rw [guard, State.when_false]

/-- An unarmed button: a long press is not seen. -/
theorem exec_longPress_unarmed (s : State) (h : s.md.btnArmed = false) : exec .longPress s = .next s := by
  calc exec .longPress s
    _ = .next (s.when s.md.btnArmed _) := rfl
    _ = .next s := by rw [h, State.when_false]

/-- Ten milliseconds of a high pin arm the button, and that is all they do. -/
theorem exec_pwrbtnArm_eq (s : State) (hon : s.power = .on) :
    exec .pwrbtnArm s = .next { s with md := { s.md with btnArmed := true } } :=
  congrArg Host.Outcome.next (State.when_true _ hon rfl)

/-- Settles O10: each way into AON power-on reset is `porReset`, which clears `btnArmed`; `porRelease` leaves it as it is, and
both presses are guarded by it. -/
theorem powerButtonIgnored : Obligations.PowerButtonIgnored := by
  intro s
  refine ⟨?assert, ?longPress, ?shipButton, ?shipVbus, ?release, ?unarmed, exec_pwrbtnArm_eq s⟩
  case assert =>
    intro gone h
    exact ⟨_, exec_aonPorAssert_eq s gone h, s.porReset_btnArmed⟩
  case longPress =>
    intro hon hlp
    exact ⟨_, exec_longPressPor_eq s hon hlp, s.porReset_btnArmed⟩
  case shipButton =>
    intro vbat vbus hoff
    exact ⟨_, exec_shipExitButton_eq s vbat vbus hoff, s.keeperStart_btnArmed 2 vbat vbus⟩
  case shipVbus =>
    intro p vbat vbus hoff hdb
    exact ⟨_, exec_shipExitVbus_eq s p vbat vbus hoff hdb, s.keeperStart_btnArmed 3 vbat vbus⟩
  case release =>
    intro vbat vbus hpor hv
    exact ⟨_, exec_aonPorRelease_eq s vbat vbus hpor hv, s.porRelease_btnArmed vbat vbus⟩
  case unarmed =>
    intro h
    exact ⟨exec_pwrbtnShortPress_unarmed s h, exec_longPress_unarmed s h⟩

end Sys2Proof.Machine
end

section
/-! The budget's two commands on what the unit already holds: the end of one intent (R154) and the snapshot of the latest
computation (R156). -/

namespace Sys2Proof.Machine

/-! ### BUDGET_CANCEL_INTENT -/

/-- With the AON domain running, the row runs its operation on the command that starts next. -/
theorem exec_budgetCancelIntent_done {s t : State} {c : Cmd} {r : Reply} (hon : s.power = .on) (hc : s.nextCmd = some c)
    (hop : c.opcode = 0x11) (ho : opBudgetCancelIntent c (s.markStarted c.handle) = (.done r, t)) :
    exec .budgetCancelIntent s = .next (t.complete c.handle r) :=
  congrArg Host.Outcome.next <|
    (State.when_true _ hon rfl).trans (State.runCmd_done hc (decide_eq_true hop) ho)

/-- Dropping a handle leaves exactly the intents that have another one. -/
theorem State.dropIntents_handle (s : State) (h : Nat) :
    s.dropIntents (fun i => i.slot + 8 * i.gen = h) =
      { s with bgt := { s.bgt with intents := s.bgt.intents.filter fun i => i.slot + 8 * i.gen ≠ h } } := by
  have hf : (s.bgt.intents.filter fun i => !decide (i.slot + 8 * i.gen = h)) =
      s.bgt.intents.filter fun i => i.slot + 8 * i.gen ≠ h :=
    List.filter_congr fun i _ => decide_not.symm
  rw [State.dropIntents, hf]

/-- A handle that some intent has: the intents with that handle end. -/
theorem opBudgetCancelIntent_of_mem (c : Cmd) (s : State) (h : ∃ i ∈ s.bgt.intents, i.slot + 8 * i.gen = c.num 0 2) :
    opBudgetCancelIntent c s = (ok, s.dropIntents fun i => i.slot + 8 * i.gen = c.num 0 2) :=
  if_pos (by simpa using h)

/-- A handle that no intent has is refused at byte 0. -/
theorem opBudgetCancelIntent_of_notMem (c : Cmd) (s : State) (h : ∀ i ∈ s.bgt.intents, i.slot + 8 * i.gen ≠ c.num 0 2) :
    opBudgetCancelIntent c s = (badField 0, s) :=
  if_neg (by simpa using h)

/-- Settles O12: marking the command as started leaves the intents as they are, and the two cases are those of the
operation's own test. That the intents are those of this unit is the model's choice (log entry 197). -/
theorem budgetCancelIntent : Obligations.BudgetCancelIntent := by
  intro s c hon hc hop
  refine ⟨?held, ?free⟩
  case held =>
    intro h
    rw [exec_budgetCancelIntent_done hon hc hop (opBudgetCancelIntent_of_mem c (s.markStarted c.handle) h),
      State.dropIntents_handle]
    rfl
  case free =>
    intro h
    exact exec_budgetCancelIntent_done hon hc hop (opBudgetCancelIntent_of_notMem c (s.markStarted c.handle) h)

/-! ### BUDGET_QUERY -/

/-- The state in which BUDGET_QUERY completes: the latest computation in the snapshot registers, under the next number. -/
def State.budgetSnapshot (s : State) : State :=
  (((s.setSat R.BGT_SNAP_SUPPLY.P s.bgt.supply).setSat R.BGT_SNAP_DEMAND.P s.bgt.demand).setSat R.BGT_SNAP_SHORT.P
    s.bgt.short).set R.BGT_SNAP_SEQ.SEQ ((s.get R.BGT_SNAP_SEQ.SEQ + 1) % 256)

theorem opBudgetQuery_eq (c : Cmd) (s : State) :
    opBudgetQuery c s =
      (.done { status := 0x00, result := (s.get R.BGT_SNAP_SEQ.SEQ + 1) % 256 }, s.budgetSnapshot) := rfl

/-- With the AON domain running, the command completes over the snapshot with its number. -/
theorem exec_budgetQuery_eq {s : State} {c : Cmd} (hon : s.power = .on) (hc : s.nextCmd = some c) (hop : c.opcode = 0x13) :
    exec .budgetQuery s = .next ((s.markStarted c.handle).budgetSnapshot.complete c.handle
      { status := 0x00, result := (s.get R.BGT_SNAP_SEQ.SEQ + 1) % 256 }) :=
  congrArg Host.Outcome.next <|
    (State.when_true _ hon rfl).trans (State.runCmd_done hc (decide_eq_true hop) (opBudgetQuery_eq c _))

/-- The nearest representable value is the lesser of the quantity and the field's greatest value (R8, log entry 198). -/
theorem satNat_eq_min (width v : Nat) : satNat width v = min v (2 ^ width - 1) := by
  unfold satNat
  split <;> omega

/-- A saturating set of a field whose bits are implemented, as a minimum. -/
theorem State.get_setSat_min {s : State} (h : s.Inv) (f : Fld) (v : Nat) (hf : f.real) :
    (s.setSat f v).get f = min v (2 ^ f.width - 1) :=
  (State.get_setSat_same h f v hf).trans (satNat_eq_min f.width v)

theorem BGT_SNAP_SUPPLY_real : R.BGT_SNAP_SUPPLY.P.real := ⟨by decide, by decide⟩
theorem BGT_SNAP_DEMAND_real : R.BGT_SNAP_DEMAND.P.real := ⟨by decide, by decide⟩
theorem BGT_SNAP_SHORT_real : R.BGT_SNAP_SHORT.P.real := ⟨by decide, by decide⟩
theorem BGT_SNAP_SEQ_real : R.BGT_SNAP_SEQ.SEQ.real := ⟨by decide, by decide⟩

/-- The supply is written first, and the three later writes are of other words. -/
theorem State.budgetSnapshot_supply {s : State} (h : s.Inv) :
    s.budgetSnapshot.get R.BGT_SNAP_SUPPLY.P = min s.bgt.supply (2 ^ 32 - 1) := by
  rw [State.budgetSnapshot, State.get_set_ne _ _ _ _ (by decide), State.get_setSat_ne _ _ _ _ (by decide),
    State.get_setSat_ne _ _ _ _ (by decide), State.get_setSat_min h _ _ BGT_SNAP_SUPPLY_real]

theorem State.budgetSnapshot_demand {s : State} (h : s.Inv) :
    s.budgetSnapshot.get R.BGT_SNAP_DEMAND.P = min s.bgt.demand (2 ^ 32 - 1) := by
  rw [State.budgetSnapshot, State.get_set_ne _ _ _ _ (by decide), State.get_setSat_ne _ _ _ _ (by decide),
    State.get_setSat_min (State.setSat_inv _ _ _ h) _ _ BGT_SNAP_DEMAND_real]

theorem State.budgetSnapshot_short {s : State} (h : s.Inv) :
    s.budgetSnapshot.get R.BGT_SNAP_SHORT.P = min s.bgt.short (2 ^ 32 - 1) := by
  rw [State.budgetSnapshot, State.get_set_ne _ _ _ _ (by decide),
    State.get_setSat_min (State.setSat_inv _ _ _ (State.setSat_inv _ _ _ h)) _ _ BGT_SNAP_SHORT_real]

/-- The number is written last; it fits its field of 8 bits. -/
theorem State.budgetSnapshot_seq {s : State} (h : s.Inv) :
    s.budgetSnapshot.get R.BGT_SNAP_SEQ.SEQ = (s.get R.BGT_SNAP_SEQ.SEQ + 1) % 256 := by
  have hInv : ((((s.setSat R.BGT_SNAP_SUPPLY.P s.bgt.supply).setSat R.BGT_SNAP_DEMAND.P s.bgt.demand)).setSat
      R.BGT_SNAP_SHORT.P s.bgt.short).Inv :=
    State.setSat_inv _ _ _ (State.setSat_inv _ _ _ (State.setSat_inv _ _ _ h))
  rw [State.budgetSnapshot, State.get_set_same hInv _ _ BGT_SNAP_SEQ_real]
  exact Nat.mod_mod _ 256

/-- The snapshot writes four words and no other. -/
theorem State.budgetSnapshot_word_ne (s : State) {a : Nat} (hSupply : a ≠ A.BGT_SNAP_SUPPLY) (hDemand : a ≠ A.BGT_SNAP_DEMAND)
    (hShort : a ≠ A.BGT_SNAP_SHORT) (hSeq : a ≠ A.BGT_SNAP_SEQ) : s.budgetSnapshot.word a = s.word a := by
  calc s.budgetSnapshot.word a
    _ = _ := State.word_set_ne _ _ _ hSeq
    _ = _ := State.word_set_ne _ R.BGT_SNAP_SHORT.P _ hShort
    _ = _ := State.word_set_ne _ R.BGT_SNAP_DEMAND.P _ hDemand
    _ = s.word a := State.word_set_ne _ R.BGT_SNAP_SUPPLY.P _ hSupply

/-- The snapshot writes the register space alone. -/
theorem State.budgetSnapshot_rest (s : State) : { s.budgetSnapshot with regs := s.regs } = s := rfl

/-- Settles O13: marking the command as started leaves the registers and the computation as they are, so that the snapshot
taken of the marked state holds what the command found. -/
theorem budgetQuery : Obligations.BudgetQuery := by
  intro s c hInv hon hc hop
  have hu : (s.markStarted c.handle).Inv := State.markStarted_inv s c.handle hInv
  exact ⟨(s.markStarted c.handle).budgetSnapshot, exec_budgetQuery_eq hon hc hop,
    State.budgetSnapshot_supply hu, State.budgetSnapshot_demand hu, State.budgetSnapshot_short hu,
    State.budgetSnapshot_seq hu, fun _ h1 h2 h3 h4 => State.budgetSnapshot_word_ne _ h1 h2 h3 h4,
    State.budgetSnapshot_rest _⟩

end Sys2Proof.Machine
end

section
/-! The host queues of the mailbox (R401): accesses of a register that only the rules on every register restrict, and what the
two queue registers do with one. -/

namespace Sys2Proof.Machine

/-! ### Registers without rules of their own -/

/-- An access of the register at `a` meets only the rules on every register (R16, R24): the register is public and outside the
AON domain and the MSI-X tables, and no lock, undefined code, limit or held field stops or changes a write of it. -/
structure PlainReg (a : Nat) : Prop where
  address : a < 65536 ∧ a % 4 = 0 ∧ RegMap.mapped a = true
  outsideWdg : a < 0x3C00 ∨ 0x3FFF < a
  notPrivileged : privReg a = false
  notMsix : msixReg a = false
  notAon : aonReg a = false
  anyCode : ∃ d, RegMap.find a = some d ∧ ∀ w, (d.fields.all fun f => f.codeOk w) = true
  unlocked : ∀ s : State, s.rwlLocked a = false
  unlimited : ∀ s : State, s.limitReg a = s
  unheld : ∀ s : State, s.hold a = s

/-- The registers of the host queues are plain. -/
theorem plainReg_hostQueues {a : Nat} (h : a ∈ [A.MBX_H2U_DATA, A.MBX_U2H_DATA, A.MBX_U2H_ACK]) : PlainReg a := by
  simp only [List.mem_cons, List.not_mem_nil, or_false] at h
  rcases h with rfl | rfl | rfl <;> exact
    { address := by decide
      outsideWdg := by decide
      notPrivileged := by decide
      notMsix := by decide
      notAon := by decide
      anyCode := ⟨_, rfl, fun _ => rfl⟩
      unlocked := fun _ => rfl
      unlimited := fun _ => rfl
      unheld := fun _ => rfl }

theorem plainReg_H2U_DATA : PlainReg A.MBX_H2U_DATA := plainReg_hostQueues (by decide)
theorem plainReg_U2H_DATA : PlainReg A.MBX_U2H_DATA := plainReg_hostQueues (by decide)
theorem plainReg_U2H_ACK : PlainReg A.MBX_U2H_ACK := plainReg_hostQueues (by decide)

/-- BAR0 and the other paths name a register by the same address. -/
theorem PlainReg.busAddr_eq {a : Nat} (h : PlainReg a) (i : Initiator) : busAddr i a = a := by
  obtain ⟨hlt, haligned, -⟩ := h.address
  unfold busAddr
  split <;> omega

/-- Nothing refuses a plain register but a debugger without access and a host's partial write. -/
theorem PlainReg.refusal_none {a : Nat} (h : PlainReg a) {s : State} {i : Initiator} {isWrite full : Bool}
    (hdbg : i = .debug → s.on R.SEC_DBG_CTRL.DBG_EN) (hfull : isWrite = true → i = .host → full = true) :
    s.refusal i a isWrite full = none := by
  obtain ⟨-, haligned, hmapped⟩ := h.address
  have hdebug : (i = .debug && !s.on R.SEC_DBG_CTRL.DBG_EN) = false := by simpa using hdbg
  have hpartial : (isWrite && i = .host && !full) = false := by simpa using hfull
  simp [State.refusal, hdebug, hpartial, hmapped, haligned, h.notPrivileged]

/-- A write that nothing refuses is stored, and its effect follows. -/
theorem PlainReg.writeReg_eq {a : Nat} (h : PlainReg a) (s : State) (i : Initiator) (data mask : Word)
    (eff : Word → State → State) :
    ∃ w, (s.writeReg i a data mask eff).2 = eff (s.word a) (s.setWord a w) := by
  obtain ⟨d, hfind, hcodes⟩ := h.anyCode
  refine ⟨d.clampWord (d.merge (s.word a) data mask), ?_⟩
  simp [State.writeReg, hfind, h.notMsix, h.notAon, State.judge, h.unlocked, hcodes, State.putReg, h.unlimited, h.unheld]

/-- A host's whole write. -/
theorem PlainReg.rowWrite_host {a : Nat} (h : PlainReg a) (s : State) (data : Word) (eff : Word → State → State) :
    ∃ w, s.rowWrite .host a data true eff = eff (s.toL0.word a) (s.toL0.setWord a w) := by
  obtain ⟨w, hw⟩ := h.writeReg_eq s.toL0 .host data 0xFFFFFFFF eff
  have hnone : s.toL0.refusal .host a true true = none := h.refusal_none nofun fun _ _ => rfl
  refine ⟨w, ?_⟩
  simpa [State.rowWrite, State.write, h.busAddr_eq, hnone] using hw

/-- Another initiator's write is refused and recorded, or stored with its effect. -/
theorem PlainReg.rowWrite_other {a : Nat} (h : PlainReg a) (s : State) {i : Initiator} (hi : i ≠ .host) (data : Word)
    (full : Bool) (eff : Word → State → State) :
    (∃ c, s.rowWrite i a data full eff = s.recordRefusal i a true c) ∨
      ∃ w, s.rowWrite i a data full eff = eff (s.word a) (s.setWord a w) := by
  cases hrefusal : s.refusal i a true full with
  | some c =>
    refine .inl ⟨c, ?_⟩
    simp [State.rowWrite, State.write, h.busAddr_eq, hi, hrefusal]
  | none =>
    obtain ⟨w, hw⟩ := h.writeReg_eq s i data 0xFFFFFFFF eff
    refine .inr ⟨w, ?_⟩
    simpa [State.rowWrite, State.write, h.busAddr_eq, hi, hrefusal] using hw

/-! ### What an access leaves -/

@[simp] theorem State.toL0_mbx (s : State) : s.toL0.mbx = s.mbx := rfl

/-- A refused access moves the event path and no mailbox. -/
theorem State.recordRefusal_mbx (s : State) (i : Initiator) (a : Nat) (isWrite : Bool) (c : Nat) :
    (s.recordRefusal i a isWrite c).mbx = s.mbx := by
  have hwdg (t : State) : (t.wdgRefused i a isWrite).mbx = t.mbx := by
    unfold State.wdgRefused
    split
    · exact (State.raise_ev _ _ _).rest.mbx
    · rfl
  unfold State.recordRefusal
  rw [hwdg]
  split <;> rfl

/-- Outside the WDG block the record of a refused access is two words. -/
theorem State.recordRefusal_word_ne (s : State) (i : Initiator) {a b : Nat} (isWrite : Bool) (c : Nat)
    (ha : a < 0x3C00 ∨ 0x3FFF < a) (haddr : b ≠ A.GLB_ACC_ERR_ADDR) (hinfo : b ≠ A.GLB_ACC_ERR_INFO) :
    (s.recordRefusal i a isWrite c).word b = s.word b := by
  have hwdg (t : State) : t.wdgRefused i a isWrite = t := by
    refine if_neg fun h => ?_
    simp only [Bool.and_eq_true, decide_eq_true_eq] at h
    omega
  unfold State.recordRefusal
  rw [hwdg]
  split
  · exact State.word_set_ne _ _ _ hinfo
  · simp [State.setb, State.word_set_ne, haddr, hinfo]

/-! ### The two queues -/

theorem State.pushH2u_of_room {s : State} (h : s.mbx.h2u.length < 16) (w : Word) :
    s.pushH2u w = s.setH2u (s.mbx.h2u ++ [w]) := if_pos h

theorem State.pushH2u_of_full {s : State} (h : 16 ≤ s.mbx.h2u.length) (w : Word) :
    s.pushH2u w = s.set R.MBX_H2U_STATUS.H2U_OVF 1 := if_neg (by omega)

/-- USED counts a queue of up to 16 words. -/
theorem State.setH2u_used {s : State} (h : s.Inv) {ws : List Word} (hlen : ws.length ≤ 16) :
    (s.setH2u ws).get R.MBX_H2U_STATUS.USED = ws.length :=
  (State.get_set_same h R.MBX_H2U_STATUS.USED ws.length ⟨by decide, by decide⟩).trans
    (Nat.mod_eq_of_lt (Nat.lt_of_le_of_lt hlen (by decide)))

theorem State.set_H2U_OVF_on {s : State} (h : s.Inv) : (s.set R.MBX_H2U_STATUS.H2U_OVF 1).on R.MBX_H2U_STATUS.H2U_OVF :=
  decide_eq_true (State.get_set_same h R.MBX_H2U_STATUS.H2U_OVF 1 ⟨by decide, by decide⟩)

/-- What another initiator writes to U2H_ACK is put back. -/
theorem State.ackU2h_other (s : State) {i : Initiator} (hi : i ≠ .host) (was data : Word) :
    s.ackU2h i was data = s.setWord A.MBX_U2H_ACK was := if_pos (by simpa using hi)

/-- The register that `was` was read from reads as before, once it is put back over another word. -/
theorem State.word_setWord_restored {s : State} (h : s.Inv) (a : Nat) (w : Word) :
    ((s.setWord a w).setWord a (s.word a)).word a = s.word a :=
  State.word_setWord_clean (s.setWord_inv a w h) a _ (State.word_impl h a)

/-- A read of U2H_DATA answers the oldest word, or 0; the host's removes it. -/
theorem State.readReg_U2H_DATA (s : State) (i : Initiator) :
    s.readReg i A.MBX_U2H_DATA = (s.mbx.u2h.headD 0, if i = .host then s.setU2h s.mbx.u2h.tail else s) := rfl

/-! ### The rows -/

theorem exec_h2uPush_eq {s : State} {i : Initiator} (hon : s.power = .on) (hr : s.reaches i) (data : Word) (full : Bool) :
    exec (.h2uPush i data full) s = .next (s.rowWrite i A.MBX_H2U_DATA data full fun _ s =>
      if i = .host then s.pushH2u data else s) :=
  congrArg Host.Outcome.next (State.when_true _ hon hr)

theorem exec_u2hAckWrite_eq {s : State} {i : Initiator} (hon : s.power = .on) (hr : s.reaches i) (data : Word) (full : Bool) :
    exec (.u2hAckWrite i data full) s = .next (s.rowWrite i A.MBX_U2H_ACK data full fun was s => s.ackU2h i was data) :=
  congrArg Host.Outcome.next (State.when_true _ hon hr)

/-- The host's whole write runs the push after the store, which leaves the queue and the invariant. -/
theorem exec_h2uPush_host {s : State} (hInv : s.Inv) (hon : s.power = .on) (hr : s.reaches .host) (data : Word) :
    ∃ u : State, u.Inv ∧ u.mbx = s.mbx ∧ exec (.h2uPush .host data true) s = .next (u.pushH2u data) := by
  obtain ⟨w, hw⟩ := plainReg_H2U_DATA.rowWrite_host s data fun _ s => s.pushH2u data
  refine ⟨s.toL0.setWord A.MBX_H2U_DATA w, State.setWord_inv _ _ _ (s.toL0_inv hInv), rfl, ?_⟩
  exact (exec_h2uPush_eq hon hr data true).trans (congrArg Host.Outcome.next hw)

/-- Another initiator's write of H2U_DATA stores nothing that the queue or its status shows. -/
theorem exec_h2uPush_other {s : State} {i : Initiator} (hon : s.power = .on) (hr : s.reaches i) (hi : i ≠ .host) (data : Word)
    (full : Bool) :
    ∃ t, exec (.h2uPush i data full) s = .next t ∧ t.mbx = s.mbx ∧
      t.word A.MBX_H2U_STATUS = s.word A.MBX_H2U_STATUS := by
  refine ⟨_, exec_h2uPush_eq hon hr data full, ?_⟩
  obtain ⟨c, hc⟩ | ⟨w, hw⟩ := plainReg_H2U_DATA.rowWrite_other s hi data full fun _ s =>
    if i = .host then s.pushH2u data else s
  · rw [hc]
    exact ⟨s.recordRefusal_mbx _ _ _ _,
      s.recordRefusal_word_ne _ _ _ plainReg_H2U_DATA.outsideWdg (by decide) (by decide)⟩
  · rw [hw, if_neg hi]
    exact ⟨rfl, s.word_setWord_ne _ (by decide)⟩

/-- Another initiator's write of U2H_ACK leaves that register, the status and the queues. -/
theorem exec_u2hAckWrite_other {s : State} {i : Initiator} (hInv : s.Inv) (hon : s.power = .on) (hr : s.reaches i)
    (hi : i ≠ .host) (data : Word) (full : Bool) :
    ∃ t, exec (.u2hAckWrite i data full) s = .next t ∧ t.mbx = s.mbx ∧ t.word A.MBX_U2H_ACK = s.word A.MBX_U2H_ACK ∧
      t.word A.MBX_U2H_STATUS = s.word A.MBX_U2H_STATUS := by
  refine ⟨_, exec_u2hAckWrite_eq hon hr data full, ?_⟩
  obtain ⟨c, hc⟩ | ⟨w, hw⟩ := plainReg_U2H_ACK.rowWrite_other s hi data full fun was s => s.ackU2h i was data
  · have hword {b : Nat} (haddr : b ≠ A.GLB_ACC_ERR_ADDR) (hinfo : b ≠ A.GLB_ACC_ERR_INFO) :=
      s.recordRefusal_word_ne i true c plainReg_U2H_ACK.outsideWdg haddr hinfo
    rw [hc]
    exact ⟨s.recordRefusal_mbx _ _ _ _, hword (by decide) (by decide), hword (by decide) (by decide)⟩
  · rw [hw, State.ackU2h_other _ hi]
    refine ⟨rfl, State.word_setWord_restored hInv _ w, ?_⟩
    rw [State.word_setWord_ne _ _ (by decide), State.word_setWord_ne _ _ (by decide)]

/-- The host's read answers the oldest word and removes it. -/
theorem exec_u2hPop_host {s : State} (hon : s.power = .on) (hr : s.reaches .host) :
    exec (.u2hPop .host) s =
      .next ((s.toL0.setU2h s.mbx.u2h.tail).emit (.regRead .host A.MBX_U2H_DATA (s.mbx.u2h.headD 0))) := by
  have hnone : s.toL0.refusal .host A.MBX_U2H_DATA false true = none := plainReg_U2H_DATA.refusal_none nofun nofun
  have hread : s.read .host A.MBX_U2H_DATA = (s.mbx.u2h.headD 0, s.toL0.setU2h s.mbx.u2h.tail) := by
    simp [State.read, plainReg_U2H_DATA.busAddr_eq, hnone, State.readReg_U2H_DATA]
  refine congrArg Host.Outcome.next ((State.when_true _ hon hr).trans ?_)
  rw [State.rowRead, hread]

/-- Another initiator's read answers the oldest word and removes nothing. -/
theorem exec_u2hPop_other {s : State} {i : Initiator} (hon : s.power = .on) (hr : s.reaches i) (hi : i ≠ .host)
    (hdbg : i = .debug → s.on R.SEC_DBG_CTRL.DBG_EN) :
    exec (.u2hPop i) s = .next (s.emit (.regRead i A.MBX_U2H_DATA (s.mbx.u2h.headD 0))) := by
  have hnone : s.refusal i A.MBX_U2H_DATA false true = none := plainReg_U2H_DATA.refusal_none hdbg nofun
  have hread : s.read i A.MBX_U2H_DATA = (s.mbx.u2h.headD 0, s) := by
    simp [State.read, plainReg_U2H_DATA.busAddr_eq, hi, hnone, State.readReg_U2H_DATA]
  refine congrArg Host.Outcome.next ((State.when_true _ hon hr).trans ?_)
  rw [State.rowRead, hread]

/-- Settles O17: both queue registers are plain, so that an access is refused as any other is or has its own effect, and the
effects distinguish the host from every other initiator. -/
theorem hostMailboxWords : Obligations.HostMailboxWords := by
  intro s ini hInv hon hr
  refine ⟨?otherPush, ?otherAck, ?push, ?overflow, ?pop, ?peek, ?empty⟩
  case otherPush => exact fun data full hi => exec_h2uPush_other hon hr hi data full
  case otherAck => exact fun data full hi => exec_u2hAckWrite_other hInv hon hr hi data full
  case push =>
    rintro data rfl hroom
    obtain ⟨u, hu, hmbx, hexec⟩ := exec_h2uPush_host hInv hon hr data
    rw [← hmbx] at hroom ⊢
    rw [State.pushH2u_of_room hroom] at hexec
    have hlen : (u.mbx.h2u ++ [data]).length = u.mbx.h2u.length + 1 := List.length_append
    exact ⟨_, hexec, rfl, (State.setH2u_used hu (by omega)).trans hlen⟩
  case overflow =>
    rintro data rfl hfull
    obtain ⟨u, hu, hmbx, hexec⟩ := exec_h2uPush_host hInv hon hr data
    rw [← hmbx] at hfull ⊢
    rw [State.pushH2u_of_full hfull] at hexec
    exact ⟨_, hexec, rfl, State.set_H2U_OVF_on hu⟩
  case pop =>
    rintro w ws rfl hq
    refine ⟨_, exec_u2hPop_host hon hr, ?_⟩
    rw [hq]
    exact ⟨rfl, rfl⟩
  case peek =>
    intro w ws hi hdbg hq
    refine ⟨_, exec_u2hPop_other hon hr hi hdbg, hq, ?_⟩
    rw [hq]
    rfl
  case empty =>
    intro hq hdbg
    by_cases hi : ini = .host
    · subst hi
      refine ⟨_, exec_u2hPop_host hon hr, ?_⟩
      rw [hq]
      exact ⟨rfl, rfl⟩
    · refine ⟨_, exec_u2hPop_other hon hr hi hdbg, hq, ?_⟩
      rw [hq]
      rfl

end Sys2Proof.Machine
end

section
/-! What every step keeps and where it stops: the invariant of the register space over the whole dispatch (R435, R441), the
outcomes of `exec`, and the unit without its AON domain (R34, R38, R39). -/

namespace Sys2Proof.Machine

/-! ### One step -/

theorem step_nil {s : State} (h : s.pending = []) : step s = .next s.idle := by
  simp [step, h]

theorem step_cons {s : State} {c : Instr} {rest : List Instr} (h : s.pending = c :: rest) :
    step s = exec c { s with pending := rest } := by
  simp [step, h]

/-- Settles O1: the front of the queue is the case of `step` that runs a command (the queue is log entry 1). -/
theorem stepRunsTheFrontCommand : Obligations.StepRunsTheFrontCommand :=
  fun _ _ _ h => step_cons h

/-- Settles O2: the three cases of `State.idle`. That an idle step passes time is the model's choice (log entry 6). -/
theorem idleOnEmptyQueue : Obligations.IdleOnEmptyQueue := by
  intro s hq
  rw [step_nil hq]
  refine ⟨?locked, ?unlocked, ?unpowered⟩
  case locked =>
    intro hon hfll
    simp only [State.idle, hon, hfll, if_true]
  case unlocked =>
    intro hon hfll
    have hts : (s.ts / 1024 + 1) * 1024 = 1024 * (s.ts / 1024) + 1024 := by omega
    simp [State.idle, hon, hfll, hts]
  case unpowered =>
    intro hoff
    simp only [State.idle, hoff, if_false]

/-! ### The invariant over the dispatch -/

/-- The meaning of every command keeps the canonical form: one law per arm of the dispatch. -/
theorem exec_inv (c : Instr) (s : State) (hs : s.Inv) : OutInv (exec c s) :=
  match c with
  | .registerWrite .. => execRegisterWrite_inv _ _ _ _ s hs
  | .accErrClear .. => execAccErrClear_inv _ s hs
  | .xtalSwitchOver => execXtalSwitchOver_inv s hs
  | .xtalFail => execXtalFail_inv s hs
  | .fllLock => execFllLock_inv s hs
  | .pllLock => execPllLock_inv s hs
  | .pllUnlock => execPllUnlock_inv s hs
  | .pllLockRetry .. => execPllLockRetry_inv _ s hs
  | .refclkLoss => execRefclkLoss_inv s hs
  | .aonWriteCrossed .. => execAonWriteCrossed_inv _ s hs
  | .aonPorAssert .. => execAonPorAssert_inv _ s hs
  | .aonPorRelease .. => execAonPorRelease_inv _ _ s hs
  | .strapLatch .. => execStrapLatch_inv _ s hs
  | .bootRomVerify .. => execBootRomVerify_inv _ _ _ s hs
  | .configImageApply => execConfigImageApply_inv s hs
  | .powerStageEnable => execPowerStageEnable_inv s hs
  | .bar0Ready => execBar0Ready_inv s hs
  | .modeEvaluate .. => execModeEvaluate_inv _ s hs
  | .hybDwellExpiry => execHybDwellExpiry_inv s hs
  | .modeRequestKeepAlive => execModeRequestKeepAlive_inv s hs
  | .modeRequestShip => execModeRequestShip_inv s hs
  | .modeRequestClearSafe .. => execModeRequestClearSafe_inv _ _ _ s hs
  | .kaEntryDelayExpiry => execKaEntryDelayExpiry_inv s hs
  | .kaWake .. => execKaWake_inv _ s hs
  | .kaIdleExpiry => execKaIdleExpiry_inv s hs
  | .shipDelayExpiry => execShipDelayExpiry_inv s hs
  | .shipRailsOff => execShipRailsOff_inv s hs
  | .shipEnter => execShipEnter_inv s hs
  | .shipAbandon .. => execShipAbandon_inv _ s hs
  | .shipExitButton .. => execShipExitButton_inv _ _ s hs
  | .shipExitVbus .. => execShipExitVbus_inv _ _ _ s hs
  | .packLow .. => execPackLow_inv _ s hs
  | .packCutoffExpiry .. => execPackCutoffExpiry_inv _ s hs
  | .kaVbatCheck .. => execKaVbatCheck_inv _ s hs
  | .vsysOvpTrip .. => execVsysOvpTrip_inv _ s hs
  | .pairStuckOn => execPairStuckOn_inv s hs
  | .batfetStuckOn .. => execBatfetStuckOn_inv _ s hs
  | .dbAttach .. => execDbAttach_inv _ _ _ s hs
  | .vsysMinReached .. => execVsysMinReached_inv _ s hs
  | .pwrbtnShortPress => execPwrbtnShortPress_inv s hs
  | .pwrbtnArm => execPwrbtnArm_inv s hs
  | .longPress => execLongPress_inv s hs
  | .longPressStageOff => execLongPressStageOff_inv s hs
  | .longPressPor => execLongPressPor_inv s hs
  | .bootstrapPrechargeDone .. => execBootstrapPrechargeDone_inv _ s hs
  | .bootstrapRefresh .. => execBootstrapRefresh_inv _ s hs
  | .drvLvlApply .. => execDrvLvlApply_inv _ s hs
  | .halfPeriodWrite .. => execHalfPeriodWrite_inv _ _ _ _ s hs
  | .delayLineCalibrate => execDelayLineCalibrate_inv s hs
  | .phaseValley .. => execPhaseValley_inv _ _ s hs
  | .groupRefValley .. => execGroupRefValley_inv _ _ s hs
  | .dirRampHandover .. => execDirRampHandover_inv _ s hs
  | .phaseShed .. => execPhaseShed_inv _ s hs
  | .phaseMapSet => execPhaseMapSet_inv s hs
  | .phaseMapSetDone => execPhaseMapSetDone_inv s hs
  | .phaseCycleLimit .. => execPhaseCycleLimit_inv _ s hs
  | .phaseOvercurrent .. => execPhaseOvercurrent_inv _ s hs
  | .phaseHardOvercurrent .. => execPhaseHardOvercurrent_inv _ s hs
  | .phaseDriverUv .. => execPhaseDriverUv_inv _ s hs
  | .phaseSwNodeFault .. => execPhaseSwNodeFault_inv _ s hs
  | .phaseSenseMismatch .. => execPhaseSenseMismatch_inv _ s hs
  | .phaseSlopeFault .. => execPhaseSlopeFault_inv _ s hs
  | .phaseCmFault .. => execPhaseCmFault_inv _ s hs
  | .phaseSelfCheckDone .. => execPhaseSelfCheckDone_inv _ _ s hs
  | .vdrvUv => execVdrvUv_inv s hs
  | .vdrvRecover => execVdrvRecover_inv s hs
  | .pairTurnOnDone .. => execPairTurnOnDone_inv _ s hs
  | .busMoveRampDone .. => execBusMoveRampDone_inv _ _ _ s hs
  | .busMoveBusSettled .. => execBusMoveBusSettled_inv _ s hs
  | .inputSelect => execInputSelect_inv s hs
  | .vExpSettle .. => execVExpSettle_inv _ s hs
  | .batfetToSwitch .. => execBatfetToSwitch_inv _ s hs
  | .batfetToLinear .. => execBatfetToLinear_inv _ s hs
  | .batfetFastOn => execBatfetFastOn_inv s hs
  | .batfetReverseOff => execBatfetReverseOff_inv s hs
  | .batfetLinearResume => execBatfetLinearResume_inv s hs
  | .sinkDrop .. => execSinkDrop_inv _ _ s hs
  | .sinkOvp .. => execSinkOvp_inv _ _ s hs
  | .sinkOvpReclose .. => execSinkOvpReclose_inv _ s hs
  | .sinkReverse .. => execSinkReverse_inv _ _ s hs
  | .sinkRevReconnect .. => execSinkRevReconnect_inv _ s hs
  | .sourceBusReady .. => execSourceBusReady_inv _ s hs
  | .sourceOverload .. => execSourceOverload_inv _ s hs
  | .sourceShort .. => execSourceShort_inv _ s hs
  | .sourceReverse .. => execSourceReverse_inv _ s hs
  | .tapDetect => execTapDetect_inv s hs
  | .tapFault => execTapFault_inv s hs
  | .packNtcOpen => execPackNtcOpen_inv s hs
  | .packProbeIdleStart .. => execPackProbeIdleStart_inv _ s hs
  | .packProbeDone .. => execPackProbeDone_inv _ s hs
  | .packAbsentPoll .. => execPackAbsentPoll_inv _ s hs
  | .packInsert .. => execPackInsert_inv _ _ s hs
  | .packInsertConnect .. => execPackInsertConnect_inv _ _ s hs
  | .chargerEval .. => execChargerEval_inv _ s hs
  | .chgTrickleToPrecharge => execChgTrickleToPrecharge_inv s hs
  | .chgPrechargeToCc => execChgPrechargeToCc_inv s hs
  | .chgCcToPrecharge => execChgCcToPrecharge_inv s hs
  | .chgStepAdvance => execChgStepAdvance_inv s hs
  | .chgCcToCv => execChgCcToCv_inv s hs
  | .chgTerminate => execChgTerminate_inv s hs
  | .chgRecharge => execChgRecharge_inv s hs
  | .chgNoInputEnd => execChgNoInputEnd_inv s hs
  | .cellOvTrip .. => execCellOvTrip_inv _ s hs
  | .cellOvClear => execCellOvClear_inv s hs
  | .fastTimerExpiry => execFastTimerExpiry_inv s hs
  | .preTimerExpiry => execPreTimerExpiry_inv s hs
  | .chgOvercurrent => execChgOvercurrent_inv s hs
  | .packOvSuspend .. => execPackOvSuspend_inv _ s hs
  | .packOvClear .. => execPackOvClear_inv _ s hs
  | .prbsStep => execPrbsStep_inv s hs
  | .estimatorUpdate .. => execEstimatorUpdate_inv _ s hs
  | .chargeProfileLoad => execChargeProfileLoad_inv s hs
  | .chargeStart => execChargeStart_inv s hs
  | .chargeStop => execChargeStop_inv s hs
  | .chargeRestartAfterFault => execChargeRestartAfterFault_inv s hs
  | .estimatorRead => execEstimatorRead_inv s hs
  | .estimatorReset => execEstimatorReset_inv s hs
  | .puppeteerCompute .. => execPuppeteerCompute_inv _ s hs
  | .ovlGrantEnd .. => execOvlGrantEnd_inv _ _ s hs
  | .ovlWindowEnd .. => execOvlWindowEnd_inv _ s hs
  | .localArbiterEval .. => execLocalArbiterEval_inv _ s hs
  | .localArbiterPmaxUpdate => execLocalArbiterPmaxUpdate_inv s hs
  | .chgShedDeadline .. => execChgShedDeadline_inv _ s hs
  | .shedTExpiry .. => execShedTExpiry_inv _ s hs
  | .shedHardReset .. => execShedHardReset_inv _ s hs
  | .sourceRestore .. => execSourceRestore_inv _ s hs
  | .throtDeassert => execThrotDeassert_inv s hs
  | .intentActivate .. => execIntentActivate_inv _ s hs
  | .intentExpire .. => execIntentExpire_inv _ s hs
  | .followerRemove .. => execFollowerRemove_inv _ s hs
  | .localFallbackEnter => execLocalFallbackEnter_inv s hs
  | .budgetIntent => execBudgetIntent_inv s hs
  | .budgetCancelIntent => execBudgetCancelIntent_inv s hs
  | .budgetSetPolicy => execBudgetSetPolicy_inv s hs
  | .budgetQuery => execBudgetQuery_inv s hs
  | .ccRpDetect .. => execCcRpDetect_inv _ _ _ _ _ s hs
  | .sinkAttach .. => execSinkAttach_inv _ _ s hs
  | .sourceAttach .. => execSourceAttach_inv _ _ s hs
  | .rpChange .. => execRpChange_inv _ _ s hs
  | .sinkDetach .. => execSinkDetach_inv _ _ s hs
  | .sourceDetach .. => execSourceDetach_inv _ s hs
  | .accessoryAttach .. => execAccessoryAttach_inv _ _ _ _ s hs
  | .accessoryDetach .. => execAccessoryDetach_inv _ s hs
  | .drpToggle .. => execDrpToggle_inv _ s hs
  | .tryTimeout .. => execTryTimeout_inv _ s hs
  | .errorRecoveryEnd .. => execErrorRecoveryEnd_inv _ s hs
  | .kaScan .. => execKaScan_inv _ _ s hs
  | .rpLevelRaise .. => execRpLevelRaise_inv _ s hs
  | .vconnOcp .. => execVconnOcp_inv _ s hs
  | .vconnReverse .. => execVconnReverse_inv _ s hs
  | .vbusDischargeDone .. => execVbusDischargeDone_inv _ _ s hs
  | .moistScan .. => execMoistScan_inv _ s hs
  | .moistTestDone .. => execMoistTestDone_inv _ _ _ s hs
  | .moistRetest .. => execMoistRetest_inv _ s hs
  | .moistTestAbort .. => execMoistTestAbort_inv _ s hs
  | .pdTxRetry .. => execPdTxRetry_inv _ s hs
  | .chunkTimeout .. => execChunkTimeout_inv _ s hs
  | .discoverIdentityRetry .. => execDiscoverIdentityRetry_inv _ s hs
  | .bistRx .. => execBistRx_inv _ _ _ s hs
  | .bistCarrierEnd .. => execBistCarrierEnd_inv _ s hs
  | .hardResetRx .. => execHardResetRx_inv _ s hs
  | .softResetRx .. => execSoftResetRx_inv _ s hs
  | .srcCapsRx .. => execSrcCapsRx_inv _ _ _ _ _ s hs
  | .acceptRx .. => execAcceptRx_inv _ s hs
  | .psRdyRxSink .. => execPsRdyRxSink_inv _ s hs
  | .rejectRx .. => execRejectRx_inv _ s hs
  | .waitRx .. => execWaitRx_inv _ s hs
  | .sinkRequestRetry .. => execSinkRequestRetry_inv _ s hs
  | .senderResponseTimeout .. => execSenderResponseTimeout_inv _ s hs
  | .psTransitionTimeout .. => execPsTransitionTimeout_inv _ s hs
  | .sinkWaitCapTimeout .. => execSinkWaitCapTimeout_inv _ s hs
  | .ppsKeepalive .. => execPpsKeepalive_inv _ s hs
  | .eprEntryStart .. => execEprEntryStart_inv _ s hs
  | .eprModeRx .. => execEprModeRx_inv _ _ s hs
  | .eprEnterTimeout .. => execEprEnterTimeout_inv _ s hs
  | .eprKeepalive .. => execEprKeepalive_inv _ s hs
  | .sourceCapsSend .. => execSourceCapsSend_inv _ s hs
  | .requestRx .. => execRequestRx_inv _ _ _ s hs
  | .srcTransitionStart .. => execSrcTransitionStart_inv _ s hs
  | .srcPsRdy .. => execSrcPsRdy_inv _ _ s hs
  | .ppsSourceTimeout .. => execPpsSourceTimeout_inv _ s hs
  | .sinkTxOk .. => execSinkTxOk_inv _ s hs
  | .sinkTxWaitDrop .. => execSinkTxWaitDrop_inv _ s hs
  | .prSwapRx .. => execPrSwapRx_inv _ s hs
  | .prSwapSourceOff .. => execPrSwapSourceOff_inv _ s hs
  | .prSwapVbusLow .. => execPrSwapVbusLow_inv _ _ s hs
  | .psRdyRxSwap .. => execPsRdyRxSwap_inv _ s hs
  | .swapPsRdyTimeout .. => execSwapPsRdyTimeout_inv _ s hs
  | .vconnSwapRx .. => execVconnSwapRx_inv _ s hs
  | .vconnSourceTimeout .. => execVconnSourceTimeout_inv _ s hs
  | .drSwapRx .. => execDrSwapRx_inv _ _ s hs
  | .frsSignalDetect .. => execFrsSignalDetect_inv _ s hs
  | .frSwapRx .. => execFrSwapRx_inv _ s hs
  | .frsSourceWaitExpiry .. => execFrsSourceWaitExpiry_inv _ s hs
  | .hrSinkAllowanceEnd .. => execHrSinkAllowanceEnd_inv _ _ s hs
  | .hrSourceVbusOff .. => execHrSourceVbusOff_inv _ s hs
  | .hrSourceRecover .. => execHrSourceRecover_inv _ s hs
  | .hostRoutedRx .. => execHostRoutedRx_inv _ _ _ _ _ _ _ s hs
  | .hostReplyTimeout .. => execHostReplyTimeout_inv _ s hs
  | .tableRequestRx .. => execTableRequestRx_inv _ _ s hs
  | .pdSetPortPolicy => execPdSetPortPolicy_inv s hs
  | .pdSetSourceCaps => execPdSetSourceCaps_inv s hs
  | .pdSetSinkCaps => execPdSetSinkCaps_inv s hs
  | .pdRequest => execPdRequest_inv s hs
  | .pdSendMsg .. => execPdSendMsg_inv _ s hs
  | .pdSwapPr => execPdSwapPr_inv s hs
  | .pdSwapVconn => execPdSwapVconn_inv s hs
  | .pdSwapDr => execPdSwapDr_inv s hs
  | .pdHardReset => execPdHardReset_inv s hs
  | .pdPortDisable => execPdPortDisable_inv s hs
  | .portDisableWrite .. => execPortDisableWrite_inv _ _ _ _ s hs
  | .portErrRecovery .. => execPortErrRecovery_inv _ _ _ _ s hs
  | .hifEnable .. => execHifEnable_inv _ _ _ s hs
  | .kick .. => execKick_inv _ _ _ s hs
  | .doorbellPoll => execDoorbellPoll_inv s hs
  | .doorbellFetchDone .. => execDoorbellFetchDone_inv _ _ s hs
  | .entryFetchDone .. => execEntryFetchDone_inv _ _ _ s hs
  | .irqItimeExpiry .. => execIrqItimeExpiry_inv _ s hs
  | .sqEnable .. => execSqEnable_inv _ _ _ _ s hs
  | .sqDisable .. => execSqDisable_inv _ _ _ _ s hs
  | .sqDrainDone .. => execSqDrainDone_inv _ s hs
  | .cqEnable .. => execCqEnable_inv _ _ _ _ s hs
  | .cqDisable .. => execCqDisable_inv _ _ _ _ s hs
  | .evqEnable .. => execEvqEnable_inv _ _ _ s hs
  | .evqDisable .. => execEvqDisable_inv _ _ _ s hs
  | .functionLevelReset .. => execFunctionLevelReset_inv _ s hs
  | .busMasterDisable .. => execBusMasterDisable_inv _ s hs
  | .linkL1Entry => execLinkL1Entry_inv s hs
  | .nop => execNop_inv s hs
  | .setParam => execSetParam_inv s hs
  | .getParam => execGetParam_inv s hs
  | .getStatusBlock => execGetStatusBlock_inv s hs
  | .setEventMask => execSetEventMask_inv s hs
  | .captureConfig => execCaptureConfig_inv s hs
  | .captureArm .. => execCaptureArm_inv _ s hs
  | .captureStop .. => execCaptureStop_inv _ s hs
  | .captureRingAttach => execCaptureRingAttach_inv s hs
  | .captureRingDetach => execCaptureRingDetach_inv s hs
  | .thresholdFire .. => execThresholdFire_inv _ _ _ _ s hs
  | .captureTrigger .. => execCaptureTrigger_inv _ _ _ _ s hs
  | .captureBlockClose .. => execCaptureBlockClose_inv _ _ _ _ s hs
  | .writeOutStart .. => execWriteOutStart_inv _ _ s hs
  | .fullHeadFetch .. => execFullHeadFetch_inv _ _ _ s hs
  | .pressureRestore .. => execPressureRestore_inv _ s hs
  | .slowRateApply => execSlowRateApply_inv s hs
  | .oneshotGo .. => execOneshotGo_inv _ _ _ s hs
  | .oneshotDone .. => execOneshotDone_inv _ s hs
  | .arpPrepare .. => execArpPrepare_inv _ s hs
  | .arpResetDevice .. => execArpResetDevice_inv _ _ s hs
  | .arpGetUdid .. => execArpGetUdid_inv _ s hs
  | .arpGetUdidDirected .. => execArpGetUdidDirected_inv _ s hs
  | .arpAssignAddress .. => execArpAssignAddress_inv _ _ _ _ s hs
  | .masterAssignStart => execMasterAssignStart_inv s hs
  | .assignRetry .. => execAssignRetry_inv _ s hs
  | .selfAssign => execSelfAssign_inv s hs
  | .twbKaAddressMatch .. => execTwbKaAddressMatch_inv _ s hs
  | .twbWriteApplied => execTwbWriteApplied_inv s hs
  | .twbStatus => execTwbStatus_inv s hs
  | .eventSummary => execEventSummary_inv s hs
  | .eventAck .. => execEventAck_inv _ s hs
  | .lastResult => execLastResult_inv s hs
  | .lastEvent .. => execLastEvent_inv _ _ s hs
  | .regRead .. => execRegRead_inv _ _ s hs
  | .regWrite .. => execRegWrite_inv _ s hs
  | .cmdSubmit .. => execCmdSubmit_inv _ s hs
  | .cplRead => execCplRead_inv s hs
  | .cplPop .. => execCplPop_inv _ s hs
  | .resultLo => execResultLo_inv s hs
  | .resultHi => execResultHi_inv s hs
  | .mbxRead => execMbxRead_inv s hs
  | .mbxWrite .. => execMbxWrite_inv _ s hs
  | .mbxAckWrite .. => execMbxAckWrite_inv _ s hs
  | .mbxAckRead => execMbxAckRead_inv s hs
  | .compatWrite .. => execCompatWrite_inv _ _ s hs
  | .compatRead .. => execCompatRead_inv _ s hs
  | .alertResponse .. => execAlertResponse_inv _ s hs
  | .hostNotify .. => execHostNotify_inv _ s hs
  | .hostNotifyRetry .. => execHostNotifyRetry_inv _ s hs
  | .sclTimeout .. => execSclTimeout_inv _ s hs
  | .sdaTimeout => execSdaTimeout_inv s hs
  | .sdaStuck => execSdaStuck_inv s hs
  | .cscFrameStart .. => execCscFrameStart_inv _ s hs
  | .cscSlotRx .. => execCscSlotRx_inv _ _ _ s hs
  | .cscDiscoveryEnd => execCscDiscoveryEnd_inv s hs
  | .followerReadmit .. => execFollowerReadmit_inv _ _ s hs
  | .localFallbackLeave => execLocalFallbackLeave_inv s hs
  | .twoMasters => execTwoMasters_inv s hs
  | .indexClash .. => execIndexClash_inv _ s hs
  | .syncLock .. => execSyncLock_inv _ s hs
  | .syncLost => execSyncLost_inv s hs
  | .parCfgApply => execParCfgApply_inv s hs
  | .tunnelTimeout => execTunnelTimeout_inv s hs
  | .cscSleepEnter => execCscSleepEnter_inv s hs
  | .cscWakeBurst => execCscWakeBurst_inv s hs
  | .cscWakeNoMaster => execCscWakeNoMaster_inv s hs
  | .cascadeStatus => execCascadeStatus_inv s hs
  | .cascadeRemoteRead => execCascadeRemoteRead_inv s hs
  | .cascadeRemoteWrite => execCascadeRemoteWrite_inv s hs
  | .thermalSample .. => execThermalSample_inv _ _ s hs
  | .sampleRateSlow => execSampleRateSlow_inv s hs
  | .thermalShutdownTrip .. => execThermalShutdownTrip_inv _ _ s hs
  | .sensorReinstate => execSensorReinstate_inv s hs
  | .jackPeriodStart => execJackPeriodStart_inv s hs
  | .jackAnswer .. => execJackAnswer_inv _ _ _ _ s hs
  | .jackCheckin .. => execJackCheckin_inv _ _ _ s hs
  | .coreFaultReset .. => execCoreFaultReset_inv _ _ s hs
  | .fallbackExpiry .. => execFallbackExpiry_inv _ s hs
  | .jackKey .. => execJackKey_inv _ _ _ _ s hs
  | .jackDisable .. => execJackDisable_inv _ _ _ _ s hs
  | .jackEnable .. => execJackEnable_inv _ _ _ s hs
  | .jackLock .. => execJackLock_inv _ _ _ s hs
  | .selfTest .. => execSelfTest_inv _ s hs
  | .railEnable .. => execRailEnable_inv _ s hs
  | .railGood .. => execRailGood_inv _ s hs
  | .railPgTimeout .. => execRailPgTimeout_inv _ s hs
  | .railLossOfGood .. => execRailLossOfGood_inv _ s hs
  | .railDisable .. => execRailDisable_inv _ s hs
  | .railOff .. => execRailOff_inv _ s hs
  | .railStuck .. => execRailStuck_inv _ s hs
  | .latchedPowerUp => execLatchedPowerUp_inv s hs
  | .auxOverload .. => execAuxOverload_inv _ s hs
  | .auxUvlo .. => execAuxUvlo_inv _ s hs
  | .railConfig => execRailConfig_inv s hs
  | .railOn => execRailOn_inv s hs
  | .railOffCmd => execRailOffCmd_inv s hs
  | .seqPlatformOn => execSeqPlatformOn_inv s hs
  | .seqPlatformOff => execSeqPlatformOff_inv s hs
  | .tsLoRead .. => execTsLoRead_inv _ s hs
  | .aonCmpApply .. => execAonCmpApply_inv _ _ s hs
  | .aonCmpFire .. => execAonCmpFire_inv _ _ s hs
  | .ftEnable .. => execFtEnable_inv _ _ _ _ s hs
  | .ftDisable .. => execFtDisable_inv _ _ _ _ _ _ s hs
  | .ftCntWrite .. => execFtCntWrite_inv _ _ _ _ _ s hs
  | .ftTopWrite .. => execFtTopWrite_inv _ _ _ _ _ _ s hs
  | .ftCmpWrite .. => execFtCmpWrite_inv _ _ _ _ _ _ _ _ s hs
  | .ftCompareMatch .. => execFtCompareMatch_inv _ _ _ _ s hs
  | .ftWrap .. => execFtWrap_inv _ s hs
  | .ftCaptureNow .. => execFtCaptureNow_inv _ _ _ _ _ _ s hs
  | .ftCaptureEdge .. => execFtCaptureEdge_inv _ _ _ _ s hs
  | .ftCaptRead .. => execFtCaptRead_inv _ _ s hs
  | .debugHalt .. => execDebugHalt_inv _ s hs
  | .h2uPush .. => execH2uPush_inv _ _ _ s hs
  | .mbxMessageServe => execMbxMessageServe_inv s hs
  | .h2uAckRead .. => execH2uAckRead_inv _ s hs
  | .u2hPop .. => execU2hPop_inv _ s hs
  | .u2hAckWrite .. => execU2hAckWrite_inv _ _ _ s hs
  | .echo => execEcho_inv s hs
  | .fwInfo => execFwInfo_inv s hs
  | .logEntry => execLogEntry_inv s hs
  | .dbgUnlock .. => execDbgUnlock_inv _ s hs
  | .dbgLock => execDbgLock_inv s hs
  | .recoverWrite => execRecoverWrite_inv s hs
  | .recoverBoot .. => execRecoverBoot_inv _ s hs
  | .ec2uTake => execEc2uTake_inv s hs
  | .unitAckWrite .. => execUnitAckWrite_inv _ _ _ s hs
  | .u2ecSend .. => execU2ecSend_inv _ _ _ s hs
  | .lockRead .. => execLockRead_inv _ _ s hs
  | .lockWrite .. => execLockWrite_inv _ _ _ _ s hs
  | .fwStage .. => execFwStage_inv _ _ _ s hs
  | .fwActivate => execFwActivate_inv s hs
  | .activationTimeout .. => execActivationTimeout_inv _ s hs
  | .probationEnd .. => execProbationEnd_inv _ s hs
  | .fwAbort => execFwAbort_inv s hs
  | .configCommitImage .. => execConfigCommitImage_inv _ _ _ s hs
  | .configCommitSwap .. => execConfigCommitSwap_inv _ s hs
  | .logEntryWrite => execLogEntryWrite_inv s hs
  | .logWriteAbandon .. => execLogWriteAbandon_inv _ s hs
  | .logRead => execLogRead_inv s hs
  | .logClear => execLogClear_inv s hs
  | .gpioEdge .. => execGpioEdge_inv _ _ _ s hs
  | .gpioCfgWrite .. => execGpioCfgWrite_inv _ _ _ _ s hs
  | .goodcrcRx .. => execGoodcrcRx_inv _ s hs
  | .sinkCapsRx .. => execSinkCapsRx_inv _ _ s hs
  | .swapReplyRx .. => execSwapReplyRx_inv _ _ s hs
  | .softResetAcceptRx .. => execSoftResetAcceptRx_inv _ s hs
  | .eprKeepaliveAckRx .. => execEprKeepaliveAckRx_inv _ s hs
  | .cableIdentityRx .. => execCableIdentityRx_inv _ _ _ _ _ _ _ s hs
  | .chunkRx .. => execChunkRx_inv _ _ _ _ _ _ s hs
  | .tsinktxExpiry .. => execTsinktxExpiry_inv _ s hs
  | .hrSinkVbusReturn .. => execHrSinkVbusReturn_inv _ _ s hs
  | .attachWaitCcOpen .. => execAttachWaitCcOpen_inv _ s hs
  | .busMasterEnable .. => execBusMasterEnable_inv _ s hs
  | .perstDeassert .. => execPerstDeassert_inv _ s hs
  | .debugResume => execDebugResume_inv s hs
  | .fwActivateWaitTimeout => execFwActivateWaitTimeout_inv s hs


/-- A step is the passing of time or the meaning of one command, and each keeps the canonical form. -/
theorem step_outInv (s : State) (hs : s.Inv) : OutInv (step s) := by
  cases hq : s.pending with
  | nil => exact step_nil hq ▸ outInv_next (s.idle_inv hs)
  | cons c rest => exact step_cons hq ▸ exec_inv c _ (inv_upd hs)

theorem step_inv {s t : State} (hs : s.Inv) (h : step s = .next t) : t.Inv :=
  outInv_elim (h ▸ step_outInv s hs)

/-- Settles O3: at reset no word is listed. -/
theorem resetInv : Obligations.ResetInv := regsOk_nil

/-- Settles O4: the invariant is kept by the meaning of every command, and by the passing of time. -/
theorem everyStepKeepsInv : Obligations.EveryStepKeepsInv :=
  fun _ _ hs h => step_inv hs h

/-- A bit that the register map does not implement at an address reads 0 in the canonical form. -/
theorem State.word_unimplemented {s : State} (hs : s.Inv) {a i : Nat} (hi : (RegMap.implMask a).getLsbD i = false) :
    (s.word a).getLsbD i = false := by
  rw [← State.word_impl hs a, BitVec.getLsbD_and, hi, Bool.and_false]

/-- Settles O5: the step answers a state in the canonical form, in which no unimplemented bit is set. -/
theorem reservedBitsReadZero : Obligations.ReservedBitsReadZero :=
  fun _ _ hs h _ _ hi => State.word_unimplemented (step_inv hs h) hi

/-- Settles O6: the meaning of every command is a `.next` by its own definition; a command whose condition does not hold
leaves the state as it is (log entries 5 and 11). -/
theorem everyCommandCompletes : Obligations.EveryCommandCompletes := by
  intro c s
  cases c <;> exact ⟨_, rfl⟩

/-! ### Without the AON domain -/

theorem State.processCall_unpowered {s : State} (hoff : s.power ≠ .on) (count len : Nat) (f : State → State) :
    s.processCall count len f = s := by
  rw [State.processCall, State.nativeRead, State.when_power s _ _ hoff]

/-- Settles O7: but for the four power events every meaning is guarded by `State.when`, which asks for the AON domain first
(log entry 5). -/
theorem onlyPowerEventsActUnpowered : Obligations.OnlyPowerEventsActUnpowered := by
  intro c s hoff hassert hrelease hbutton hvbus
  cases c
  case aonPorAssert gone => exact absurd rfl (hassert gone)
  case aonPorRelease vbat vbus => exact absurd rfl (hrelease vbat vbus)
  case shipExitButton vbat vbus => exact absurd rfl (hbutton vbat vbus)
  case shipExitVbus p vbat vbus => exact absurd rfl (hvbus p vbat vbus)
  case lastEvent count typ => exact congrArg Host.Outcome.next (State.processCall_unpowered hoff count 1 _)
  case regRead count addr => exact congrArg Host.Outcome.next (State.processCall_unpowered hoff count 2 _)
  all_goals exact congrArg Host.Outcome.next (State.when_power s _ _ hoff)

/-- Settles O8: AON_POR_ASSERT is `porReset`, each exit from SHIP is that reset and its release under the keeper's cause, and
the release leaves the unit on with the latch at supply (R34, R38, R39; the release from 3.038 V is log entry 66). -/
theorem powerEdges : Obligations.PowerEdges := by
  intro s
  refine ⟨?assert, ?release, ?released, ?button, ?vbus⟩
  case assert =>
    intro gone h
    exact ⟨_, exec_aonPorAssert_eq s gone h, rfl, rfl, rfl, rfl, rfl, rfl, rfl⟩
  case release => exact fun vbat vbus hpor hv => exec_aonPorRelease_eq s vbat vbus hpor hv
  case released =>
    intro vbat vbus
    rw [State.porRelease_md]
    exact ⟨s.porRelease_power vbat vbus, rfl⟩
  case button => exact fun vbat vbus hoff => exec_shipExitButton_eq s vbat vbus hoff
  case vbus => exact fun p vbat vbus hoff hdb => exec_shipExitVbus_eq s p vbat vbus hoff hdb

end Sys2Proof.Machine
end

section
/-! Rules that need no step: the order in which commands start (R230, R247), the nearest representable value (R8), the
resets of a domain (R6), and three functions of numbers (R54, R58, R357, R358). -/

namespace Sys2Proof.Machine

/-! ### Which command starts next -/

/-- A command may start that has not, behind commands of its ring that all have, with FENCE behind none of them. -/
theorem mayStart_iff {seen : List Cmd} {c : Cmd} :
    mayStart seen c = true ↔
      c.started = false ∧ ∀ d ∈ seen, d.src = c.src → d.started = true ∧ c.fence = false := by
  simp [mayStart, or_iff_not_imp_left]

/-- A command that may not start has started, or waits for a command of its ring. -/
theorem mayStart_eq_false {seen : List Cmd} {c : Cmd} (h : mayStart seen c = false) :
    c.started = true ∨ ∃ e ∈ seen, e.src = c.src ∧ (e.started = false ∨ c.fence = true) := by
  by_contra hn
  simp only [not_or, Bool.not_eq_true, not_exists, not_and, Bool.not_eq_false] at hn
  obtain ⟨hstarted, hring⟩ := hn
  exact Bool.false_ne_true (h.symm.trans (mayStart_iff.2 ⟨hstarted, hring⟩))

/-- The command found is the first in fetch order that may start. -/
theorem firstStartable_some {l seen : List Cmd} {c : Cmd} (h : firstStartable seen l = some c) :
    ∃ pre post, l = pre ++ c :: post ∧ mayStart (pre.reverse ++ seen) c = true ∧
      ∀ pre' d rest, pre = pre' ++ d :: rest → mayStart (pre'.reverse ++ seen) d = false := by
  induction l generalizing seen with
  | nil => cases h
  | cons b l ih =>
    rw [firstStartable] at h
    by_cases hb : mayStart seen b = true
    · rw [if_pos hb] at h
      cases h
      exact ⟨[], l, rfl, hb, fun pre' d rest hnil => by simp at hnil⟩
    · rw [if_neg hb] at h
      obtain ⟨pre, post, rfl, hc, hpre⟩ := ih h
      refine ⟨b :: pre, post, rfl, by simpa using hc, fun pre' d rest hcut => ?_⟩
      cases pre' with
      | nil =>
        cases hcut
        simpa using hb
      | cons x pre' =>
        obtain ⟨rfl, htail⟩ := List.cons.inj hcut
        simpa using hpre pre' d rest htail

/-- Settles O9: `firstStartable` runs along the fetch order, with the commands before it as those seen. -/
theorem commandStartOrder : Obligations.CommandStartOrder := by
  intro s c hc
  obtain ⟨hfw, hmode, hfirst⟩ := State.nextCmd_some hc
  obtain ⟨pre, post, hcmds, hmay, hbefore⟩ := firstStartable_some hfirst
  obtain ⟨hstarted, hring⟩ := mayStart_iff.1 hmay
  refine ⟨hfw, hmode, pre, post, hcmds, hstarted, fun d hd => hring d (by simpa using hd), ?_⟩
  intro pre' d rest hcut
  simpa using mayStart_eq_false (hbefore pre' d rest hcut)

/-! ### Measured quantities -/

/-- Modulo twice `p`, a number from -`p` up to `p` is itself or, where it is negative, `2 * p` more. -/
theorem emod_two_mul {p y : Int} (hlo : -p ≤ y) (hhi : y < p) : y % (2 * p) = if 0 ≤ y then y else y + 2 * p := by
  split
  · exact Int.emod_eq_of_lt ‹_› (by omega)
  · rw [← Int.add_emod_right, Int.emod_eq_of_lt (by omega) (by omega)]

/-- What a signed field stores: the quantity held between the least and greatest values, in two's complement. -/
theorem ofSignedSat_eq (n : Nat) (v : Int) :
    ofSignedSat (n + 1) v = (max (-(2 ^ n)) (min (2 ^ n - 1) v) % 2 ^ (n + 1)).toNat := by
  have hpos : (0 : Int) < 2 ^ n := by positivity
  simp only [ofSignedSat, Nat.add_sub_cancel]
  congr 2
  generalize (2 : Int) ^ n = p at hpos
  split_ifs <;> omega

/-- A value that the field can hold reads back. -/
theorem toSigned_emod {n : Nat} {y : Int} (hlo : -(2 ^ n) ≤ y) (hhi : y < 2 ^ n) :
    toSigned (n + 1) ((y % 2 ^ (n + 1)).toNat % 2 ^ (n + 1)) = y := by
  have hpow : (2 : Int) ^ (n + 1) = 2 * 2 ^ n := by ring
  have hpowNat : 2 ^ (n + 1) = 2 * 2 ^ n := by ring
  have hcast : ((2 ^ n : Nat) : Int) = 2 ^ n := by push_cast; rfl
  rw [toSigned, hpow, hpowNat, emod_two_mul hlo hhi, Nat.add_sub_cancel]
  rw [← hcast] at hlo hhi ⊢
  generalize 2 ^ n = p at hlo hhi
  rw [Nat.mod_eq_of_lt (by split <;> omega)]
  split_ifs <;> omega

/-- A signed quantity stored at the nearest representable value reads as that value (R7, R8). -/
theorem toSigned_ofSignedSat (n : Nat) (v : Int) :
    toSigned (n + 1) (ofSignedSat (n + 1) v % 2 ^ (n + 1)) = max (-(2 ^ n)) (min (2 ^ n - 1) v) := by
  have hpos : (0 : Int) < 2 ^ n := by positivity
  rw [ofSignedSat_eq, toSigned_emod (by omega) (by omega)]

/-- A signed field reads the quantity held between its least and greatest values. -/
theorem State.geti_seti_same {s : State} (h : s.Inv) (f : Fld) (v : Int) (hf : f.real) (hw : 1 ≤ f.width) :
    (s.seti f v).geti f = max (-(2 ^ (f.width - 1))) (min (2 ^ (f.width - 1) - 1) v) := by
  obtain ⟨n, hn⟩ : ∃ n, f.width = n + 1 := ⟨f.width - 1, by omega⟩
  rw [State.geti, State.seti, State.get_set_same h f _ hf, hn, toSigned_ofSignedSat, Nat.add_sub_cancel]

/-- Settles O11: both operations set the field to the nearest value it can hold, and touch no other word. -/
theorem measuredQuantitiesSaturate : Obligations.MeasuredQuantitiesSaturate := by
  intro s f hInv hfit hwidth himpl
  exact ⟨fun v => State.get_setSat_min hInv f v ⟨hfit, himpl⟩,
    fun v => State.geti_seti_same hInv f v ⟨hfit, himpl⟩ hwidth,
    fun v g hg => State.get_setSat_ne s f g v hg, fun v g hg => State.get_seti_ne s f g v hg⟩

/-! ### Resets of a domain -/

/-- What a reset of domain `m` makes of the word `w` at address `a`. -/
def domReset (m : Dom) (a : Nat) (w : Word) : Word :=
  (w &&& ~~~ RegMap.domMask a m) ||| (RegMap.resetWord a &&& RegMap.domMask a m)

/-- Resetting a reset word leaves it. -/
theorem domReset_resetWord (m : Dom) (a : Nat) : domReset m a (RegMap.resetWord a) = RegMap.resetWord a := by
  ext i
  simp only [domReset, BitVec.getElem_or, BitVec.getElem_and, BitVec.getElem_not]
  cases (RegMap.domMask a m)[i] <;> simp

/-- Along a list with rising addresses, the word at an address is the reset of the one listed there; an address that is not
listed keeps the word it has in `acc`. -/
theorem regRead_foldl_domReset (m : Dom) (l acc : List (Nat × Word)) (hl : l.Pairwise (fun p q => p.1 < q.1)) (hacc : RegsOk acc)
    (a : Nat) :
    regRead (l.foldl (fun acc p => regWrite acc p.1 (domReset m p.1 p.2)) acc) a =
      match l.lookup a with
      | some w => domReset m a w &&& RegMap.implMask a
      | none => regRead acc a := by
  induction l generalizing acc with
  | nil => rfl
  | cons p t ih =>
    obtain ⟨b, v⟩ := p
    obtain ⟨hb, ht⟩ := List.pairwise_cons.1 hl
    rw [List.foldl_cons, ih _ ht (regWrite_ok _ _ hacc), lookup_pair]
    by_cases hab : a = b
    · subst hab
      rw [lookup_none_of_lt t a hb, if_pos rfl]
      exact regRead_regWrite_same a _ hacc
    · rw [if_neg hab, regRead_regWrite_ne _ _ hab]

/-- Settles O25: every listed word is reset once, and an address that is not listed holds its reset word. -/
theorem resetDomains : Obligations.ResetDomains := by
  intro s hInv m a
  change regRead (s.regs.foldl (fun acc p => regWrite acc p.1 (domReset m p.1 p.2)) []) a =
    domReset m a (regRead s.regs a) &&& RegMap.implMask a
  rw [regRead_foldl_domReset m _ _ hInv.1 regsOk_nil]
  unfold regRead
  cases s.regs.lookup a with
  | some w => rfl
  | none =>
    simp only [List.lookup_nil, domReset_resetWord]
    exact (RegMap.resetWord_clean a).symm

/-! ### Functions of numbers -/

/-- Settles O20: a step of at most 8 toward the target, then the limits. That 1.0 ns counts as 13 steps is log entry 31. -/
theorem deadTimeAdaptation : Obligations.DeadTimeAdaptation := by
  intro cur meas lo hi hlohi
  refine ⟨?limits, ?step, ?reached⟩ <;> (dsimp only [adaptDt]; split <;> omega)

theorem nextRegion_buck (vin vsys : Nat) :
    nextRegion 0 vin vsys = if vsys * 1000 < 880 * vin then 0 else if vsys * 1000 ≤ 1120 * vin then 1
      else if vsys * 1000 ≤ 1150 * vin then 1 else 2 := rfl

theorem nextRegion_buckBoost (vin vsys : Nat) :
    nextRegion 1 vin vsys = if vsys * 1000 < 850 * vin then 0 else if vsys * 1000 > 1150 * vin then 2 else 1 := rfl

theorem nextRegion_boost (vin vsys : Nat) :
    nextRegion 2 vin vsys = if vsys * 1000 > 1120 * vin then 2 else if vsys * 1000 < 850 * vin then 0 else 1 := rfl

theorem nextRegion_start (vin vsys : Nat) :
    nextRegion 3 vin vsys = if vsys * 1000 < 865 * vin then 0 else if vsys * 1000 ≤ 1135 * vin then 1 else 2 := rfl

/-- What holds of the three regions holds of every region of a group that runs. -/
theorem forall_region {P : Nat → Prop} (hbuck : P 0) (hboth : P 1) (hboost : P 2) : ∀ r, r < 3 → P r := by
  intro r hr
  interval_cases r
  exacts [hbuck, hboth, hboost]

/-- Settles O21: each region's own thresholds, in thousandths of VIN. -/
theorem regionHysteresis : Obligations.RegionHysteresis := by
  intro vin vsys
  refine ⟨?buck, ?boost, ?both, ?low, ?high, ?startBuck, ?startBoth, ?startBoost⟩
  case buck | boost =>
    intro h
    refine forall_region ?_ ?_ ?_ <;>
      (simp only [nextRegion_buck, nextRegion_buckBoost, nextRegion_boost]; split_ifs <;> omega)
  case both =>
    intro hlo hhi
    refine forall_region ?_ ?_ ?_ <;>
      (simp only [nextRegion_buck, nextRegion_buckBoost, nextRegion_boost]; split_ifs <;> omega)
  case low | high =>
    intro hlo hhi
    simp only [nextRegion_buck, nextRegion_buckBoost, nextRegion_boost]
    constructor <;> split_ifs <;> omega
  case startBuck | startBoost =>
    intro h
    rw [nextRegion_start]
    split_ifs <;> omega
  case startBoth =>
    intro hlo hhi
    rw [nextRegion_start]
    split_ifs <;> omega

/-- The rotation by 5 that the answer starts with, as the two parts of the question changing places. -/
theorem rotate5_eq {q : Nat} (hq : q < 65536) : (q * 32 + q / 2048) % 65536 = 32 * (q % 2048) + q / 2048 := by
  omega

/-- The rotation merges no two questions. -/
theorem rotate5_inj {p q : Nat} (hp : p < 65536) (hq : q < 65536)
    (h : (p * 32 + p / 2048) % 65536 = (q * 32 + q / 2048) % 65536) : p = q := by
  rw [rotate5_eq hp, rotate5_eq hq] at h
  omega

/-- The answer is a rotation, an exclusive or with the SEED and a sum, each of which can be undone. -/
theorem jackAnswerTo_inj {seed p q : Nat} (hs : seed < 65536) (hp : p < 65536) (hq : q < 65536)
    (h : jackAnswerTo p seed = jackAnswerTo q seed) : p = q := by
  have hlt (x : Nat) : (x * 32 + x / 2048) % 65536 ^^^ seed < 2 ^ 16 :=
    Nat.xor_lt_two_pow (Nat.mod_lt _ (by decide)) hs
  have hxor : (p * 32 + p / 2048) % 65536 ^^^ seed = (q * 32 + q / 2048) % 65536 ^^^ seed := by
    have hlp := hlt p
    have hlq := hlt q
    unfold jackAnswerTo at h
    generalize (p * 32 + p / 2048) % 65536 ^^^ seed = x at h hlp ⊢
    generalize (q * 32 + q / 2048) % 65536 ^^^ seed = y at h hlq ⊢
    omega
  exact rotate5_inj hp hq (Nat.xor_left_injective hxor)

/-- The bit that the LFSR shifts in: the parity of four bits of the question. -/
def lfsrBit (q : Nat) : Nat := (q / 2 ^ 15 + q / 2 ^ 13 + q / 2 ^ 12 + q / 2 ^ 10) % 2

theorem lfsrStep_eq (q : Nat) : lfsrStep q = 2 * (q % 32768) + lfsrBit q := by
  have hbit : lfsrBit q < 2 := Nat.mod_lt _ (by decide)
  change (q * 2 + lfsrBit q) % 65536 = _
  omega

/-- Two questions that differ in the bit shifted out alone differ in the bit shifted in. -/
theorem lfsrBit_add (q : Nat) : lfsrBit (q + 32768) ≠ lfsrBit q := by
  unfold lfsrBit
  omega

/-- The step merges no two questions: it keeps the low bits, and the bit shifted in tells the bit shifted out. -/
theorem lfsrStep_inj {p q : Nat} (hp : p < 65536) (hq : q < 65536) (h : lfsrStep p = lfsrStep q) : p = q := by
  have hbp : lfsrBit p < 2 := Nat.mod_lt _ (by decide)
  have hbq : lfsrBit q < 2 := Nat.mod_lt _ (by decide)
  rw [lfsrStep_eq, lfsrStep_eq] at h
  have hbit : lfsrBit p = lfsrBit q := by omega
  have hcases : p = q ∨ p = q + 32768 ∨ q = p + 32768 := by omega
  rcases hcases with rfl | rfl | rfl
  · rfl
  · exact absurd hbit (lfsrBit_add q)
  · exact absurd hbit.symm (lfsrBit_add p)

/-- A question that is not 0 keeps a bit that is not 0, or shifts one out that makes the bit shifted in 1. -/
theorem lfsrStep_pos {q : Nat} (h0 : 0 < q) (hq : q < 65536) : 0 < lfsrStep q := by
  rw [lfsrStep_eq]
  by_cases hlow : q % 32768 = 0
  · obtain rfl : q = 32768 := by omega
    decide
  · omega

/-- Settles O19: the LFSR step and the answer can each be undone; the example by evaluation. -/
theorem jackQuestion : Obligations.JackQuestion := by
  refine ⟨fun _ h0 hq => ⟨lfsrStep_pos h0 hq, Nat.mod_lt _ (by decide)⟩, fun _ _ hp hq h => lfsrStep_inj hp hq h,
    fun _ _ _ hs hp hq h => jackAnswerTo_inj hs hp hq h, ?_⟩
  decide

end Sys2Proof.Machine
end

section
/-! Accesses that the rules on every register decide (R16, R24, R25, R435): reserved and unmapped addresses on every path, and
the record of a refused access. -/

namespace Sys2Proof.Machine

theorem State.on_iff {s : State} {f : Fld} : s.on f = true ↔ s.get f = 1 := decide_eq_true_iff

/-- A field reads the same where its word is the same. -/
theorem State.get_congr {s t : State} {f : Fld} (h : t.word f.addr = s.word f.addr) : t.get f = s.get f := by
  rw [State.get, h, State.get]

theorem State.on_congr {s t : State} {f : Fld} (h : t.word f.addr = s.word f.addr) : t.on f = s.on f := by
  rw [State.on, State.get_congr h, State.on]

/-! ### How an access ends -/

/-- Bringing the link to L0 writes one word. -/
theorem State.toL0_word_ne (s : State) {a : Nat} (h : a ≠ A.HIF_STATUS) : s.toL0.word a = s.word a :=
  State.word_set_ne s _ _ h

/-- Bringing the link to L0 does not change what refuses an access: it writes no word that a refusal reads. -/
theorem State.refusal_toL0 (s : State) (i : Initiator) (a : Nat) (isWrite full : Bool) :
    s.toL0.refusal i a isWrite full = s.refusal i a isWrite full := by
  have hdbg : s.toL0.on R.SEC_DBG_CTRL.DBG_EN = s.on R.SEC_DBG_CTRL.DBG_EN := State.on_congr (s.toL0_word_ne (by decide))
  rw [State.refusal, hdbg]
  rfl

/-- The state in which an access through initiator `i` finds the registers: a host access brings the link to L0. -/
def State.reached (s : State) (i : Initiator) : State := if i = .host then s.toL0 else s

theorem State.reached_word_ne (s : State) (i : Initiator) {a : Nat} (h : a ≠ A.HIF_STATUS) :
    (s.reached i).word a = s.word a := by
  unfold State.reached
  split
  · exact s.toL0_word_ne h
  · rfl

theorem State.reached_inv {s : State} (h : s.Inv) (i : Initiator) : (s.reached i).Inv := by
  unfold State.reached
  split
  · exact s.toL0_inv h
  · exact h

theorem State.reached_refusal (s : State) (i : Initiator) (a : Nat) (isWrite full : Bool) :
    (s.reached i).refusal i a isWrite full = s.refusal i a isWrite full := by
  unfold State.reached
  split
  · exact s.refusal_toL0 i a isWrite full
  · rfl

/-- A write that a cause refuses. -/
theorem State.write_refused {s : State} {i : Initiator} {addr c : Nat} {full : Bool}
    (h : s.refusal i (busAddr i addr) true full = some c) (data mask : Word) (eff : Word → State → State) :
    s.write i addr data mask full eff = (.refused c, (s.reached i).recordRefusal i (busAddr i addr) true c) := by
  rw [← s.reached_refusal] at h
  change (match (s.reached i).refusal i (busAddr i addr) true full with
    | some c => (WriteEnd.refused c, (s.reached i).recordRefusal i (busAddr i addr) true c)
    | none => (s.reached i).writeReg i (busAddr i addr) data mask eff) = _
  rw [h]

/-- A write that nothing refuses. -/
theorem State.write_allowed {s : State} {i : Initiator} {addr : Nat} {full : Bool}
    (h : s.refusal i (busAddr i addr) true full = none) (data mask : Word) (eff : Word → State → State) :
    s.write i addr data mask full eff = (s.reached i).writeReg i (busAddr i addr) data mask eff := by
  rw [← s.reached_refusal] at h
  change (match (s.reached i).refusal i (busAddr i addr) true full with
    | some c => (WriteEnd.refused c, (s.reached i).recordRefusal i (busAddr i addr) true c)
    | none => (s.reached i).writeReg i (busAddr i addr) data mask eff) = _
  rw [h]

theorem State.read_refused {s : State} {i : Initiator} {addr c : Nat}
    (h : s.refusal i (busAddr i addr) false true = some c) :
    s.read i addr = (0, (s.reached i).recordRefusal i (busAddr i addr) false c) := by
  rw [← s.reached_refusal] at h
  change (match (s.reached i).refusal i (busAddr i addr) false true with
    | some c => ((0 : Word), (s.reached i).recordRefusal i (busAddr i addr) false c)
    | none => (s.reached i).readReg i (busAddr i addr)) = _
  rw [h]

theorem State.read_allowed {s : State} {i : Initiator} {addr : Nat}
    (h : s.refusal i (busAddr i addr) false true = none) :
    s.read i addr = (s.reached i).readReg i (busAddr i addr) := by
  rw [← s.reached_refusal] at h
  change (match (s.reached i).refusal i (busAddr i addr) false true with
    | some c => ((0 : Word), (s.reached i).recordRefusal i (busAddr i addr) false c)
    | none => (s.reached i).readReg i (busAddr i addr)) = _
  rw [h]

theorem busAddr_aligned (i : Initiator) {a : Nat} (hlt : a < 65536) (hal : a % 4 = 0) : busAddr i a = a := by
  unfold busAddr
  split <;> omega

/-! ### Reserved addresses -/

/-- Nothing refuses a whole access of an aligned reserved address inside a mapped block but a debugger without access. -/
theorem State.refusal_reserved {s : State} {i : Initiator} {a : Nat} {isWrite full : Bool} (hal : a % 4 = 0)
    (hfind : RegMap.find a = none) (hmap : RegMap.mapped a = true) (hdbg : i = .debug → s.on R.SEC_DBG_CTRL.DBG_EN)
    (hfull : i = .host → full = true) : s.refusal i a isWrite full = none := by
  have hdebug : (i = .debug && !s.on R.SEC_DBG_CTRL.DBG_EN) = false := by simpa using hdbg
  have hpartial : (isWrite && i = .host && !full) = false := by
    simpa using fun _ => hfull
  have hpriv : privReg a = false := by simp [privReg, hfind]
  simp [State.refusal, hdebug, hpartial, hmap, hal, hpriv]

theorem State.writeReg_reserved (s : State) (i : Initiator) {a : Nat} (hfind : RegMap.find a = none) (data mask : Word)
    (eff : Word → State → State) : s.writeReg i a data mask eff = (.stored false, s) := by
  simp [State.writeReg, hfind]

/-- A whole write of a reserved address is stored nowhere. -/
theorem State.write_reserved {s : State} (i : Initiator) {a : Nat} {full : Bool} (hlt : a < 65536) (hal : a % 4 = 0)
    (hfind : RegMap.find a = none) (hmap : RegMap.mapped a = true) (hdbg : i = .debug → s.on R.SEC_DBG_CTRL.DBG_EN)
    (hfull : i = .host → full = true) (data mask : Word) (eff : Word → State → State) :
    s.write i a data mask full eff = (.stored false, s.reached i) := by
  have hbus := busAddr_aligned i hlt hal
  have hnone := s.refusal_reserved (isWrite := true) hal hfind hmap hdbg hfull
  rw [State.write_allowed (by rw [hbus]; exact hnone), hbus, State.writeReg_reserved _ _ hfind]

/-- No entry of an array of registers stands at a reserved address. -/
theorem arrayIdx_reserved {base stride count a : Nat} (harray : ∀ n < count, RegMap.find (base + stride * n) ≠ none)
    (hfind : RegMap.find a = none) : arrayIdx base stride count a = none := by
  refine if_neg fun h => ?_
  simp only [Bool.and_eq_true, decide_eq_true_eq] at h
  obtain ⟨⟨hbase, hmod⟩, hn⟩ := h
  have hdiv := Nat.div_add_mod (a - base) stride
  refine harray _ hn ?_
  rwa [show base + stride * ((a - base) / stride) = a by omega]

/-- A register whose view is derived from other state is no reserved address. -/
theorem State.view_reserved {s : State} (h : s.Inv) {a : Nat} (hfind : RegMap.find a = none) : s.view a = 0 := by
  have hne {b : Nat} (hb : RegMap.find b ≠ none) : a ≠ b := fun e => hb (e ▸ hfind)
  unfold State.view
  simp only [arrayIdx_reserved (base := 0x6010) (stride := 0x40) (count := 6) (by decide) hfind,
    arrayIdx_reserved (base := 0x6014) (stride := 0x40) (count := 6) (by decide) hfind,
    arrayIdx_reserved (base := 0x081C) (stride := 0x20) (count := 2) (by decide) hfind,
    arrayIdx_reserved (base := 0x1808) (stride := 0x200) (count := 4) (by decide) hfind,
    arrayIdx_reserved (base := 0x1850) (stride := 0x200) (count := 4) (by decide) hfind,
    arrayIdx_reserved (base := 0x3084) (stride := 8) (count := 8) (by decide) hfind,
    arrayIdx_reserved (base := 0x0444) (stride := 0x10) (count := 2) (by decide) hfind,
    arrayIdx_reserved (base := 0x044C) (stride := 0x10) (count := 2) (by decide) hfind,
    arrayIdx_reserved (base := 0x7000) (stride := 0x20) (count := 16) (by decide) hfind, State.word_reserved h hfind]
  repeat rw [if_neg (hne (by decide))]

theorem State.settled_reserved (s : State) {a : Nat} (hfind : RegMap.find a = none) : s.settled a = s := by
  simp [State.settled, hfind]

theorem State.seenBy_reserved {s : State} (h : s.Inv) (i : Initiator) {a : Nat} (hfind : RegMap.find a = none) :
    s.seenBy i a = 0 := by
  unfold State.seenBy
  split
  · rfl
  · rw [s.settled_reserved hfind, State.view_reserved h hfind]
    rfl

/-- A masked write of a reserved address by the application core succeeds, and shows 0 before and after. -/
theorem State.maskedWrite_reserved {s : State} (h : s.Inv) {a : Nat} (hlt : a < 65536) (hal : a % 4 = 0)
    (hfind : RegMap.find a = none) (hmap : RegMap.mapped a = true) (data mask : Word) (da dv : Nat) :
    s.maskedWrite .application a data mask da dv = ({ status := 0x00 }, s) := by
  have hwrite : s.access .application a data mask = (.stored false, s) :=
    State.write_reserved .application hlt hal hfind hmap nofun nofun _ _ _
  rw [State.maskedWrite, hwrite]
  simp only [State.seenBy_reserved h _ hfind]
  rfl

/-! ### Unmapped addresses -/

/-- An unmapped address refuses every initiator but a debugger, who meets DBG_EN first. -/
theorem State.refusal_unmapped (s : State) (i : Initiator) {a : Nat} (hi : i ≠ .debug) (hmap : ¬ RegMap.mapped a)
    (isWrite full : Bool) : s.refusal i a isWrite full = some 0x1 := by
  simp [State.refusal, hi, hmap]

theorem State.maskedWrite_unmapped (s : State) {a : Nat} (hlt : a < 65536) (hal : a % 4 = 0) (hmap : ¬ RegMap.mapped a)
    (data mask : Word) (dv : Nat) :
    s.maskedWrite .application a data mask 0 dv =
      ({ status := 0x11, diagOfs := 16 }, s.recordRefusal .application a true 0x1) := by
  have hbus := busAddr_aligned .application hlt hal
  have hwrite : s.access .application a data mask = (.refused 0x1, s.recordRefusal .application a true 0x1) := by
    rw [State.access, State.write_refused (by rw [hbus]; exact s.refusal_unmapped .application nofun hmap true true), hbus]
    rfl
  simp only [State.maskedWrite, hwrite]
  rfl

theorem State.read_unmapped (s : State) (i : Initiator) {a : Nat} (hlt : a < 65536) (hal : a % 4 = 0)
    (hi : i ≠ .debug) (hmap : ¬ RegMap.mapped a) :
    s.read i a = (0, (s.reached i).recordRefusal i a false 0x1) := by
  have hbus := busAddr_aligned i hlt hal
  rw [State.read_refused (by rw [hbus]; exact s.refusal_unmapped i hi hmap false true), hbus]

/-! ### The rows of O14 -/

theorem exec_registerWrite_eq {s : State} {i : Initiator} (hon : s.power = .on) (hr : s.reaches i) (a : Nat) (data : Word)
    (full : Bool) : exec (.registerWrite i a data full) s = .next (s.busWrite i a data full) :=
  congrArg Host.Outcome.next (State.when_true _ hon hr)

/-- With the AON domain running, SET_PARAM runs on the command that starts next. -/
theorem exec_setParam_done {s t : State} {c : Cmd} {r : Reply} (hon : s.power = .on) (hc : s.nextCmd = some c)
    (hop : c.opcode = 0x01) (ho : opSetParam c (s.markStarted c.handle) = (.done r, t)) :
    exec .setParam s = .next (t.complete c.handle r) :=
  congrArg Host.Outcome.next ((State.when_true _ hon rfl).trans (State.runCmd_done hc (decide_eq_true hop) ho))

theorem exec_getParam_done {s t : State} {c : Cmd} {r : Reply} (hon : s.power = .on) (hc : s.nextCmd = some c)
    (hop : c.opcode = 0x02) (ho : opGetParam c (s.markStarted c.handle) = (.done r, t)) :
    exec .getParam s = .next (t.complete c.handle r) :=
  congrArg Host.Outcome.next ((State.when_true _ hon rfl).trans (State.runCmd_done hc (decide_eq_true hop) ho))

/-- SET_PARAM of a register or a reserved address, with a mask. -/
theorem opSetParam_mapped {c : Cmd} {a : Nat} (ha : c.num 0 2 = a) (hmap : RegMap.mapped a = true) (hal : a % 4 = 0)
    (hmask : BitVec.ofNat 32 (c.num 8 4) ≠ 0) (s : State) :
    opSetParam c s =
      (.done (s.maskedWrite .application a (BitVec.ofNat 32 (c.num 4 4)) (BitVec.ofNat 32 (c.num 8 4)) 0 4).1,
       (s.maskedWrite .application a (BitVec.ofNat 32 (c.num 4 4)) (BitVec.ofNat 32 (c.num 8 4)) 0 4).2) := by
  have haddr : (!RegMap.mapped a || a % 4 != 0) = false := by simp [hmap, hal]
  simp only [opSetParam, ha, haddr, hmask, if_false, Bool.false_eq_true]

/-- SET_PARAM judges the address before the mask (log entry 375). -/
theorem opSetParam_unmapped {c : Cmd} {a : Nat} (ha : c.num 0 2 = a) (hmap : ¬ RegMap.mapped a) (s : State) :
    opSetParam c s =
      (.done (s.maskedWrite .application a 0 0 0 4).1, (s.maskedWrite .application a 0 0 0 4).2) := by
  have haddr : (!RegMap.mapped a || a % 4 != 0) = true := by simp [hmap]
  simp only [opSetParam, ha, haddr, if_true]

/-- GET_PARAM of an unmapped address. -/
theorem opGetParam_unmapped {c : Cmd} {a : Nat} (ha : c.num 0 2 = a) (hlt : a < 65536) (hal : a % 4 = 0)
    (hmap : ¬ RegMap.mapped a) (s : State) :
    opGetParam c s = (.done { status := 0x11, diagOfs := 16 }, s.recordRefusal .application a false 0x1) := by
  simp only [opGetParam, ha, s.refusal_unmapped .application nofun hmap false true,
    s.read_unmapped .application hlt hal nofun hmap]
  rfl

/-- A two-wire read that the unit serves. -/
theorem State.processCall_served {s : State} {len : Nat} (hon : s.power = .on) (hav : s.on R.TWB_ADDR.AV = true)
    (hsys : s.sysRuns = true) (hbusy : s.busyNack = false) (f : State → State) : s.processCall len len f = f s := by
  have guard : (s.on R.TWB_ADDR.AV && s.sysRuns) = true := by simp [hav, hsys]
  rw [State.processCall, State.nativeRead, State.when_true _ hon guard]
  simp [hbusy]

/-- A two-wire write without a flaw that the unit serves. -/
theorem State.nativeWrite_served {s : State} {code len : Nat} {block slow : Bool} {w : TwiWrite} (hon : s.power = .on)
    (hav : s.on R.TWB_ADDR.AV = true) (hsys : s.sysRuns = true) (hbusy : (s.busyNack && !w.lost) = false)
    (hflaw : s.writeFlaw block len w = none) (op : List Byte → State → Nat × State) :
    s.nativeWrite code block slow len w op =
      { (op w.data s).2.setLast code (op w.data s).1 with
        twb := { ((op w.data s).2.setLast code (op w.data s).1).twb with applying := slow } } := by
  have guard : (s.on R.TWB_ADDR.AV && s.sysRuns) = true := by simp [hav, hsys]
  rw [State.nativeWrite, State.when_true _ hon guard]
  simp [hbusy, hflaw]

/-- Settles O14: nothing is stored at a reserved address, which no cause of R24 names; an unmapped address is refused on every
path before anything else (log entries 278 and 375). -/
theorem reservedAddresses : Obligations.ReservedAddresses := by
  intro s a hInv hon hlt hal hfind
  refine ⟨fun hmap => ⟨State.word_reserved hInv hfind, ?write, ?setParam, ?regWrite⟩,
    fun hmap => ⟨?setParamRefused, ?getParamRefused, ?regReadRefused⟩⟩
  case write =>
    intro i data full hr hdbg hfull
    rw [exec_registerWrite_eq hon hr, State.busWrite, State.rowWrite, State.write_reserved i hlt hal hfind hmap hdbg hfull]
    rfl
  case setParam =>
    intro c hc hop ha hmask
    refine exec_setParam_done hon hc hop ?_
    rw [opSetParam_mapped ha hmap hal hmask,
      State.maskedWrite_reserved (State.markStarted_inv s c.handle hInv) hlt hal hfind hmap]
  case regWrite =>
    intro w hav hsys hbusy hflaw ha
    refine ⟨_, congrArg Host.Outcome.next (State.nativeWrite_served hon hav hsys (by simp [hbusy]) hflaw _), ?_⟩
    dsimp only
    rw [ha, State.access, State.write_reserved .ec hlt hal hfind hmap nofun nofun]
    rfl
  case setParamRefused =>
    intro c hc hop ha
    refine exec_setParam_done hon hc hop ?_
    rw [opSetParam_unmapped ha hmap, State.maskedWrite_unmapped _ hlt hal hmap]
  case getParamRefused =>
    intro c hc hop ha
    exact exec_getParam_done hon hc hop (opGetParam_unmapped ha hlt hal hmap _)
  case regReadRefused =>
    intro hav hsys hbusy
    have hrefused : s.refusal .ec (busAddr .ec a) false true = some 0x1 := by
      rw [busAddr_aligned .ec hlt hal]
      exact s.refusal_unmapped .ec nofun hmap false true
    refine congrArg Host.Outcome.next ?_
    rw [State.processCall_served hon hav hsys (by simpa using hbusy), hrefused,
      s.read_unmapped .ec hlt hal nofun hmap]
    have hbytes : leBytes 1 0x11 ++ leBytes 4 (0 : Word).toNat = [0x11, 0, 0, 0, 0] := by decide
    exact congrArg (fun bs => (s.recordRefusal .ec a false 0x1).emit (.reply bs)) hbytes

end Sys2Proof.Machine
end

section
/-! The record of a refused access (R24, R25): what it shows, and what else a refused write moves. -/

namespace Sys2Proof.Machine

/-! ### Fields apart from one another -/

/-- Two fields share no bit: they stand in different registers, or in different bits of one. -/
abbrev Fld.apart (f g : Fld) : Prop := g.addr ≠ f.addr ∨ g.lo + g.width ≤ f.lo ∨ f.lo + f.width ≤ g.lo

/-- Setting a field leaves every field apart from it. -/
theorem State.get_set_apart {s : State} (h : s.Inv) (f g : Fld) (v : Nat) (hfg : f.apart g) :
    (s.set f v).get g = s.get g := by
  by_cases ha : g.addr = f.addr
  · exact State.get_set_other h f g v ha (hfg.resolve_left fun hne => hne ha)
  · exact State.get_set_ne s f g v ha

theorem State.Inv.set {s : State} (h : s.Inv) {f : Fld} {v : Nat} : (s.set f v).Inv := s.set_inv f v h


/-- The record alone, before a refused write of a WDG register raises its event. -/
def State.noteRefusal (s : State) (i : Initiator) (a : Nat) (isWrite : Bool) (cause : Nat) : State :=
  if s.on R.GLB_ACC_ERR_INFO.VALID then s.bump R.GLB_ACC_ERR_INFO.COUNT
  else (((((s.set R.GLB_ACC_ERR_ADDR.ADDR a).set R.GLB_ACC_ERR_INFO.COUNT 1).set R.GLB_ACC_ERR_INFO.CAUSE cause).setb
    R.GLB_ACC_ERR_INFO.WRITE isWrite).set R.GLB_ACC_ERR_INFO.INITIATOR (iniCode i)).set R.GLB_ACC_ERR_INFO.VALID 1

theorem State.recordRefusal_eq (s : State) (i : Initiator) (a : Nat) (isWrite : Bool) (c : Nat) :
    s.recordRefusal i a isWrite c = (s.noteRefusal i a isWrite c).wdgRefused i a isWrite := rfl

/-- The event of a refused WDG write moves WDG_EVENT and the event path. -/
theorem State.wdgRefused_word_ne (s : State) (i : Initiator) (a : Nat) (isWrite : Bool) {b : Nat} (hb : b ≠ A.WDG_EVENT)
    (hev : ¬ eventReg b) : (s.wdgRefused i a isWrite).word b = s.word b := by
  unfold State.wdgRefused
  split
  · exact ((State.raise_ev _ _ _).word b hev).trans (s.word_set_ne _ _ hb)
  · rfl

theorem State.wdgRefused_get (s : State) (i : Initiator) (a : Nat) (isWrite : Bool) (f : Fld) (hf : f.addr ≠ A.WDG_EVENT)
    (hev : ¬ eventReg f.addr) : (s.wdgRefused i a isWrite).get f = s.get f :=
  State.get_congr (s.wdgRefused_word_ne i a isWrite hf hev)

/-- The record is two words. -/
theorem State.noteRefusal_word_ne (s : State) (i : Initiator) (a : Nat) (isWrite : Bool) (c : Nat) {b : Nat}
    (hinfo : b ≠ A.GLB_ACC_ERR_INFO) (haddr : b ≠ A.GLB_ACC_ERR_ADDR) : (s.noteRefusal i a isWrite c).word b = s.word b := by
  unfold State.noteRefusal
  split
  · exact s.word_set_ne _ _ hinfo
  · simp [State.setb, State.word_set_ne, hinfo, haddr]

/-- Where a record stands, the count alone rises, up to its greatest value. -/
theorem State.noteRefusal_valid {s : State} (h : s.Inv) (hv : s.on R.GLB_ACC_ERR_INFO.VALID) (i : Initiator) (a : Nat)
    (isWrite : Bool) (c : Nat) :
    (s.noteRefusal i a isWrite c).get R.GLB_ACC_ERR_INFO.COUNT = min (s.get R.GLB_ACC_ERR_INFO.COUNT + 1) 65535 ∧
      ∀ g, R.GLB_ACC_ERR_INFO.COUNT.apart g → (s.noteRefusal i a isWrite c).get g = s.get g := by
  rw [show s.noteRefusal i a isWrite c = s.bump R.GLB_ACC_ERR_INFO.COUNT from if_pos hv]
  exact ⟨State.get_setSat_min h _ _ ⟨by decide, by decide⟩, fun g hg => State.get_set_apart h _ g _ hg⟩

/-- Where none stands, the record takes the access. -/
theorem State.noteRefusal_new {s : State} (h : s.Inv) (hv : ¬ s.on R.GLB_ACC_ERR_INFO.VALID) (i : Initiator) {a c : Nat}
    (isWrite : Bool) (ha : a < 65536) (hc : c < 16) :
    let t := s.noteRefusal i a isWrite c
    t.get R.GLB_ACC_ERR_INFO.VALID = 1 ∧ t.get R.GLB_ACC_ERR_INFO.COUNT = 1 ∧ t.get R.GLB_ACC_ERR_INFO.CAUSE = c ∧
      t.get R.GLB_ACC_ERR_ADDR.ADDR = a ∧ t.get R.GLB_ACC_ERR_INFO.WRITE = ofBool isWrite ∧
      t.get R.GLB_ACC_ERR_INFO.INITIATOR = iniCode i := by
  have hi : iniCode i < 8 := by cases i <;> decide
  have hw : ofBool isWrite < 2 := by cases isWrite <;> decide
  simp only [State.noteRefusal, if_neg hv, State.setb]
  refine ⟨?valid, ?count, ?cause, ?addr, ?write, ?initiator⟩
  case valid => exact State.get_set_same h.set.set.set.set.set _ _ ⟨by decide, by decide⟩
  case initiator =>
    rw [State.get_set_apart h.set.set.set.set.set _ _ _ (by decide),
      State.get_set_same h.set.set.set.set _ _ ⟨by decide, by decide⟩]
    exact Nat.mod_eq_of_lt hi
  case write =>
    rw [State.get_set_apart h.set.set.set.set.set _ _ _ (by decide), State.get_set_apart h.set.set.set.set _ _ _ (by decide),
      State.get_set_same h.set.set.set _ _ ⟨by decide, by decide⟩]
    exact Nat.mod_eq_of_lt hw
  case cause =>
    rw [State.get_set_apart h.set.set.set.set.set _ _ _ (by decide), State.get_set_apart h.set.set.set.set _ _ _ (by decide),
      State.get_set_apart h.set.set.set _ _ _ (by decide), State.get_set_same h.set.set _ _ ⟨by decide, by decide⟩]
    exact Nat.mod_eq_of_lt hc
  case count =>
    rw [State.get_set_apart h.set.set.set.set.set _ _ _ (by decide), State.get_set_apart h.set.set.set.set _ _ _ (by decide),
      State.get_set_apart h.set.set.set _ _ _ (by decide), State.get_set_apart h.set.set _ _ _ (by decide)]
    exact State.get_set_same h.set _ _ ⟨by decide, by decide⟩
  case addr =>
    iterate 5 rw [State.get_set_ne _ _ _ _ (by decide)]
    rw [State.get_set_same h _ _ ⟨by decide, by decide⟩]
    exact Nat.mod_eq_of_lt ha

/-! ### The refused write -/

/-- The order of R24, as the model tests it. -/
theorem State.refusal_write_eq (s : State) (i : Initiator) (a : Nat) (full : Bool) :
    s.refusal i a true full =
      if i = .debug ∧ ¬ s.on R.SEC_DBG_CTRL.DBG_EN then some 0x4
      else if ¬ RegMap.mapped a then some 0x1
      else if a % 4 ≠ 0 then some 0x5
      else if i = .host ∧ ¬ full then some 0x3
      else if i ≠ .supervisor ∧ RegMap.privileged a ∧ (RegMap.find a).isSome then some 0x2
      else none := by
  simp [State.refusal, privReg]

theorem State.refusal_lt {s : State} {i : Initiator} {a c : Nat} {isWrite full : Bool}
    (h : s.refusal i a isWrite full = some c) : c < 16 := by
  unfold State.refusal at h
  repeat' split at h
  all_goals cases h <;> decide

theorem busAddr_lt (i : Initiator) (a : Nat) : busAddr i a < 65536 := by
  unfold busAddr
  split <;> omega

/-- The GLB block is not on the event path. -/
theorem not_eventReg_of_lt {a : Nat} (h : a < 0x2000) : ¬ eventReg a := by
  rintro (rfl | rfl | rfl | rfl | rfl) <;> exact absurd h (by decide)

/-- Settles O15: the write ends in the record of its cause, taken of the state that the access reached. -/
theorem refusalRecord : Obligations.RefusalRecord := by
  intro s i addr data full cause hInv hon hr a hcause
  have hrefusal : s.refusal i (busAddr i addr) true full = some cause := (s.refusal_write_eq i _ full).trans hcause
  have hexec : exec (.registerWrite i addr data full) s =
      .next (((s.reached i).noteRefusal i a true cause).wdgRefused i a true) := by
    rw [exec_registerWrite_eq hon hr, State.busWrite, State.rowWrite, State.write_refused hrefusal]
    rfl
  have hrec : (s.reached i).Inv := State.reached_inv hInv i
  have hget (f : Fld) (hf : f.addr < 0x2000) :
      (((s.reached i).noteRefusal i a true cause).wdgRefused i a true).get f =
        ((s.reached i).noteRefusal i a true cause).get f :=
    State.wdgRefused_get _ i a true f (Nat.ne_of_lt (Nat.lt_trans hf (by decide))) (not_eventReg_of_lt hf)
  have hsame (f : Fld) (hf : f.addr < 0x2000) : (s.reached i).get f = s.get f :=
    State.get_congr (s.reached_word_ne i fun e => not_eventReg_of_lt hf (.inl e))
  have hvalid : (s.reached i).on R.GLB_ACC_ERR_INFO.VALID = s.on R.GLB_ACC_ERR_INFO.VALID :=
    State.on_congr (s.reached_word_ne i (by decide))
  have hnew (hv : ¬ (s.reached i).on R.GLB_ACC_ERR_INFO.VALID) :=
    State.noteRefusal_new hrec hv i true (busAddr_lt i addr) (State.refusal_lt hrefusal)
  have hold (hv : (s.reached i).on R.GLB_ACC_ERR_INFO.VALID) := State.noteRefusal_valid hrec hv i a true cause
  refine ⟨_, hexec, ?valid, ?new, ?old, ?frame⟩
  case valid =>
    rw [State.on_iff, hget _ (by decide)]
    by_cases hv : (s.reached i).on R.GLB_ACC_ERR_INFO.VALID
    · exact ((hold hv).2 _ (by decide)).trans (State.on_iff.1 hv)
    · exact (hnew hv).1
  case new =>
    intro hv
    obtain ⟨-, hcount, hcode, haddr, hwrite, hini⟩ := hnew (hvalid ▸ hv)
    exact ⟨(hget _ (by decide)).trans hcount, (hget _ (by decide)).trans hcode, (hget _ (by decide)).trans haddr,
      State.on_iff.2 ((hget _ (by decide)).trans hwrite), (hget _ (by decide)).trans hini⟩
  case old =>
    intro hv
    obtain ⟨hcount, hrest⟩ := hold (hvalid.trans hv)
    have hkept (f : Fld) (hf : f.addr < 0x2000) (hapart : R.GLB_ACC_ERR_INFO.COUNT.apart f) :=
      ((hget f hf).trans (hrest f hapart)).trans (hsame f hf)
    rw [hsame _ (by decide)] at hcount
    exact ⟨(hget _ (by decide)).trans hcount, hkept _ (by decide) (by decide), hkept _ (by decide) (by decide),
      hkept _ (by decide) (by decide)⟩
  case frame =>
    intro b hinfo haddr hwdg hhif hevq hpba htwb hlog
    have hev : ¬ eventReg b := by simp only [eventReg, hhif, hevq, htwb, hlog, hpba, or_self, not_false_eq_true]
    rw [State.wdgRefused_word_ne _ i a true hwdg hev, State.noteRefusal_word_ne _ i a true cause hinfo haddr,
      s.reached_word_ne i hhif]

end Sys2Proof.Machine
end

section
/-! Raising an event (R243, R312, R425): SEQ, the newest record of a type, and the fault log that may drop the entry. -/

namespace Sys2Proof.Machine

/-! ### What the event ring leaves -/

/-- From `s` to `t` neither SEQ nor the two-wire part of the state moved. -/
structure SeqKept (s t : State) : Prop where
  evSeq : t.evSeq = s.evSeq
  twb : t.twb = s.twb

theorem SeqKept.trans {s t u : State} (h : SeqKept s t) (k : SeqKept t u) : SeqKept s u :=
  ⟨k.evSeq.trans h.evSeq, k.twb.trans h.twb⟩

theorem State.emit_seqKept (s : State) (e : Emit) : SeqKept s (s.emit e) := by
  unfold State.emit
  split <;> exact ⟨rfl, rfl⟩

theorem State.fire_seqKept (s : State) (vec : Nat) : SeqKept s (s.fire vec) := by
  unfold State.fire
  split
  · exact ⟨rfl, rfl⟩
  · exact s.emit_seqKept _

theorem State.countEv_seqKept (s : State) : SeqKept s s.countEv := by
  unfold State.countEv
  split
  · refine SeqKept.trans ?_ (State.fire_seqKept _ _)
    exact ⟨rfl, rfl⟩
  · exact ⟨rfl, rfl⟩

theorem State.writeEvent_seqKept (s : State) (e : Event) : SeqKept s (s.writeEvent e) := by
  unfold State.writeEvent
  lift_lets
  intro tail base phase s1 _ s2 _ s3 s4
  have h1 : SeqKept s s1 := s.emit_seqKept _
  have h4 : SeqKept s1 s4 := ⟨rfl, rfl⟩
  exact (h1.trans h4).trans (State.countEv_seqKept s4)

/-- What becomes of the record on the event ring touches neither SEQ nor the newest records. -/
theorem State.postEvent_seqKept (s : State) (e : Event) : SeqKept s (s.postEvent e) := by
  unfold State.postEvent
  split
  · exact ⟨rfl, rfl⟩
  split
  · exact ⟨rfl, rfl⟩
  split
  · exact s.writeEvent_seqKept e
  split <;> exact ⟨rfl, rfl⟩

/-! ### The newest record of a type -/

theorem State.setPending_evSeq (s : State) (n : Nat) : (s.setPending n).evSeq = s.evSeq := by
  unfold State.setPending
  split <;> rfl

theorem State.setPending_last (s : State) (n : Nat) : (s.setPending n).twb.last = s.twb.last := by
  unfold State.setPending
  split <;> rfl

theorem State.setPending_fw (s : State) (n : Nat) : (s.setPending n).fw = s.fw := by
  unfold State.setPending
  split <;> rfl

/-- Setting a pending bit writes TWB_STATUS alone. -/
theorem State.setPending_word_ne (s : State) (n : Nat) {a : Nat} (h : a ≠ A.TWB_STATUS) :
    (s.setPending n).word a = s.word a := by
  unfold State.setPending
  split
  · rfl
  · calc _ = _ := State.word_set_ne _ _ _ h
      _ = s.word a := State.word_set_ne s _ _ h

theorem State.noteEvent_evSeq (s : State) (e : Event) : (s.noteEvent e).evSeq = s.evSeq := by
  unfold State.noteEvent
  dsimp only
  split
  · exact State.setPending_evSeq _ _
  · rfl

/-- The record replaces the one of its type. -/
theorem State.noteEvent_last (s : State) (e : Event) :
    (s.noteEvent e).twb.last = e :: s.twb.last.filter (fun x => x.typ ≠ e.typ) := by
  have hfilter : (s.twb.last.filter fun x => x.typ != e.typ) = s.twb.last.filter (fun x => x.typ ≠ e.typ) :=
    List.filter_congr fun x _ => by rw [Bool.eq_iff_iff]; simp
  unfold State.noteEvent
  dsimp only
  split
  · rw [State.setPending_last, hfilter]
  · rw [hfilter]

theorem State.noteEvent_fw (s : State) (e : Event) : (s.noteEvent e).fw = s.fw := by
  unfold State.noteEvent
  dsimp only
  split
  · exact State.setPending_fw _ _
  · rfl

theorem State.noteEvent_get (s : State) (e : Event) (f : Fld) (h : f.addr ≠ A.TWB_STATUS) :
    (s.noteEvent e).get f = s.get f := by
  unfold State.noteEvent
  dsimp only
  split
  · simp only [State.get, State.setPending_word_ne _ _ h]
    rfl
  · rfl

/-! ### The fault log -/

theorem State.logEvent_seqKept (s : State) (e : Event) : SeqKept s (s.logEvent e).1 := by
  unfold State.logEvent
  split
  · exact ⟨rfl, rfl⟩
  split
  · exact ⟨rfl, rfl⟩
  split <;> exact ⟨rfl, rfl⟩

/-- An entry is dropped that the log takes, while firmware runs and the queue to the log is full. -/
theorem State.logEvent_dropped_iff (s : State) (e : Event) :
    (s.logEvent e).2 = true ↔ s.bit R.LOG_CFG.TYPES (e.typ - 1) ∧ s.fwRuns ∧ ¬ s.fw.logQ.length < 32 := by
  unfold State.logEvent
  split_ifs <;> simp_all

/-- The log drops the entry of an event that is raised now. -/
def State.logDrops (s : State) (e : Event) : Bool := ((State.noteEvent { s with evSeq := e.seq } e).logEvent e).2

/-- Noting the event does not change whether its entry is dropped. -/
theorem State.logDrops_iff (s : State) (e : Event) :
    s.logDrops e = true ↔ s.bit R.LOG_CFG.TYPES (e.typ - 1) ∧ s.fwRuns ∧ ¬ s.fw.logQ.length < 32 := by
  have hget (f : Fld) (h : f.addr ≠ A.TWB_STATUS) : (State.noteEvent { s with evSeq := e.seq } e).get f = s.get f :=
    State.noteEvent_get _ e f h
  rw [State.logDrops, State.logEvent_dropped_iff, State.bit, State.fwRuns, State.noteEvent_fw, hget _ (by decide),
    hget _ (by decide)]
  rfl

/-! ### The event -/

/-- The event without what a dropped entry adds. -/
def State.raiseBase (s : State) (e : Event) : State :=
  ((State.noteEvent { s with evSeq := e.seq } e).logEvent e).1.postEvent e

theorem State.raise_of_kept {s : State} {typ : Nat} {payload : List Byte} (h : ¬ s.logDrops (s.mkEvent typ payload)) :
    s.raise typ payload = s.raiseBase (s.mkEvent typ payload) := if_neg h

/-- A dropped entry raises a FAULT event of its own (R425). -/
theorem State.raise_of_dropped {s : State} {typ : Nat} {payload : List Byte} (h : s.logDrops (s.mkEvent typ payload)) :
    s.raise typ payload = (s.raiseBase (s.mkEvent typ payload)).raiseOnly 0x07
      ((s.raiseBase (s.mkEvent typ payload)).faultPayload 0x0B 0x8 0xFF 0) := if_pos h

theorem State.raiseBase_evSeq (s : State) (e : Event) : (s.raiseBase e).evSeq = e.seq :=
  ((State.logEvent_seqKept _ e).trans (State.postEvent_seqKept _ e)).evSeq.trans (State.noteEvent_evSeq _ e)

theorem State.raiseBase_last (s : State) (e : Event) :
    (s.raiseBase e).twb.last = e :: s.twb.last.filter (fun x => x.typ ≠ e.typ) :=
  (congrArg TwoWire.last ((State.logEvent_seqKept _ e).trans (State.postEvent_seqKept _ e)).twb).trans
    (State.noteEvent_last _ e)

theorem State.raiseOnly_evSeq (s : State) (typ : Nat) (payload : List Byte) :
    (s.raiseOnly typ payload).evSeq = (s.evSeq + 1) % 2 ^ 32 :=
  (State.postEvent_seqKept _ _).evSeq.trans (State.noteEvent_evSeq _ _)

/-- An event without an entry keeps the newest record of every other type. -/
theorem State.mem_raiseOnly_last {s : State} {typ : Nat} {e : Event} (he : e ∈ s.twb.last) (htyp : e.typ ≠ typ)
    (payload : List Byte) : e ∈ (s.raiseOnly typ payload).twb.last := by
  have hlast : (s.raiseOnly typ payload).twb.last =
      s.mkEvent typ payload :: s.twb.last.filter (fun x => x.typ ≠ typ) :=
    (congrArg TwoWire.last (State.postEvent_seqKept _ _).twb).trans (State.noteEvent_last _ _)
  rw [hlast]
  exact List.mem_cons_of_mem _ (List.mem_filter.2 ⟨he, by simpa using htyp⟩)

/-- Settles O24: the event itself, and the FAULT event of an entry that the full log drops. -/
theorem eventRecord : Obligations.EventRecord := by
  intro s typ payload e kept
  have hdrop : s.logDrops e = true ↔ ¬ kept := by
    rw [s.logDrops_iff e, not_or, not_or, not_not, not_not]
  have hrest := (s.raise_ev typ payload).rest
  refine ⟨fun hk => ?kept, fun hk => ?dropped, hrest.cmds, hrest.ts, hrest.md⟩
  case kept =>
    rw [State.raise_of_kept fun h => hdrop.1 h hk]
    exact ⟨s.raiseBase_evSeq e, s.raiseBase_last e⟩
  case dropped =>
    rw [State.raise_of_dropped (hdrop.2 hk)]
    refine ⟨?seq, fun htyp => State.mem_raiseOnly_last (e := e) ?newest htyp _⟩
    case seq =>
      rw [State.raiseOnly_evSeq, s.raiseBase_evSeq]
      change ((s.evSeq + 1) % 2 ^ 32 + 1) % 2 ^ 32 = (s.evSeq + 2) % 2 ^ 32
      omega
    case newest => exact s.raiseBase_last e ▸ List.mem_cons_self

end Sys2Proof.Machine
end

section
/-! Timers, the time stamp and the locks (R11, R19, R391, R397, R406): what a read answers and what it moves. -/

namespace Sys2Proof.Machine

/-! ### Reads that nothing refuses -/

/-- Nothing refuses a read of an aligned mapped address but a debugger without access. -/
theorem State.refusal_read {s : State} {i : Initiator} {a : Nat} (hal : a % 4 = 0) (hmap : RegMap.mapped a = true)
    (hdbg : i = .debug → s.on R.SEC_DBG_CTRL.DBG_EN) : s.refusal i a false true = none := by
  have hdebug : (i = .debug && !s.on R.SEC_DBG_CTRL.DBG_EN) = false := by simpa using hdbg
  simp [State.refusal, hdebug, hmap, hal]

/-- A read row of such an address answers what the register reads, in the state that the access reached. -/
theorem State.rowRead_eq {s : State} {i : Initiator} {a : Nat} (hlt : a < 65536) (hal : a % 4 = 0)
    (hmap : RegMap.mapped a = true) (hdbg : i = .debug → s.on R.SEC_DBG_CTRL.DBG_EN) :
    s.rowRead i a = ((s.reached i).readReg i a).2.emit (.regRead i a ((s.reached i).readReg i a).1) := by
  have hbus := busAddr_aligned i hlt hal
  rw [State.rowRead, State.read_allowed (by rw [hbus]; exact State.refusal_read hal hmap hdbg), hbus]

/-- What a read answers goes out, and no register moves. -/
@[simp] theorem State.emit_regRead_word (s : State) (i : Initiator) (a : Nat) (w : Word) (b : Nat) :
    (s.emit (.regRead i a w)).word b = s.word b := rfl

@[simp] theorem State.emit_regRead_get (s : State) (i : Initiator) (a : Nat) (w : Word) (f : Fld) :
    (s.emit (.regRead i a w)).get f = s.get f := rfl

@[simp] theorem State.emit_regRead_out (s : State) (i : Initiator) (a : Nat) (w : Word) :
    (s.emit (.regRead i a w)).out = .regRead i a w :: s.out := rfl

@[simp] theorem State.emit_regRead_ts (s : State) (i : Initiator) (a : Nat) (w : Word) :
    (s.emit (.regRead i a w)).ts = s.ts := rfl

@[simp] theorem State.emit_regRead_tmr (s : State) (i : Initiator) (a : Nat) (w : Word) :
    (s.emit (.regRead i a w)).tmr = s.tmr := rfl

theorem State.reached_out (s : State) (i : Initiator) : (s.reached i).out = s.out := by
  unfold State.reached
  split <;> rfl

/-! ### Fast timers -/

theorem State.readReg_FT_CAPT (s : State) (i : Initiator) (n : Fin 16) :
    s.readReg i (A.TMR_FT_CAPT n) = (s.word (A.TMR_FT_CAPT n), s.set (R.TMR_FT_STATUS.NEW n) 0) := by
  fin_cases n <;> rfl

theorem TMR_FT_CAPT_address (n : Fin 16) :
    A.TMR_FT_CAPT n < 65536 ∧ A.TMR_FT_CAPT n % 4 = 0 ∧ RegMap.mapped (A.TMR_FT_CAPT n) = true ∧
      A.TMR_FT_CAPT n ≠ A.HIF_STATUS := by
  revert n
  decide

theorem TMR_FT_CAPT_ne_STATUS (n : Nat) : A.TMR_FT_CAPT n ≠ A.TMR_FT_STATUS n := by
  change 0x3514 + 0x20 * n ≠ 0x3518 + 0x20 * n
  omega

theorem TMR_FT_CNT_ne_STATUS (n : Nat) : A.TMR_FT_CNT n ≠ A.TMR_FT_STATUS n := by
  change 0x3508 + 0x20 * n ≠ 0x3518 + 0x20 * n
  omega

theorem TMR_FT_CAPT_real (n : Fin 16) : (R.TMR_FT_CAPT.CAPT n).real := by
  unfold Fld.real
  revert n
  decide

theorem TMR_FT_STATUS_NEW_real (n : Fin 16) : (R.TMR_FT_STATUS.NEW n).real := by
  unfold Fld.real
  revert n
  decide

theorem TMR_FT_STATUS_OVR_real (n : Fin 16) : (R.TMR_FT_STATUS.OVR n).real := by
  unfold Fld.real
  revert n
  decide

/-- The first part of a capture: a value that was not read is overrun. -/
def State.ftOverrun (s : State) (n : Nat) : State :=
  if s.on (R.TMR_FT_STATUS.NEW n) then s.set (R.TMR_FT_STATUS.OVR n) 1 else s

theorem State.ftCapture_eq (s : State) (n : Nat) :
    s.ftCapture n = ((s.ftOverrun n).set (R.TMR_FT_CAPT.CAPT n) ((s.ftOverrun n).get (R.TMR_FT_CNT.CNT n))).set
      (R.TMR_FT_STATUS.NEW n) 1 := rfl

theorem State.ftOverrun_inv {s : State} (h : s.Inv) (n : Nat) : (s.ftOverrun n).Inv := by
  unfold State.ftOverrun
  split
  · exact h.set
  · exact h

theorem State.ftOverrun_word_ne (s : State) (n : Nat) {a : Nat} (ha : a ≠ A.TMR_FT_STATUS n) :
    (s.ftOverrun n).word a = s.word a := by
  unfold State.ftOverrun
  split
  · exact s.word_set_ne _ _ ha
  · rfl

theorem State.ftOverrun_ovr {s : State} (h : s.Inv) (n : Fin 16) :
    (s.ftOverrun n).get (R.TMR_FT_STATUS.OVR n) =
      if s.on (R.TMR_FT_STATUS.NEW n) then 1 else s.get (R.TMR_FT_STATUS.OVR n) := by
  unfold State.ftOverrun
  split
  · exact State.get_set_same h _ 1 (TMR_FT_STATUS_OVR_real n)
  · rfl

/-- A capture takes the count, and tells of a value that was not read (R397). -/
theorem State.ftCapture_spec {s : State} (h : s.Inv) (n : Fin 16) :
    (s.ftCapture n).get (R.TMR_FT_CAPT.CAPT n) = s.get (R.TMR_FT_CNT.CNT n) ∧
      (s.ftCapture n).get (R.TMR_FT_STATUS.NEW n) = 1 ∧
      (s.ftCapture n).get (R.TMR_FT_STATUS.OVR n) =
        (if s.on (R.TMR_FT_STATUS.NEW n) then 1 else s.get (R.TMR_FT_STATUS.OVR n)) ∧
      ∀ a, a ≠ A.TMR_FT_CAPT n → a ≠ A.TMR_FT_STATUS n → (s.ftCapture n).word a = s.word a := by
  have ho := State.ftOverrun_inv h n
  rw [State.ftCapture_eq]
  refine ⟨?capt, State.get_set_same ho.set _ 1 (TMR_FT_STATUS_NEW_real n), ?ovr, ?frame⟩
  case capt =>
    rw [State.get_set_ne _ _ _ _ (TMR_FT_CAPT_ne_STATUS n), State.get_set_same ho _ _ (TMR_FT_CAPT_real n),
      Nat.mod_eq_of_lt (State.get_lt _ (R.TMR_FT_CNT.CNT n))]
    exact State.get_congr (s.ftOverrun_word_ne n (TMR_FT_CNT_ne_STATUS n))
  case ovr =>
    rw [State.get_set_apart ho.set (R.TMR_FT_STATUS.NEW n) (R.TMR_FT_STATUS.OVR n) _ (.inr (.inr (Nat.le_refl 3))),
      State.get_set_ne _ _ _ _ (TMR_FT_CAPT_ne_STATUS n).symm,
      State.ftOverrun_ovr h]
  case frame =>
    intro a hcapt hstatus
    rw [State.word_set_ne _ _ _ hstatus, State.word_set_ne _ _ _ hcapt, s.ftOverrun_word_ne n hstatus]

theorem exec_ftCaptRead_eq {s : State} {i : Initiator} (hon : s.power = .on) (hr : s.reaches i) (n : Fin 16) :
    exec (.ftCaptRead i n) s = .next (s.rowRead i (A.TMR_FT_CAPT n)) :=
  congrArg Host.Outcome.next (State.when_true _ hon hr)

/-- Settles O18: a capture, and the read that clears NEW. -/
theorem timerCapture : Obligations.TimerCapture := by
  intro s n i hInv hon hr hdbg
  refine ⟨State.ftCapture_spec hInv n, ?_⟩
  obtain ⟨hlt, hal, hmap, hhif⟩ := TMR_FT_CAPT_address n
  refine ⟨_, exec_ftCaptRead_eq hon hr n, ?_⟩
  rw [State.rowRead_eq hlt hal hmap hdbg, State.readReg_FT_CAPT, s.reached_word_ne i hhif]
  simp only [State.emit_regRead_get, State.emit_regRead_out, State.emit_regRead_word, State.set_out, s.reached_out, true_and]
  refine ⟨State.get_set_same (State.reached_inv hInv i) _ 0 (TMR_FT_STATUS_NEW_real n), fun a hstatus ha => ?_⟩
  rw [State.word_set_ne _ _ _ hstatus, s.reached_word_ne i ha]

/-! ### The time stamp -/

/-- A read of TS_LO keeps the high word for the reader (R391). -/
theorem State.readReg_TS_LO (s : State) (i : Initiator) :
    s.readReg i A.TMR_TS_LO = (BitVec.ofNat 32 s.tsNow,
      { s with tmr := { s.tmr with
          latch := s.tmr.latch.set (iniCode i % 6) (some (s.tsNow / 2 ^ 32)) (Nat.mod_lt _ (by decide)) } }) := rfl

theorem State.readReg_TS_HI (s : State) (i : Initiator) :
    s.readReg i A.TMR_TS_HI =
      (BitVec.ofNat 32 ((s.tmr.latch.get (Fin.ofNat 6 (iniCode i))).getD (s.tsNow / 2 ^ 32)), s) := rfl

theorem State.reached_ts (s : State) (i : Initiator) : (s.reached i).ts = s.ts := by
  unfold State.reached
  split <;> rfl

theorem State.reached_tmr (s : State) (i : Initiator) : (s.reached i).tmr = s.tmr := by
  unfold State.reached
  split <;> rfl

theorem State.reached_tsNow (s : State) (i : Initiator) : (s.reached i).tsNow = s.tsNow := by
  have hfll : (s.reached i).on R.GLB_CLK_STATUS.FLL_LOCK = s.on R.GLB_CLK_STATUS.FLL_LOCK :=
    State.on_congr (s.reached_word_ne i (by decide))
  rw [State.tsNow, hfll, s.reached_ts, State.tsNow]

/-- A timestamp's fraction reads 0 until the FLL locks (log entry 123). -/
theorem State.tsNow_fraction {s : State} (h : ¬ s.on R.GLB_CLK_STATUS.FLL_LOCK) : s.tsNow % 1024 = 0 := by
  rw [State.tsNow, if_neg h]
  omega

theorem State.tsNow_ticks (s : State) : s.tsNow / 1024 = s.ts / 1024 := by
  unfold State.tsNow
  split <;> omega

/-- Time that passes raises TS and lowers no timestamp (log entry 6). -/
theorem State.idle_ts {s : State} (hon : s.power = .on) : s.tsNow ≤ s.idle.tsNow ∧ s.ts < s.idle.ts := by
  have hidle : s.idle = { s with ts := if s.on R.GLB_CLK_STATUS.FLL_LOCK then s.ts + 1 else (s.ts / 1024 + 1) * 1024 } :=
    if_pos hon
  have hnow : s.idle.tsNow = if s.on R.GLB_CLK_STATUS.FLL_LOCK then s.idle.ts else s.idle.ts / 1024 * 1024 := by
    rw [hidle]
    rfl
  have hts : s.idle.ts = if s.on R.GLB_CLK_STATUS.FLL_LOCK then s.ts + 1 else (s.ts / 1024 + 1) * 1024 := by rw [hidle]
  rw [hnow, hts, State.tsNow]
  split_ifs <;> omega

theorem exec_tsLoRead_eq {s : State} {i : Initiator} (hon : s.power = .on) (hr : s.reaches i) :
    exec (.tsLoRead i) s = .next (s.rowRead i A.TMR_TS_LO) :=
  congrArg Host.Outcome.next (State.when_true _ hon hr)

/-- Settles O22: the timestamp is TS with its fraction masked, and TS_LO's read latches what TS_HI's then answers (log entries
6 and 123). -/
theorem timeStamps : Obligations.TimeStamps := by
  intro s i hInv hon hr hdbg
  refine ⟨State.tsNow_fraction, s.tsNow_ticks, fun hq => ⟨_, step_nil hq, State.idle_ts hon⟩, _, exec_tsLoRead_eq hon hr, ?_⟩
  rw [State.rowRead_eq (by decide) (by decide) (by decide) hdbg, State.readReg_TS_LO, s.reached_tsNow]
  simp only [State.emit_regRead_out, State.emit_regRead_ts, State.emit_regRead_tmr, s.reached_out, s.reached_ts, true_and]
  intro u _ htmr hword
  have hdbgU : i = .debug → u.on R.SEC_DBG_CTRL.DBG_EN := fun hi => (State.on_congr hword).trans (hdbg hi)
  have hbus : busAddr i A.TMR_TS_HI = A.TMR_TS_HI := busAddr_aligned i (by decide) (by decide)
  have hnone : u.refusal i A.TMR_TS_HI false true = none := State.refusal_read (by decide) (by decide) hdbgU
  rw [State.read_allowed (by rw [hbus]; exact hnone), hbus, State.readReg_TS_HI, u.reached_tmr,
    htmr]
  simp [Vector.get_eq_getElem]

end Sys2Proof.Machine
end

section
/-! The hardware locks (R406), the precedence of the modes (R27 to R29), refused two-wire transactions (R303, R307) and the
checks of RAIL_CONFIG (R387). -/

namespace Sys2Proof.Machine

/-! ### Writes of a plain register -/

/-- A whole write by an initiator who may access it is stored, and its effect follows. -/
theorem PlainReg.rowWrite_whole {a : Nat} (h : PlainReg a) {s : State} {i : Initiator}
    (hdbg : i = .debug → s.on R.SEC_DBG_CTRL.DBG_EN) (data : Word) (eff : Word → State → State) :
    ∃ w, s.rowWrite i a data true eff = eff ((s.reached i).word a) ((s.reached i).setWord a w) := by
  obtain ⟨w, hw⟩ := h.writeReg_eq (s.reached i) i data 0xFFFFFFFF eff
  have hnone : s.refusal i a true true = none := h.refusal_none hdbg fun _ _ => rfl
  refine ⟨w, ?_⟩
  rw [State.rowWrite, State.write_allowed (by rw [h.busAddr_eq]; exact hnone), h.busAddr_eq, hw]

/-! ### Bits of a field -/

theorem bitAt_eq_testBit (v k : Nat) : bitAt v k = v.testBit k := by
  rw [bitAt, Nat.testBit_eq_decide_div_mod_eq]

theorem bitAt_setBitAt (v k : Nat) : bitAt (setBitAt v k) k = true := by
  have hpos := Nat.two_pow_pos k
  unfold setBitAt
  split
  · assumption
  · rename_i h
    simp only [bitAt, decide_eq_true_eq] at h ⊢
    rw [Nat.add_div_right _ hpos]
    omega

/-- A bit that was set reads 1. -/
theorem State.bit_setBit_on {s : State} (h : s.Inv) (f : Fld) (hf : f.real) {k : Nat} (hk : k < f.width) :
    (s.setBit f k true).bit f k = true := by
  rw [State.bit, State.setBit, if_pos rfl, State.get_set_same h f _ hf, bitAt_eq_testBit, Nat.testBit_mod_two_pow,
    ← bitAt_eq_testBit, bitAt_setBitAt]
  simpa using hk

theorem State.bit_congr {s t : State} {f : Fld} (h : t.get f = s.get f) (k : Nat) : t.bit f k = s.bit f k := by
  rw [State.bit, h, State.bit]

/-! ### Locks -/

theorem State.readReg_LOCK (s : State) (i : Initiator) (n : Fin 16) : s.readReg i (A.MBX_LOCK n) = s.lockRead i n := by
  fin_cases n <;> rfl

theorem MBX_LOCK_address (n : Fin 16) :
    A.MBX_LOCK n < 65536 ∧ A.MBX_LOCK n % 4 = 0 ∧ RegMap.mapped (A.MBX_LOCK n) = true ∧ A.MBX_LOCK n ≠ A.HIF_STATUS ∧
      A.MBX_LOCK n ≠ A.MBX_LOCK_ERR := by
  revert n
  decide

theorem MBX_LOCK_implMask (n : Fin 16) : RegMap.implMask (A.MBX_LOCK n) = 0x80000007 := by
  revert n
  decide

/-- The sixteen locks are plain registers. -/
theorem plainReg_LOCK (n : Fin 16) : PlainReg (A.MBX_LOCK n) := by
  obtain ⟨hlt, hal, hmap, -, -⟩ := MBX_LOCK_address n
  have hfind : RegMap.find (A.MBX_LOCK n) = RegMap.find (A.MBX_LOCK 0) := by
    revert n
    decide
  exact
    { address := ⟨hlt, hal, hmap⟩
      outsideWdg := by revert n; decide
      notPrivileged := by revert n; decide
      notMsix := by revert n; decide
      notAon := by revert n; decide
      anyCode := ⟨_, hfind, fun _ => rfl⟩
      unlocked := fun s => by fin_cases n <;> rfl
      unlimited := fun s => by fin_cases n <;> rfl
      unheld := fun s => by fin_cases n <;> rfl }

theorem exec_lockRead_eq {s : State} {i : Initiator} (hon : s.power = .on) (hr : s.reaches i) (n : Fin 16) :
    exec (.lockRead i n) s = .next (s.rowRead i (A.MBX_LOCK n)) :=
  congrArg Host.Outcome.next (State.when_true _ hon hr)

theorem exec_lockWrite_eq {s : State} {i : Initiator} (hon : s.power = .on) (hr : s.reaches i) (n : Fin 16) (data : Word)
    (full : Bool) :
    exec (.lockWrite i n data full) s =
      .next (s.rowWrite i (A.MBX_LOCK n) data full fun was s => s.lockWrite i n was data) :=
  congrArg Host.Outcome.next (State.when_true _ hon hr)

theorem State.lockRead_free {s : State} {i : Initiator} {n : Nat} (h : ¬ s.on (R.MBX_LOCK.HELD n)) :
    s.lockRead i n = (0, s.setWord (A.MBX_LOCK n) (BitVec.ofNat 32 (2 ^ 31 + iniCode i))) := if_neg h

theorem State.lockRead_held {s : State} {i : Initiator} {n : Nat} (h : s.on (R.MBX_LOCK.HELD n)) :
    s.lockRead i n = (s.word (A.MBX_LOCK n), s) := if_pos h

theorem iniCode_lt (i : Initiator) : iniCode i < 8 := by cases i <;> decide

/-- The word of a lock that an initiator holds is stored whole. -/
theorem heldWord_impl (i : Initiator) :
    BitVec.ofNat 32 (0x80000000 + iniCode i) &&& 0x80000007 = BitVec.ofNat 32 (0x80000000 + iniCode i) := by
  cases i <;> decide

/-- A write of a lock, on the state in which the register's word was put back: freed by its owner, or refused. -/
theorem State.lockWrite_spec {s : State} (h : s.Inv) (i : Initiator) (n : Fin 16) (w data : Word) :
    let t := (s.setWord (A.MBX_LOCK n) w).lockWrite i n (s.word (A.MBX_LOCK n)) data
    (if s.on (R.MBX_LOCK.HELD n) ∧ s.get (R.MBX_LOCK.OWNER n) = iniCode i ∧ data = BitVec.ofNat 32 (iniCode i) then
      t.word (A.MBX_LOCK n) = 0 ∧ t.word A.MBX_LOCK_ERR = s.word A.MBX_LOCK_ERR
    else t.word (A.MBX_LOCK n) = s.word (A.MBX_LOCK n) ∧ t.bit R.MBX_LOCK_ERR.LOCK_ERR n ∧
      t.get R.MBX_LOCK_ERR.ERR_INIT = iniCode i) ∧
    ∀ a, a ≠ A.MBX_LOCK n → a ≠ A.MBX_LOCK_ERR → t.word a = s.word a := by
  obtain ⟨-, -, -, -, herr⟩ := MBX_LOCK_address n
  have hback : ((s.setWord (A.MBX_LOCK n) w).setWord (A.MBX_LOCK n) (s.word (A.MBX_LOCK n))).Inv :=
    State.setWord_inv _ _ _ (State.setWord_inv _ _ _ h)
  have hguard : (getBits (s.word (A.MBX_LOCK n)) 31 1 = 1 && getBits (s.word (A.MBX_LOCK n)) 0 3 = iniCode i &&
      data = BitVec.ofNat 32 (iniCode i)) = true ↔
      s.on (R.MBX_LOCK.HELD n) ∧ s.get (R.MBX_LOCK.OWNER n) = iniCode i ∧ data = BitVec.ofNat 32 (iniCode i) := by
    simp [State.on_iff, State.get, and_assoc]
  simp only [State.lockWrite, hguard]
  split
  case isTrue =>
    refine ⟨⟨?free, ?err⟩, ?frame⟩
    case free => rw [State.word_setWord_same hback]; simp
    case err => rw [State.word_setWord_ne _ _ herr.symm, State.word_setWord_ne _ _ herr.symm, State.word_setWord_ne _ _ herr.symm]
    case frame =>
      intro a ha _
      rw [State.word_setWord_ne _ _ ha, State.word_setWord_ne _ _ ha, State.word_setWord_ne _ _ ha]
  case isFalse =>
    refine ⟨⟨?kept, ?bit, ?initiator⟩, ?frame⟩
    case kept =>
      rw [State.word_set_ne _ _ _ herr, State.setBit, State.word_set_ne _ _ _ herr, State.word_setWord_restored h]
    case bit =>
      rw [State.bit_congr (State.get_set_apart (State.setBit_inv _ _ _ _ hback) _ _ _ (by decide))]
      exact State.bit_setBit_on hback _ ⟨by decide, by decide⟩ n.isLt
    case initiator =>
      rw [State.get_set_same (State.setBit_inv _ _ _ _ hback) _ _ ⟨by decide, by decide⟩]
      exact Nat.mod_eq_of_lt (iniCode_lt i)
    case frame =>
      intro a ha hne
      rw [State.word_set_ne _ _ _ hne, State.setBit, State.word_set_ne _ _ _ hne, State.word_setWord_ne _ _ ha,
        State.word_setWord_ne _ _ ha]

/-- Settles O26: reads and writes of a lock, on the state that the access reached. -/
theorem locks : Obligations.Locks := by
  intro s i n hInv hon hr hdbg
  obtain ⟨hlt, hal, hmap, hhif, herr⟩ := MBX_LOCK_address n
  have hrec := State.reached_inv hInv i
  have hword := s.reached_word_ne i hhif
  have hheld : (s.reached i).on (R.MBX_LOCK.HELD n) = s.on (R.MBX_LOCK.HELD n) := State.on_congr hword
  have hread := State.rowRead_eq hlt hal hmap hdbg
  refine ⟨fun hfree => ⟨_, exec_lockRead_eq hon hr n, ?free⟩, fun hown => ⟨_, exec_lockRead_eq hon hr n, ?held⟩,
    fun data => ⟨_, exec_lockWrite_eq hon hr n data true, ?write⟩⟩
  case free =>
    rw [hread, State.readReg_LOCK, State.lockRead_free (hheld ▸ hfree)]
    simp only [State.emit_regRead_out, State.emit_regRead_word, State.setWord_out, s.reached_out, true_and]
    refine ⟨?taken, fun a ha hne => ?frame⟩
    case taken => rw [State.word_setWord_same hrec, MBX_LOCK_implMask]; exact heldWord_impl i
    case frame => rw [State.word_setWord_ne _ _ ha, s.reached_word_ne i hne]
  case held =>
    rw [hread, State.readReg_LOCK, State.lockRead_held (hheld.trans hown), hword]
    simp only [State.emit_regRead_out, State.emit_regRead_word, s.reached_out, true_and]
    exact fun a hne => s.reached_word_ne i hne
  case write =>
    obtain ⟨w, hw⟩ := (plainReg_LOCK n).rowWrite_whole hdbg data fun was s => s.lockWrite i n was data
    obtain ⟨hends, hframe⟩ := State.lockWrite_spec hrec i n w data
    rw [hheld, State.get_congr (f := R.MBX_LOCK.OWNER n) hword, hword, s.reached_word_ne i (by decide)] at hends
    rw [hw, hword]
    exact ⟨hends, fun a ha herr hne => (hword ▸ hframe a ha herr).trans (s.reached_word_ne i hne)⟩

/-! ### MODE_EVALUATE -/

/-- Only the event path and the mode part moved. -/
theorem State.raiseMode_word (s : State) (prev new cause : Nat) {a : Nat} (ha : ¬ eventReg a) :
    (s.raiseMode prev new cause).word a = s.word a := by
  unfold State.raiseMode
  dsimp only
  split
  · exact ((State.setPending_ev _ 0).word a ha).trans ((State.raise_ev _ _ _).word a ha)
  · exact (State.raise_ev _ _ _).word a ha

/-- A MODE_CHANGE event leaves the mode part but for the mark of the first event. -/
theorem State.raiseMode_dwell (s : State) (prev new cause : Nat) : (s.raiseMode prev new cause).md.dwell = s.md.dwell := by
  unfold State.raiseMode
  dsimp only
  split
  · rw [(State.setPending_ev _ 0).rest.md, (State.raise_ev _ _ _).rest.md]
  · rw [(State.raise_ev _ _ _).rest.md]

/-- The mode register is not on the event path. -/
theorem MOD_MODE_STATUS_quiet : ¬ eventReg A.MOD_MODE_STATUS := not_eventReg_of_lt (by decide)

/-- The mode that is set reads back. -/
theorem State.setMode_mode {s : State} (h : s.Inv) {m cause : Nat} (hm : m < 2 ^ R.MOD_MODE_STATUS.MODE.width) :
    (s.setMode m cause).mode = m := by
  unfold State.setMode
  dsimp only
  split
  · assumption
  · rw [State.mode, State.get_congr (State.raiseMode_word _ _ _ _ MOD_MODE_STATUS_quiet),
      State.get_set_same h _ _ ⟨by decide, by decide⟩]
    exact Nat.mod_eq_of_lt hm

theorem State.setMode_dwell (s : State) (m cause : Nat) : (s.setMode m cause).md.dwell = s.md.dwell := by
  unfold State.setMode
  dsimp only
  split
  · rfl
  · exact State.raiseMode_dwell _ _ _ _

theorem State.setMode_word (s : State) (m cause : Nat) {a : Nat} (hmode : a ≠ A.MOD_MODE_STATUS) (ha : ¬ eventReg a) :
    (s.setMode m cause).word a = s.word a := by
  unfold State.setMode
  dsimp only
  split
  · rfl
  · exact (State.raiseMode_word _ _ _ _ ha).trans (s.word_set_ne _ _ hmode)

/-- The state that MODE_EVALUATE judges: the battery current as measured. -/
def State.withIbat (s : State) (ibat : Int) : State := s.seti R.MOD_BAT_MEAS.IBAT (ibat / 2)

theorem State.withIbat_word (s : State) (ibat : Int) {a : Nat} (ha : a ≠ A.MOD_BAT_MEAS) :
    (s.withIbat ibat).word a = s.word a := s.word_set_ne _ _ ha

theorem State.withIbat_mode (s : State) (ibat : Int) : (s.withIbat ibat).mode = s.mode :=
  State.get_congr (s.withIbat_word ibat (by decide))

theorem State.withIbat_busConn (s : State) (ibat : Int) (b : Fin 2) : (s.withIbat ibat).busConn b = s.busConn b := by
  unfold State.busConn
  split <;> exact State.on_congr (s.withIbat_word ibat (by decide))

theorem State.withIbat_anySink (s : State) (ibat : Int) : (s.withIbat ibat).anySink = s.anySink := by
  simp only [State.anySink, State.sinkConn, s.withIbat_busConn]
  rfl

/-- What MODE_EVALUATE keeps of the dwell and of the pack's low voltage. -/
def State.evalDwell (s : State) (neg : Bool) (m : Nat) : State :=
  { s with md := { s.md with dwell := m = 4 && !neg, packLow := s.md.packLow && m = 2 } }

theorem exec_modeEvaluate_safe {s : State} {ibat : Int} (hon : s.power = .on) (hp : s.powered)
    (hstage : s.on R.CNV_STATUS.STAGE_EN) (h5 : s.mode = 5) : exec (.modeEvaluate ibat) s = .next (s.withIbat ibat) := by
  have guard : (s.powered && s.on R.CNV_STATUS.STAGE_EN) = true := by simp [hp, hstage]
  have hsafe : (s.withIbat ibat).inSafe = true := decide_eq_true ((s.withIbat_mode ibat).trans h5)
  exact congrArg Host.Outcome.next ((State.when_true _ hon guard).trans (if_pos hsafe))

/-- Outside SAFE the mode is the one that the sinks and the current give. -/
theorem exec_modeEvaluate_path {s : State} {ibat : Int} (hon : s.power = .on) (hp : s.powered)
    (hstage : s.on R.CNV_STATUS.STAGE_EN) (h5 : s.mode ≠ 5) {m : Nat} (hm : s.pathMode (ibat < 0) = m) :
    exec (.modeEvaluate ibat) s = .next (((s.withIbat ibat).evalDwell (ibat < 0) m).setMode m 0x00) := by
  have guard : (s.powered && s.on R.CNV_STATUS.STAGE_EN) = true := by simp [hp, hstage]
  have hsafe : (s.withIbat ibat).inSafe ≠ true := by
    rw [State.inSafe, s.withIbat_mode]
    simpa using h5
  have hpath : (s.withIbat ibat).pathMode (ibat < 0) = m := by
    rw [← hm, State.pathMode, s.withIbat_anySink, s.withIbat_mode, State.pathMode]
  rw [← hpath]
  exact congrArg Host.Outcome.next ((State.when_true _ hon guard).trans (if_neg hsafe))

/-- The mode that MODE_EVALUATE gives outside SAFE, its dwell and what else it moves. -/
theorem exec_modeEvaluate_spec {s : State} {ibat : Int} (hInv : s.Inv) (hon : s.power = .on) (hp : s.powered)
    (hstage : s.on R.CNV_STATUS.STAGE_EN) (h5 : s.mode ≠ 5) :
    ∃ t, exec (.modeEvaluate ibat) s = .next t ∧ t.mode = s.pathMode (ibat < 0) ∧
      t.md.dwell = (s.pathMode (ibat < 0) = 4 && !(ibat < 0)) ∧
      ∀ a, a ≠ A.MOD_MODE_STATUS → a ≠ A.MOD_BAT_MEAS → ¬ eventReg a → t.word a = s.word a := by
  have hm : s.pathMode (ibat < 0) < 2 ^ R.MOD_MODE_STATUS.MODE.width := by
    unfold State.pathMode
    split_ifs <;> decide
  have h : ((s.withIbat ibat).evalDwell (ibat < 0) (s.pathMode (ibat < 0))).Inv := s.seti_inv _ _ hInv
  refine ⟨_, exec_modeEvaluate_path hon hp hstage h5 rfl, State.setMode_mode h hm, State.setMode_dwell _ _ _, ?_⟩
  exact fun a hmode hbat hev => (State.setMode_word _ _ _ hmode hev).trans (s.withIbat_word ibat hbat)

/-- Settles O23: SAFE stays; outside it the mode is that of `pathMode`. -/
theorem modePrecedence : Obligations.ModePrecedence := by
  intro s ibat hInv hon hp hstage
  by_cases h5 : s.mode = 5
  · refine ⟨_, exec_modeEvaluate_safe hon hp hstage h5, fun _ => (s.withIbat_mode ibat).trans h5, ?_⟩
    exact ⟨absurd h5, absurd h5, absurd h5, absurd h5, fun a _ hbat _ _ _ _ _ => s.withIbat_word ibat hbat⟩
  · obtain ⟨t, hexec, hmode, hdwell, hframe⟩ := exec_modeEvaluate_spec (ibat := ibat) hInv hon hp hstage h5
    refine ⟨t, hexec, fun h => absurd h h5, ?battery, ?hybrid, ?adapter, ?dwell, ?frame⟩
    case battery =>
      intro _ hsink
      rw [hmode]
      simp [State.pathMode, hsink]
    case hybrid =>
      intro _ hsink hneg
      rw [hmode, hdwell]
      simp [State.pathMode, hsink, hneg]
    case adapter =>
      intro _ hsink hpos h4
      rw [hmode]
      simp [State.pathMode, hsink, h4, Int.not_lt.2 hpos]
    case dwell =>
      intro _ hsink hpos h4
      rw [hmode, hdwell]
      simp [State.pathMode, hsink, h4, Int.not_lt.2 hpos]
    case frame =>
      intro a hmode hbat hhif hevq hpba htwb hlog
      exact hframe a hmode hbat (by simp only [eventReg, hhif, hevq, hpba, htwb, hlog, or_self, not_false_eq_true])

/-! ### Refused two-wire transactions -/

/-- A read that finds the unit busy is counted. -/
theorem State.nativeRead_busy {s : State} (hon : s.power = .on) (hav : s.on R.TWB_ADDR.AV) (hsys : s.sysRuns)
    (hbusy : s.busyNack) (f : State → State) : s.nativeRead f = s.bump R.TWB_STATS.NACK_BUSY := by
  have guard : (s.on R.TWB_ADDR.AV && s.sysRuns) = true := by simp [hav, hsys]
  exact (State.when_true _ hon guard).trans (if_pos hbusy)

theorem State.nativeWrite_busy {s : State} (hon : s.power = .on) (hav : s.on R.TWB_ADDR.AV) (hsys : s.sysRuns)
    (hbusy : s.busyNack) {w : TwiWrite} (hlost : ¬ w.lost) (code len : Nat) (block slow : Bool)
    (op : List Byte → State → Nat × State) : s.nativeWrite code block slow len w op = s.bump R.TWB_STATS.NACK_BUSY := by
  have guard : (s.on R.TWB_ADDR.AV && s.sysRuns) = true := by simp [hav, hsys]
  exact (State.when_true _ hon guard).trans (if_pos (by simp [hbusy, hlost]))

/-- A flawed write leaves its marks and LAST_RESULT. -/
theorem State.nativeWrite_flawed {s : State} (hon : s.power = .on) (hav : s.on R.TWB_ADDR.AV) (hsys : s.sysRuns)
    (hbusy : ¬ s.busyNack) {w : TwiWrite} {block lenErr pecErr : Bool} {len st : Nat}
    (hflaw : s.writeFlaw block len w = some (st, lenErr, pecErr)) (code : Nat) (slow : Bool)
    (op : List Byte → State → Nat × State) :
    s.nativeWrite code block slow len w op =
      ((s.ifDo lenErr fun s => s.set R.TWB_EVENT.LEN_ERR 1).ifDo pecErr State.pecError).setLast code st := by
  have guard : (s.on R.TWB_ADDR.AV && s.sysRuns) = true := by simp [hav, hsys]
  have hserves : (s.busyNack && !w.lost) = false := by simp [hbusy]
  rw [State.nativeWrite, State.when_true _ hon guard]
  simp only [hserves, hflaw, Bool.false_eq_true, if_false]

/-- The flaw that a block write of six bytes meets first, by its status (log entry 362). -/
theorem State.writeFlaw_status (s : State) (w : TwiWrite) :
    (s.writeFlaw true 6 w).map Prod.fst =
      if w.count ≠ 6 then some 0x12
      else if w.data.length < 6 then some 0x12
      else if w.pec = .bad then some 0x50
      else if 6 < w.data.length then some 0x12
      else if w.pec = .absent ∧ s.on R.TWB_CFG.PEC_REQ then some 0x50
      else if w.lost then some 0x31
      else none := by
  unfold State.writeFlaw
  simp only [Bool.true_and, bne_iff_ne, Bool.and_eq_true, decide_eq_true_eq]
  split_ifs <;> rfl

/-- A status that a flaw gives fits LAST_RESULT. -/
theorem State.writeFlaw_lt {s : State} {block : Bool} {len : Nat} {w : TwiWrite} {f : Nat × Bool × Bool}
    (h : s.writeFlaw block len w = some f) : f.1 < 256 := by
  unfold State.writeFlaw at h
  repeat' split at h
  all_goals cases h <;> decide

/-- Marking the two kinds of flaw moves TWB_EVENT and TWB_STATS. -/
theorem State.flawMarks_word (s : State) (lenErr pecErr : Bool) {a : Nat} (hev : a ≠ A.TWB_EVENT) (hst : a ≠ A.TWB_STATS) :
    ((s.ifDo lenErr fun s => s.set R.TWB_EVENT.LEN_ERR 1).ifDo pecErr State.pecError).word a = s.word a := by
  have hlen : (s.ifDo lenErr fun s => s.set R.TWB_EVENT.LEN_ERR 1).word a = s.word a := by
    cases lenErr
    · rfl
    · exact s.word_set_ne _ _ hev
  cases pecErr
  · exact hlen
  · exact ((State.word_set_ne _ _ _ hst).trans (State.word_set_ne _ _ _ hev)).trans hlen

theorem State.flawMarks_inv {s : State} (h : s.Inv) (lenErr pecErr : Bool) :
    ((s.ifDo lenErr fun s => s.set R.TWB_EVENT.LEN_ERR 1).ifDo pecErr State.pecError).Inv :=
  State.ifDo_inv _ _ _ (s.ifDo_inv _ _ h fun _ ht => ht.set) fun t ht => t.pecError_inv ht

/-- LAST_RESULT shows the code and the status. -/
theorem State.setLast_spec {s : State} (h : s.Inv) {code st : Nat} (hcode : code < 256) (hst : st < 256) :
    (s.setLast code st).get R.TWB_LAST.CODE = code ∧ (s.setLast code st).get R.TWB_LAST.RESULT = st ∧
      ∀ a, a ≠ A.TWB_LAST → (s.setLast code st).word a = s.word a := by
  refine ⟨?code, ?result, fun a ha => (State.word_set_ne _ _ _ ha).trans (State.word_set_ne _ _ _ ha)⟩
  case code =>
    rw [State.setLast, State.get_set_apart h.set _ _ _ (by decide), State.get_set_same h _ _ ⟨by decide, by decide⟩]
    exact Nat.mod_eq_of_lt hcode
  case result =>
    rw [State.setLast, State.get_set_same h.set _ _ ⟨by decide, by decide⟩]
    exact Nat.mod_eq_of_lt hst

/-- Settles O27: the busy unit, the first flaw of a write (log entry 362), and the count of a process call (log entry 368). -/
theorem twoWireRefusals : Obligations.TwoWireRefusals := by
  intro s hInv hon hav hsys
  refine ⟨?busyRead, ?busyWrite, ?flaw, ?count⟩
  case busyRead => exact fun hbusy => congrArg Host.Outcome.next (State.nativeRead_busy hon hav hsys hbusy _)
  case busyWrite =>
    exact fun w hbusy hlost => congrArg Host.Outcome.next (State.nativeWrite_busy hon hav hsys hbusy hlost _ _ _ _ _)
  case flaw =>
    intro w st hbusy hst
    rw [← s.writeFlaw_status w] at hst
    obtain ⟨⟨st, lenErr, pecErr⟩, hflaw, rfl⟩ := Option.map_eq_some_iff.1 hst
    obtain ⟨hcode, hresult, hframe⟩ :=
      State.setLast_spec (code := 0x09) (State.flawMarks_inv hInv lenErr pecErr) (by decide) (State.writeFlaw_lt hflaw)
    refine ⟨_, congrArg Host.Outcome.next (State.nativeWrite_flawed hon hav hsys hbusy hflaw _ _ _), hcode, hresult, ?_⟩
    exact fun a hlast hev hstats => (hframe a hlast).trans (s.flawMarks_word lenErr pecErr hev hstats)
  case count =>
    intro count addr hbusy hcount
    have guard : (s.on R.TWB_ADDR.AV && s.sysRuns) = true := by simp [hav, hsys]
    refine congrArg Host.Outcome.next ?_
    rw [State.processCall, State.nativeRead, State.when_true _ hon guard]
    simp only [hbusy, hcount, if_false, Bool.false_eq_true]

/-! ### RAIL_CONFIG -/

/-- With the AON domain running, a command row runs its operation on the command that starts next. -/
theorem State.row_done {s t : State} {c : Cmd} {r : Reply} {is : Cmd → Bool} {op : Cmd → State → CmdRes × State}
    (hon : s.power = .on) (hc : s.nextCmd = some c) (hi : is c = true) (ho : op c (s.markStarted c.handle) = (.done r, t)) :
    (Host.Outcome.next (s.when true fun s => s.runCmd is op) : Res) = .next (t.complete c.handle r) :=
  congrArg Host.Outcome.next ((State.when_true _ hon rfl).trans (State.runCmd_done hc hi ho))

/-- The checks of RAIL_CONFIG without a voltage. -/
theorem opRailConfig_checks {c : Cmd} (hvout : c.num 12 2 = 0) (s : State) :
    opRailConfig c s =
      if ∃ r ∈ s.seq.runs, bitAt r.rails c.railNo then (.done { status := 0x30 }, s)
      else if ¬ (s.rail c.railNo = railOff ∨ s.rail c.railNo = railFault ∨ s.rail c.railNo = railUnused) then
        (.done { status := 0x22 }, s)
      else if s.depsCycle c.railNo (c.num 2 2) then (.done { status := 0x11, diagOfs := 18, diagCode := 0x01 }, s)
      else (.done (clampReply (railClamps c) 0), s.configRail c.railNo c) := by
  simp [opRailConfig, hvout, fail, and_assoc]

/-- Marking a command as started moves no dependency of a rail. -/
theorem State.markStarted_reach (s : State) (h : Nat) (n : Fin 12) (deps k m : Nat) :
    (s.markStarted h).reach n deps k m = s.reach n deps k m := by
  induction k generalizing m with
  | zero => rfl
  | succ k ih => exact ih _

theorem State.markStarted_depsCycle (s : State) (h : Nat) (n : Fin 12) (deps : Nat) :
    (s.markStarted h).depsCycle n deps = s.depsCycle n deps := by
  rw [State.depsCycle, State.markStarted_reach, State.depsCycle]

/-- Settles O16: the three checks in the order of R387; marking the command as started changes none of them. -/
theorem railConfigChecks : Obligations.RailConfigChecks := by
  intro s c hon hc hop hvout n busy idle
  have hrow {r : Reply} (ho : opRailConfig c (s.markStarted c.handle) = (.done r, s.markStarted c.handle)) :
      exec .railConfig s = .next ((s.markStarted c.handle).complete c.handle r) :=
    State.row_done (is := isOp 0x50) hon hc (decide_eq_true hop) ho
  have hchecks := opRailConfig_checks hvout (s.markStarted c.handle)
  rw [State.markStarted_depsCycle] at hchecks
  refine ⟨fun hb => hrow ?_, fun hb hi => hrow ?_, fun hb hi hd => hrow ?_⟩
  · exact hchecks.trans (if_pos hb)
  · exact hchecks.trans ((if_neg hb).trans (if_pos hi))
  · exact hchecks.trans ((if_neg hb).trans ((if_neg (not_not.2 hi)).trans (if_pos hd)))

end Sys2Proof.Machine
end

section
/-! The rows of the opcode table, one conjunct after the other: with the AON domain running and the row's own condition met, a
command answers the next state that its meaning writes (log entry 5 says what it does elsewhere). -/

namespace Sys2Proof.Machine

/-- A row whose condition holds runs its meaning. -/
theorem State.row {s : State} {c : Bool} {f : State → State} (hon : s.power = .on) (hc : c = true) :
    (Host.Outcome.next (s.when c f) : Res) = .next (f s) :=
  congrArg Host.Outcome.next (State.when_true f hon hc)

/-- A row whose condition holds and whose meaning, on this state, has the value `t`. -/
theorem State.row_eq {s t : State} {c : Bool} {f : State → State} (hon : s.power = .on) (hc : c = true) (hf : f s = t) :
    (Host.Outcome.next (s.when c f) : Res) = .next t :=
  (State.row hon hc).trans (congrArg Host.Outcome.next hf)

end Sys2Proof.Machine
end

section
/-! What a served mailbox message and a served two-wire transaction do. -/

namespace Sys2Proof.Machine

/-- A message of the service, of a length that it takes, leaves the queue and is answered by the service's operation. -/
theorem State.serve_row {s : State} {svc : Nat} {lens : List Nat} {m : MbxMsg}
    {op : MbxMsg → State → Nat × Option (List Word) × State} (hon : s.power = .on) (hm : s.message = some m)
    (htake : s.mayTake = true) (hoff : s.offered svc = true) (hsvc : m.svc = svc) (hlen : m.len ≤ 15)
    (hlens : lens.contains m.len = true) :
    (Host.Outcome.next (s.when true fun s => s.serve svc lens op) : Res) =
      let r := op m (s.setH2u (s.mbx.h2u.drop (1 + m.len)))
      .next (r.2.2.answer { tag := m.tag, status := r.1, words := (r.2.1.map (replyWords svc m.tag)).getD [] }) := by
  have htaken : (!s.mayTake || !s.offered svc || m.svc != svc || decide (15 < m.len)) = false := by
    simp [htake, hoff, hsvc, hlen]
  refine State.row_eq hon rfl ?_
  simp only [State.serve, hm, htaken, hlens, Bool.not_true, Bool.false_eq_true, if_false]
  cases (op m (s.setH2u (s.mbx.h2u.drop (1 + m.len)))).2.1 <;> rfl

/-- The same, with the operation's answer named. -/
theorem State.serve_row_eq {s t : State} {svc st : Nat} {lens : List Nat} {m : MbxMsg} {out : Option (List Word)}
    {op : MbxMsg → State → Nat × Option (List Word) × State} (hon : s.power = .on) (hm : s.message = some m)
    (htake : s.mayTake = true) (hoff : s.offered svc = true) (hsvc : m.svc = svc) (hlen : m.len ≤ 15)
    (hlens : lens.contains m.len = true) (hop : op m (s.setH2u (s.mbx.h2u.drop (1 + m.len))) = (st, out, t)) :
    (Host.Outcome.next (s.when true fun s => s.serve svc lens op) : Res) =
      .next (t.answer { tag := m.tag, status := st, words := (out.map (replyWords svc m.tag)).getD [] }) := by
  rw [State.serve_row hon hm htake hoff hsvc hlen hlens, hop]

/-- A read at the native address that the unit serves. -/
theorem State.nativeRead_row {s : State} (hon : s.power = .on) (hav : s.on R.TWB_ADDR.AV = true) (hsys : s.sysRuns = true)
    (hbusy : ¬ s.busyNack = true) (f : State → State) : (Host.Outcome.next (s.nativeRead f) : Res) = .next (f s) :=
  congrArg Host.Outcome.next
    ((State.when_true _ hon (by simp [hav, hsys])).trans (if_neg hbusy))

/-- A process call of the count that its code fixes, served. -/
theorem State.processCall_row {s : State} (hon : s.power = .on) (hav : s.on R.TWB_ADDR.AV = true) (hsys : s.sysRuns = true)
    (hbusy : ¬ s.busyNack = true) (len : Nat) (f : State → State) :
    (Host.Outcome.next (s.processCall len len f) : Res) = .next (f s) :=
  congrArg Host.Outcome.next (State.processCall_served hon hav hsys (Bool.eq_false_iff.2 hbusy) f)

/-- A write without a flaw; one whose STOP fell after firmware was lost is not refused for that. -/
theorem State.nativeWrite_row {s : State} {code len : Nat} {block slow : Bool} {w : TwiWrite} (hon : s.power = .on)
    (hav : s.on R.TWB_ADDR.AV = true) (hsys : s.sysRuns = true) (hbusy : ¬ s.busyNack = true ∨ w.lost = true)
    (hflaw : s.writeFlaw block len w = none) (op : List Byte → State → Nat × State) :
    (Host.Outcome.next (s.nativeWrite code block slow len w op) : Res) =
      .next { (op w.data s).2.setLast code (op w.data s).1 with
        twb := { ((op w.data s).2.setLast code (op w.data s).1).twb with applying := slow } } := by
  have hserves : (s.busyNack && !w.lost) = false := by
    rcases hbusy with hfree | hlost
    · simp [hfree]
    · simp [hlost]
  exact congrArg Host.Outcome.next (State.nativeWrite_served hon hav hsys hserves hflaw op)

/-- A transaction at the compatibility address that the unit serves. -/
theorem State.compat_row {s : State} {lost : Bool} (hon : s.power = .on) (hcompat : s.on R.TWB_ADDR.COMPAT = true)
    (hsys : s.sysRuns = true) (hbusy : ¬ s.busyNack = true ∨ lost = true) (f : State → State) :
    (Host.Outcome.next (s.compat lost f) : Res) = .next (f s) := by
  have hserves : ¬ (s.busyNack && !lost) = true := by
    rcases hbusy with hfree | hlost
    · simp [hfree]
    · simp [hlost]
  exact congrArg Host.Outcome.next ((State.when_true _ hon (by simp [hcompat, hsys])).trans (if_neg hserves))

end Sys2Proof.Machine
end

section
/-! Power stage, power path, charger, temperature and budget. -/

namespace Sys2Proof.Machine

/-- Settles O29. The rows take the periods, valleys and retirements as log entries 130 to 135 and 139 to 143 model them. -/
theorem powerStageRows : Obligations.PowerStageRows := by
  intro s hon
  refine ⟨?bootstrapPrechargeDone, ?bootstrapRefresh, ?drvLvlApply, ?delayLineCalibrate, ?phaseValley, ?groupRefValley,
    ?dirRampHandover, ?phaseShed, ?phaseMapSetDone, ?phaseCycleLimit, ?phaseOvercurrent, ?phaseHardOvercurrent,
    ?phaseDriverUv, ?phaseSwNodeFault, ?phaseSenseMismatch, ?phaseSlopeFault, ?phaseCmFault, ?phaseSelfCheckDone, ?vdrvUv,
    ?vdrvRecover⟩
  case bootstrapPrechargeDone => exact fun ph hPrecharge hMayswitch => State.row hon (by simp [hPrecharge, hMayswitch])
  case bootstrapRefresh => exact fun ph hHeldOn => State.row hon hHeldOn
  case drvLvlApply => exact fun ph hSwitching hDrvHeld => State.row hon (by simp [hSwitching, hDrvHeld])
  case delayLineCalibrate => exact State.row hon rfl
  case phaseValley => exact fun ph v hSwitching => State.row hon hSwitching
  case groupRefValley => exact fun g v hNSwitch => State.row hon (by simp [hNSwitch])
  case dirRampHandover => exact fun g hGroups hIref => State.row hon (by simp [hGroups, hIref])
  case phaseShed => exact fun g ph hMaySheds hTopPhase => State.row_eq hon hMaySheds (by simp only [hTopPhase])
  case phaseMapSetDone => exact fun hMapChange hMoving => State.row hon (by simp [hMapChange, hMoving])
  case phaseCycleLimit => exact fun ph hSwitching hClHit => State.row hon (by simp [hSwitching, hClHit])
  case phaseOvercurrent => exact fun ph hSwitching hOccnt => State.row hon (by simp [hSwitching, hOccnt])
  case phaseHardOvercurrent => exact fun ph hSwitching => State.row hon hSwitching
  case phaseDriverUv => exact fun ph hInService => State.row hon hInService
  case phaseSwNodeFault => exact fun ph hSwitching => State.row hon hSwitching
  case phaseSenseMismatch => exact fun ph hSwitching hFfhold => State.row hon (by simp [hSwitching, hFfhold])
  case phaseSlopeFault => exact fun ph hSwitching => State.row hon hSwitching
  case phaseCmFault => exact fun ph hInService => State.row hon hInService
  case phaseSelfCheckDone => exact fun ph fail hChecking => State.row hon (by simp [hChecking])
  case vdrvUv => exact fun hStageen hVdrvuv => State.row hon (by simp [hStageen, hVdrvuv])
  case vdrvRecover => exact fun hVdrvuv => State.row hon hVdrvuv

/-- Settles O30. A bus move is read off the bus's own record; log entries 147 to 150, 157 and 158 model the drops and over-
voltages. -/
theorem pathMoves : Obligations.PathMoves := by
  intro s hon
  refine ⟨?pairTurnOnDone, ?busMoveRampDone, ?busMoveBusSettled, ?vExpSettle, ?batfetToSwitch, ?batfetToLinear,
    ?batfetFastOn, ?batfetReverseOff, ?batfetLinearResume, ?sinkDrop, ?sinkOvp, ?sinkOvpReclose, ?sinkReverse,
    ?sinkRevReconnect, ?sourceBusReady, ?sourceOverload, ?sourceShort, ?sourceReverse⟩
  case pairTurnOnDone => exact fun b p fast hMove => State.row_eq hon (by simp [hMove]) (by simp only [hMove])
  case busMoveRampDone =>
    exact fun b t vin vbus hMove hFreeToClose => State.row_eq hon (by simp [hMove, hFreeToClose]) (by simp only [hMove])
  case busMoveBusSettled => exact fun b p hMove => State.row_eq hon (by simp [hMove]) (by simp only [hMove])
  case vExpSettle => exact fun p hTrans hIsSrc hPeState => State.row hon (by simp [hTrans, hIsSrc, hPeState])
  case batfetToSwitch => exact fun vbat hBat hVsysmin => State.row hon (by simp [hBat, hVsysmin])
  case batfetToLinear => exact fun vbat hBat hAnySink hVsysmin => State.row hon (by simp [hBat, hAnySink, hVsysmin])
  case batfetFastOn => exact fun hBat => State.row hon (by simp [hBat])
  case batfetReverseOff => exact fun hBat hFastOn => State.row hon (by simp [hBat, hFastOn])
  case batfetLinearResume => exact fun hBat hFastOn => State.row hon (by simp [hBat, hFastOn])
  case sinkDrop => exact fun b vin hSinkConn => State.row hon (by simp [hSinkConn])
  case sinkOvp => exact fun b vin hSinkConn => State.row hon (by simp [hSinkConn])
  case sinkOvpReclose => exact fun b p hHeld => State.row hon (by simp [hHeld])
  case sinkReverse => exact fun b iin hSinkConn hIin => State.row hon (by simp [hSinkConn, hIin])
  case sinkRevReconnect => exact fun b p hHeld => State.row hon (by simp [hHeld])
  case sourceBusReady => exact fun p b hSrc hSrcBus => State.row_eq hon (by simp [hSrc]) (by simp only [hSrcBus])
  case sourceOverload => exact fun p hSourcing hContract => State.row hon (by simp [hSourcing, hContract])
  case sourceShort => exact fun p hSourcing => State.row hon hSourcing
  case sourceReverse => exact fun p hSourcing => State.row hon hSourcing

/-- Settles O31. The order inside CHARGER_EVAL is log entry 170, the estimator 178 to 181, the insertion of a pack 186. -/
theorem packPresence : Obligations.PackPresence := by
  intro s hon
  refine ⟨?tapDetect, ?tapFault, ?packNtcOpen, ?packProbeIdleStart, ?packProbeDone, ?packAbsentPoll, ?packInsert,
    ?packInsertConnect, ?chargerEval, ?prbsStep, ?estimatorUpdate⟩
  case tapDetect => exact fun hPackPresent => State.row hon hPackPresent
  case tapFault => exact fun hTapsUsed hPhase => State.row hon (by simp [hTapsUsed, hPhase])
  case packNtcOpen => exact fun hPackPresent hPresntc => State.row hon (by simp [hPackPresent, hPresntc])
  case packProbeIdleStart =>
    exact fun vbat hPackPresent hProbe hPhase hPhase2 => State.row hon (by simp [hPackPresent, hProbe, hPhase, hPhase2])
  case packProbeDone => exact fun vbat hProbe => State.row hon hProbe
  case packAbsentPoll => exact fun vbat hPackPresent hBat => State.row hon (by simp [hPackPresent, hBat])
  case packInsert =>
    exact fun vbat ntcOpen hPackPresent hBat hVbat hNtcOpen hPhase =>
      State.row hon (by simp [hPackPresent, hBat, hVbat, hNtcOpen, hPhase])
  case packInsertConnect => exact fun vsys vbat hInserting hWithin => State.row hon (by simp [hInserting, hWithin])
  case chargerEval => exact fun v => State.row hon rfl
  case prbsStep => exact fun hPerturbs => State.row hon hPerturbs
  case estimatorUpdate => exact fun f hPmEn hFwRuns hEst => State.row hon (by simp [hPmEn, hFwRuns, hEst])

/-- Settles O32. The counts and events of the trips are log entries 177, 182 and 183, the end without an input 185. -/
theorem chargePhases : Obligations.ChargePhases := by
  intro s hon
  refine ⟨?chgTrickleToPrecharge, ?chgPrechargeToCc, ?chgCcToPrecharge, ?chgStepAdvance, ?chgCcToCv, ?chgTerminate,
    ?chgRecharge, ?chgNoInputEnd, ?cellOvTrip, ?cellOvClear, ?fastTimerExpiry, ?preTimerExpiry, ?chgOvercurrent,
    ?packOvSuspend, ?packOvClear⟩
  case chgTrickleToPrecharge => exact fun hPhase hVLo => State.row hon (by simp [hPhase, hVLo])
  case chgPrechargeToCc => exact fun hPhase hVLo => State.row hon (by simp [hPhase, hVLo])
  case chgCcToPrecharge => exact fun hPhase hVLo => State.row hon (by simp [hPhase, hVLo])
  case chgStepAdvance => exact fun hPhase hStep hStep2 => State.row hon (by simp [hPhase, hStep, hStep2])
  case chgCcToCv => exact fun hPhase hVchgBinds => State.row hon (by simp [hPhase, hVchgBinds])
  case chgTerminate => exact fun hPhase hCvMs hIbat hVchgBinds => State.row hon (by simp [hPhase, hCvMs, hIbat, hVchgBinds])
  case chgRecharge => exact fun hPhase hVHi => State.row hon (by simp [hPhase, hVHi])
  case chgNoInputEnd => exact fun hAnySink hCycle => State.row hon (by simp [hAnySink, hCycle])
  case cellOvTrip => exact fun cells hVal => State.row hon (by simp [hVal])
  case cellOvClear => exact fun hActive => State.row hon (by simp [hActive])
  case fastTimerExpiry => exact fun hFastMs hCycle => State.row hon (by simp [hFastMs, hCycle])
  case preTimerExpiry => exact fun hPreMs hCycle => State.row hon (by simp [hPreMs, hCycle])
  case chgOvercurrent => exact fun hCharging hIbat => State.row hon (by simp [hCharging, hIbat])
  case packOvSuspend => exact fun vbat hCharging hCells => State.row hon (by simp [hCharging, hCells])
  case packOvClear => exact fun vbat hSusp hCells => State.row hon (by simp [hSusp, hCells])

/-- Settles O33. Log entries 190, 191 and 201 (budget) and 330 to 334 (samples) stand behind the meanings. -/
theorem thermalAndBudgetRows : Obligations.ThermalAndBudgetRows := by
  intro s hon
  refine ⟨?thermalSample, ?sampleRateSlow, ?thermalShutdownTrip, ?puppeteerCompute, ?ovlGrantEnd, ?ovlWindowEnd,
    ?localArbiterEval, ?localArbiterPmaxUpdate, ?chgShedDeadline, ?shedTExpiry, ?shedHardReset, ?sourceRestore,
    ?throtDeassert, ?intentActivate, ?intentExpire⟩
  case thermalSample => exact fun die ntc hPowered => State.row hon hPowered
  case sampleRateSlow => exact fun hPowered hFast hNearLimit => State.row hon (by simp [hPowered, hFast, hNearLimit])
  case thermalShutdownTrip => exact fun sensors marks hPairVote => State.row hon (by simp [hPairVote])
  case puppeteerCompute => exact fun v hSource => State.row hon (by simp [hSource])
  case ovlGrantEnd =>
    exact fun p usedUs w hBgt hGranting => State.row_eq hon (by simp [hBgt, hGranting]) (by simp only [hBgt])
  case ovlWindowEnd => exact fun p hBgt => State.row hon (by simp [hBgt])
  case localArbiterEval => exact fun v => State.row hon rfl
  case localArbiterPmaxUpdate => exact State.row hon rfl
  case chgShedDeadline => exact fun power hP => State.row hon (by simp [hP])
  case shedTExpiry => exact fun p sh hBgt hTaken => State.row_eq hon (by simp [hBgt, hTaken]) (by simp only [hBgt])
  case shedHardReset => exact fun p sh hBgt hTaken => State.row_eq hon (by simp [hBgt, hTaken]) (by simp only [hBgt])
  case sourceRestore => exact fun p hMayRestore => State.row hon hMayRestore
  case throtDeassert => exact fun hThrot hInSafe hHyst => State.row hon (by simp [hThrot, hInSafe, hHyst])
  case intentActivate => exact fun slot hBgt => State.row hon (by simp [hBgt])
  case intentExpire => exact fun slot hBgt => State.row hon (by simp [hBgt])

end Sys2Proof.Machine
end

section
/-! Type-C ports, the PD link and the policy engine. -/

namespace Sys2Proof.Machine

/-- Settles O34. Log entries 204, 211, 230 and 233 stand behind the attach, Try and recovery moves. -/
theorem portAttach : Obligations.PortAttach := by
  intro s hon
  refine ⟨?ccRpDetect, ?attachWaitCcOpen, ?sinkAttach, ?sourceAttach, ?rpChange, ?sinkDetach, ?sourceDetach,
    ?accessoryAttach, ?accessoryDetach, ?drpToggle, ?tryTimeout, ?errorRecoveryEnd, ?rpLevelRaise⟩
  case ccRpDetect =>
    exact fun p src cc2 ra level hTcState => State.row hon (by by_cases hsrc : src <;> simpa [hsrc] using hTcState)
  case attachWaitCcOpen => exact fun p hTcState => State.row hon (by simp [hTcState])
  case sinkAttach => exact fun p vbus hTcState hVbus hAttachFree => State.row hon (by simp [hTcState, hVbus, hAttachFree])
  case sourceAttach =>
    exact fun p vbus hTcState hVbus hAttachFree hSrcAvail =>
      State.row hon (by simp [hTcState, hVbus, hAttachFree, hSrcAvail])
  case rpChange => exact fun p level hTcState => State.row hon (by simp [hTcState])
  case sinkDetach => exact fun p vbus hTcState hVbus hVbusMayFall => State.row hon (by simp [hTcState, hVbus, hVbusMayFall])
  case sourceDetach => exact fun p hTcState => State.row hon (by simp [hTcState])
  case accessoryAttach =>
    exact fun p kind l1 l2 hAccen hWet hTcState =>
      State.row hon (by by_cases hkind : kind = 2 <;> simpa [hAccen, hWet, hkind] using hTcState)
  case accessoryDetach => exact fun p hTcState => State.row hon (by simp [hTcState])
  case drpToggle =>
    exact fun p hRole hTcState hDisable hStandAlone hWet =>
      State.row hon (by simp [hRole, hTcState, hDisable, hStandAlone, hWet])
  case tryTimeout => exact fun p hTcState hTcState2 => State.row hon (by simp [hTcState, hTcState2])
  case errorRecoveryEnd => exact fun p hTcState => State.row hon (by simp [hTcState])
  case rpLevelRaise =>
    exact fun p l hIsSrc hExplicit hTerm hRpLevel =>
      State.row_eq hon (by simp [hIsSrc, hExplicit]) (by simp only [hTerm, hRpLevel, if_true])

/-- Settles O35. Log entries 21, 205 and 227 stand behind the broken-off, moisture and discovery moves. -/
theorem portLink : Obligations.PortLink := by
  intro s hon
  refine ⟨?vconnOcp, ?vconnReverse, ?vbusDischargeDone, ?moistScan, ?moistTestDone, ?moistRetest, ?moistTestAbort,
    ?pdTxRetry, ?goodcrcRx, ?chunkTimeout, ?discoverIdentityRetry, ?cableIdentityRx, ?bistRx, ?bistCarrierEnd,
    ?hardResetRx, ?softResetRx⟩
  case vconnOcp => exact fun p hOn => State.row hon hOn
  case vconnReverse => exact fun p hOn => State.row hon hOn
  case vbusDischargeDone => exact fun p vbus hDischarge hDischarge2 => State.row hon (by simp [hDischarge, hDischarge2])
  case moistScan =>
    intro p hMoisten hNoTest hMode hWet
    refine State.row hon ?_
    by_cases hwet : s.wet p
    · simp [hMoisten, hNoTest, hMode, hwet]
    · simpa [hMoisten, hNoTest, hMode, hwet] using hWet
  case moistTestDone => exact fun p z ocv hMoistPins => State.row hon (by simp [hMoistPins])
  case moistRetest => exact fun p hMoistRe hNoTest => State.row hon (by simp [hMoistRe, hNoTest])
  case moistTestAbort => exact fun p hMoistPins => State.row hon (by simp [hMoistPins])
  case pdTxRetry => exact fun p m hTx hTx2 => State.row_eq hon hTx (by simp only [hTx2])
  case goodcrcRx => exact fun p m hTx hTx2 => State.row_eq hon hTx (by simp only [hTx2])
  case chunkTimeout => exact fun p hChunk => State.row hon (by simp [hChunk])
  case discoverIdentityRetry => exact fun p hDiscover => State.row hon (by simp [hDiscover])
  case cableIdentityRx => exact fun p amps5 epr active rev2 vmax vid hDiscover => State.row hon (by simp [hDiscover])
  case bistRx =>
    exact fun p bistMode vbus hTalks hVbus hVbus2 hBistMode => State.row hon (by simp [hTalks, hVbus, hVbus2, hBistMode])
  case bistCarrierEnd => exact fun p hBist => State.row hon (by simp [hBist])
  case hardResetRx => exact fun p hTalks hTcState => State.row hon (by simp [hTalks, hTcState])
  case softResetRx => exact fun p hTalks hBist => State.row hon (by simp [hTalks, hBist])

/-- Settles O36. Log entries 8, 22 and 223 stand behind the object layouts, the time-outs and the waiting sequences. -/
theorem policySink : Obligations.PolicySink := by
  intro s hon
  refine ⟨?srcCapsRx, ?acceptRx, ?psRdyRxSink, ?rejectRx, ?waitRx, ?sinkRequestRetry, ?senderResponseTimeout,
    ?psTransitionTimeout, ?sinkWaitCapTimeout, ?ppsKeepalive, ?eprEntryStart, ?eprModeRx, ?eprEnterTimeout, ?eprKeepalive,
    ?eprKeepaliveAckRx, ?sinkCapsRx, ?sinkTxOk, ?sinkTxWaitDrop⟩
  case srcCapsRx => exact fun p epr rev2 vbus objs hListens hTakesCaps => State.row hon (by simp [hListens, hTakesCaps])
  case acceptRx => exact fun p hAwaitsReply => State.row hon hAwaitsReply
  case psRdyRxSink => exact fun p hListens hPeState => State.row hon (by simp [hListens, hPeState])
  case rejectRx => exact fun p hAwaitsReply => State.row hon hAwaitsReply
  case waitRx => exact fun p hAwaitsReply => State.row hon hAwaitsReply
  case sinkRequestRetry => exact fun p hWaitsRetry => State.row hon hWaitsRetry
  case senderResponseTimeout => exact fun p hAwait => State.row hon (by simp [hAwait])
  case psTransitionTimeout => exact fun p hPeState => State.row hon (by simp [hPeState])
  case sinkWaitCapTimeout => exact fun p hPeState hTcState => State.row hon (by simp [hPeState, hTcState])
  case ppsKeepalive =>
    exact fun p hListens hExplicit hContract hIsSrc => State.row hon (by simp [hListens, hExplicit, hContract, hIsSrc])
  case eprEntryStart => exact fun p hListens hPeState hEprMay => State.row hon (by simp [hListens, hPeState, hEprMay])
  case eprModeRx => exact fun p action hListens => State.row hon hListens
  case eprEnterTimeout => exact fun p hPeState hEprStage => State.row hon (by simp [hPeState, hEprStage])
  case eprKeepalive => exact fun p hListens hEprmode hIsSrc => State.row hon (by simp [hListens, hEprmode, hIsSrc])
  case eprKeepaliveAckRx => exact fun p hListens hAwait => State.row hon (by simp [hListens, hAwait])
  case sinkCapsRx => exact fun p objs hListens hTcState => State.row hon (by simp [hListens, hTcState])
  case sinkTxOk =>
    exact fun p hListens hIsSrc hTcState hExplicit hPartnerrev =>
      State.row hon (by simp [hListens, hIsSrc, hTcState, hExplicit, hPartnerrev])
  case sinkTxWaitDrop => exact fun p hIsSrc hSeq hLine => State.row hon (by simp [hIsSrc, hSeq, hLine])

/-- Settles O37. Log entries 8, 24, 206, 213, 226 and 234 stand behind the requests and the answers. -/
theorem policySource : Obligations.PolicySource := by
  intro s hon
  refine ⟨?sourceCapsSend, ?requestRx, ?srcTransitionStart, ?srcPsRdy, ?ppsSourceTimeout, ?tsinktxExpiry, ?hostRoutedRx,
    ?drSwapRx, ?hostReplyTimeout, ?tableRequestRx, ?chunkRx⟩
  case sourceCapsSend => exact fun p hListens hSendsCaps => State.row hon (by simp [hListens, hSendsCaps])
  case requestRx => exact fun p rdo rev2 hTakesRequest => State.row hon hTakesRequest
  case srcTransitionStart => exact fun p hPeState hTrans => State.row hon (by simp [hPeState, hTrans])
  case srcPsRdy =>
    exact fun p vbus c hPeState hTrans hNext hMv =>
      State.row_eq hon (by simp [hPeState, hTrans, hNext, hMv]) (by simp only [hNext])
  case ppsSourceTimeout =>
    exact fun p hListens hIsSrc hExplicit hContract => State.row hon (by simp [hListens, hIsSrc, hExplicit, hContract])
  case tsinktxExpiry => exact fun p hListens hIsSrc hHeld hSeq => State.row hon (by simp [hListens, hIsSrc, hHeld, hSeq])
  case hostRoutedRx =>
    exact fun p sop1 needs kind hdr ext data hListens hHostKind => State.row hon (by simp [hListens, hHostKind])
  case drSwapRx => exact fun p hdr hListens hInReady => State.row hon (by simp [hListens, hInReady])
  case hostReplyTimeout => exact fun p hHostwait => State.row hon hHostwait
  case tableRequestRx => exact fun p kind hListens => State.row hon hListens
  case chunkRx => exact fun p sop1 kind hdr ext bytes hListens => State.row hon hListens

/-- Settles O38. Log entries 23, 206 and 220 stand behind the swaps and the Hard Reset. -/
theorem policySwaps : Obligations.PolicySwaps := by
  intro s hon
  refine ⟨?prSwapRx, ?prSwapSourceOff, ?prSwapVbusLow, ?psRdyRxSwap, ?swapPsRdyTimeout, ?vconnSwapRx, ?vconnSourceTimeout,
    ?swapReplyRx, ?frsSignalDetect, ?frSwapRx, ?frsSourceWaitExpiry, ?hrSinkAllowanceEnd, ?hrSinkVbusReturn,
    ?hrSourceVbusOff, ?hrSourceRecover, ?softResetAcceptRx⟩
  case prSwapRx => exact fun p hListens hInReady => State.row hon (by simp [hListens, hInReady])
  case prSwapSourceOff => exact fun p hPeState hSwapStage => State.row hon (by simp [hPeState, hSwapStage])
  case prSwapVbusLow =>
    exact fun p vbus hPeState hSwapStage hSrcBus hVbus => State.row hon (by simp [hPeState, hSwapStage, hSrcBus, hVbus])
  case psRdyRxSwap => exact fun p hListens => State.row hon hListens
  case swapPsRdyTimeout => exact fun p hAwaitsSwapRdy => State.row hon hAwaitsSwapRdy
  case vconnSwapRx => exact fun p hListens hInReady => State.row hon (by simp [hListens, hInReady])
  case vconnSourceTimeout =>
    exact fun p hPeState hSwapStage hVconnsrc => State.row hon (by simp [hPeState, hSwapStage, hVconnsrc])
  case swapReplyRx => exact fun p reply hListens => State.row hon hListens
  case frsSignalDetect =>
    exact fun p hListens hTcState hFrsArmed hIsSrc => State.row hon (by simp [hListens, hTcState, hFrsArmed, hIsSrc])
  case frSwapRx => exact fun p hListens hPeState hSwapStage => State.row hon (by simp [hListens, hPeState, hSwapStage])
  case frsSourceWaitExpiry => exact fun p hPeState hSwapStage => State.row hon (by simp [hPeState, hSwapStage])
  case hrSinkAllowanceEnd => exact fun p vbus hPeState => State.row hon (by simp [hPeState])
  case hrSinkVbusReturn => exact fun p vbus hPeState hVSafe5V => State.row hon (by simp [hPeState, hVSafe5V])
  case hrSourceVbusOff => exact fun p hPeState => State.row hon (by simp [hPeState])
  case hrSourceRecover => exact fun p hPeState hSrcBus => State.row hon (by simp [hPeState, hSrcBus])
  case softResetAcceptRx => exact fun p hListens hPeState hAwait => State.row hon (by simp [hListens, hPeState, hAwait])

end Sys2Proof.Machine
end

section
/-! Rails, capture and host rings, continuity and firmware, timers, and the register rows. -/

namespace Sys2Proof.Machine

/-- Settles O39. Log entries 252, 253, 256, 257 and 262 stand behind the rail moves. -/
theorem railMoves : Obligations.RailMoves := by
  intro s hon
  refine ⟨?railEnable, ?railGood, ?railPgTimeout, ?railLossOfGood, ?railDisable, ?railOff, ?railStuck, ?latchedPowerUp,
    ?auxOverload, ?auxUvlo⟩
  case railEnable => exact fun n hRail hDepsOf => State.row hon (by simp [hRail, hDepsOf])
  case railGood => exact fun n hRail => State.row hon (by simp [hRail])
  case railPgTimeout => exact fun n hRail => State.row hon (by simp [hRail])
  case railLossOfGood => exact fun n hRail => State.row hon (by simp [hRail])
  case railDisable => exact fun n hRail hDepsOf => State.row hon (by simp [hRail, hDepsOf])
  case railOff => exact fun n hRail => State.row hon (by simp [hRail])
  case railStuck => exact fun n hRail hDepsOf => State.row hon (by simp [hRail, hDepsOf])
  case latchedPowerUp => exact fun hDownRuns hSeq => State.row hon (by simp [hDownRuns, hSeq])
  case auxOverload => exact fun n hEnabled => State.row hon hEnabled
  case auxUvlo => exact fun vsys hVsys => State.row hon (by simp [hVsys])

/-- Settles O40. Log entries 271, 275, 292, 298 and 301 to 303 stand behind the blocks and the fetches. -/
theorem captureAndRingRows : Obligations.CaptureAndRingRows := by
  intro s hon
  refine ⟨?thresholdFire, ?captureTrigger, ?captureBlockClose, ?writeOutStart, ?pressureRestore, ?slowRateApply,
    ?oneshotDone, ?doorbellPoll, ?doorbellFetchDone, ?fullHeadFetch, ?entryFetchDone, ?irqItimeExpiry, ?sqDrainDone,
    ?functionLevelReset, ?busMasterDisable, ?busMasterEnable, ?linkL1Entry, ?perstDeassert⟩
  case thresholdFire => exact fun n before after frame hEn hCrossing => State.row hon (by simp [hEn, hCrossing])
  case captureTrigger => exact fun c src idx frame hRing hStream => State.row hon (by simp [hRing, hStream])
  case captureBlockClose => exact fun c run lost forming hRingOn hStream => State.row hon (by simp [hRingOn, hStream])
  case writeOutStart => exact fun corr bad hCanDma hStream => State.row hon (by simp [hCanDma, hStream])
  case pressureRestore => exact fun forming hLevel hCapFill => State.row hon (by simp [hLevel, hCapFill])
  case slowRateApply => exact fun hCap => State.row hon hCap
  case oneshotDone => exact fun mean hBusy => State.row hon hBusy
  case doorbellPoll =>
    exact fun hPollus hL0 hRunning hFetching => State.row hon (by simp [hPollus, hL0, hRunning, hFetching])
  case doorbellFetchDone => exact fun err page hFetching => State.row hon hFetching
  case fullHeadFetch => exact fun c err page hStream => State.row hon (by simp [hStream])
  case entryFetchDone => exact fun q err data f hHif hHif2 => State.row_eq hon hHif (by simp only [hHif2])
  case irqItimeExpiry => exact fun ring => State.row hon rfl
  case sqDrainDone => exact fun q => State.row hon rfl
  case functionLevelReset => exact fun kind => State.row hon rfl
  case busMasterDisable => exact fun d3 hHif => State.row hon hHif
  case busMasterEnable => exact fun d0 hHif => State.row hon hHif
  case linkL1Entry => exact fun hHif hL0 hFetching hHif2 => State.row hon (by simp [hHif, hL0, hFetching, hHif2])
  case perstDeassert => exact fun trained hHif hPowered => State.row hon (by simp [hHif, hPowered])

/-- Settles O41. Log entries 311, 314, 317 and 346 stand behind the resets, the fallback and the boot scan. -/
theorem jackAndFirmwareRows : Obligations.JackAndFirmwareRows := by
  intro s hon
  refine ⟨?jackPeriodStart, ?coreFaultReset, ?fallbackExpiry, ?logEntryWrite, ?logWriteAbandon, ?fwActivateWaitTimeout,
    ?activationTimeout, ?probationEnd, ?bootRomVerify⟩
  case jackPeriodStart => exact fun hState => State.row hon (by simp [hState])
  case coreFaultReset => exact fun ecc app hRun hFw => State.row hon (by simp [hRun, hFw])
  case fallbackExpiry => exact fun cur hArmed hGap => State.row hon (by simp [hArmed, hGap])
  case logEntryWrite => exact fun e q hFwRuns hLogQ => State.row_eq hon hFwRuns (by simp only [hLogQ])
  case logWriteAbandon =>
    exact fun vsys u0 q hFwRuns hVsys hLogQ => State.row_eq hon (by simp [hFwRuns, hVsys]) (by simp only [hLogQ])
  case fwActivateWaitTimeout => exact fun h hGap hActWait => State.row_eq hon hGap (by simp only [hActWait])
  case activationTimeout =>
    exact fun supervisor g hGap hBack => State.row_eq hon rfl (by simp only [hGap, hBack, Bool.false_eq_true, if_false])
  case probationEnd => exact fun fuseOk hRecord hGap => State.row hon (by simp [hRecord, hGap])
  case bootRomVerify => exact fun img0 img1 fuseOk hBoot => State.row hon (by simp [hBoot])

/-- Settles O42. The counts are operands (log entry 351); 353 and 354 model the edge and the reload. -/
theorem timerMoves : Obligations.TimerMoves := by
  intro s hon
  refine ⟨?aonCmpFire, ?ftCompareMatch, ?ftWrap, ?ftCaptureEdge, ?debugHalt, ?debugResume, ?gpioEdge⟩
  case aonCmpFire => exact fun n frame => State.row hon rfl
  case ftCompareMatch =>
    exact fun n k up frame hFtRuns hTop hDirAllowed hMode =>
      State.row hon (by simpa [hFtRuns, hTop, hDirAllowed] using hMode)
  case ftWrap => exact fun n hFtRuns => State.row hon hFtRuns
  case ftCaptureEdge => exact fun n rise count up hCapedge => State.row hon (by simp [hCapedge])
  case debugHalt => exact fun counts hDbgen hTmr => State.row hon (by simp [hDbgen, hTmr])
  case debugResume => exact fun hTmr => State.row hon hTmr
  case gpioEdge => exact fun n rise frame => State.row hon rfl

/-- Settles O43. Log entries 231, 273, 282, 351 and 352 stand behind the rows; the write itself is `State.busWrite` or
`State.rowWrite`. -/
theorem registerWrites : Obligations.RegisterWrites := by
  intro s hon
  refine ⟨?registerWrite, ?accErrClear, ?halfPeriodWrite, ?portDisableWrite, ?portErrRecovery, ?hifEnable, ?kick,
    ?sqEnable, ?sqDisable, ?cqEnable, ?cqDisable, ?evqEnable, ?evqDisable, ?oneshotGo, ?jackAnswer, ?jackCheckin,
    ?jackKey, ?jackDisable, ?jackEnable, ?jackLock, ?h2uPush, ?u2hAckWrite, ?unitAckWrite, ?u2ecSend, ?lockWrite,
    ?ftEnable, ?ftDisable, ?ftCaptureNow, ?ftCntWrite, ?ftTopWrite, ?ftCmpWrite, ?gpioCfgWrite⟩
  case registerWrite => exact fun ini addr data full hReaches => State.row hon hReaches
  case accErrClear => exact fun ini hReaches => State.row hon hReaches
  case halfPeriodWrite => exact fun ini g data full hReaches => State.row hon hReaches
  case portDisableWrite => exact fun ini p data full hReaches => State.row hon hReaches
  case portErrRecovery =>
    exact fun ini p data full hReaches hGetBits hDisable => State.row hon (by simp [hReaches, hGetBits, hDisable])
  case hifEnable => exact fun ini data full hReaches => State.row hon hReaches
  case kick => exact fun ini data full hReaches => State.row hon hReaches
  case sqEnable => exact fun ini q data full hReaches hEn => State.row hon (by simp [hReaches, hEn])
  case sqDisable => exact fun ini q data full hReaches hEn => State.row hon (by simp [hReaches, hEn])
  case cqEnable => exact fun ini q data full hReaches hEn => State.row hon (by simp [hReaches, hEn])
  case cqDisable => exact fun ini q data full hReaches hEn => State.row hon (by simp [hReaches, hEn])
  case evqEnable => exact fun ini data full hReaches hEn => State.row hon (by simp [hReaches, hEn])
  case evqDisable => exact fun ini data full hReaches hEn => State.row hon (by simp [hReaches, hEn])
  case oneshotGo => exact fun ini data full hReaches hGetBits => State.row hon (by simp [hReaches, hGetBits])
  case jackAnswer => exact fun ini data full tick hReaches => State.row hon hReaches
  case jackCheckin => exact fun ini data full hReaches => State.row hon hReaches
  case jackKey => exact fun ini data full late hReaches => State.row hon hReaches
  case jackDisable => exact fun ini data full late hReaches hGetBits => State.row hon (by simp [hReaches, hGetBits])
  case jackEnable => exact fun ini data full hReaches hGetBits => State.row hon (by simp [hReaches, hGetBits])
  case jackLock =>
    exact fun ini data full hReaches hGetBits hGetBits2 => State.row hon (by simp [hReaches, hGetBits, hGetBits2])
  case h2uPush => exact fun ini data full hReaches => State.row hon hReaches
  case u2hAckWrite => exact fun ini data full hReaches => State.row hon hReaches
  case unitAckWrite => exact fun ini data full hReaches => State.row hon hReaches
  case u2ecSend => exact fun ini data full hReaches => State.row hon hReaches
  case lockWrite => exact fun ini n data full hReaches => State.row hon hReaches
  case ftEnable => exact fun ini n data full hReaches hGetBits hEn => State.row hon (by simp [hReaches, hGetBits, hEn])
  case ftDisable =>
    exact fun ini n data full count up hReaches hGetBits hEn => State.row hon (by simp [hReaches, hGetBits, hEn])
  case ftCaptureNow =>
    exact fun ini n data full count up hReaches hGetBits hEn => State.row hon (by simp [hReaches, hGetBits, hEn])
  case ftCntWrite => exact fun ini n data full up hReaches => State.row hon hReaches
  case ftTopWrite => exact fun ini n data full count up hReaches => State.row hon hReaches
  case ftCmpWrite => exact fun ini n k data full count up frame hReaches => State.row hon hReaches
  case gpioCfgWrite => exact fun ini n data full hReaches => State.row hon hReaches

/-- Settles O44. A posted write takes effect when it has crossed (log entry 280). -/
theorem registerReads : Obligations.RegisterReads := by
  intro s hon
  refine ⟨?tsLoRead, ?ftCaptRead, ?h2uAckRead, ?u2hPop, ?lockRead, ?ec2uTake, ?aonWriteCrossed, ?aonCmpApply⟩
  case tsLoRead => exact fun ini hReaches => State.row hon hReaches
  case ftCaptRead => exact fun ini n hReaches => State.row hon hReaches
  case h2uAckRead => exact fun ini hReaches => State.row hon hReaches
  case u2hPop => exact fun ini hReaches => State.row hon hReaches
  case lockRead => exact fun ini n hReaches => State.row hon hReaches
  case ec2uTake => exact fun hReaches => State.row hon hReaches
  case aonWriteCrossed => exact fun frame hRange => State.row hon (by simp [hRange])
  case aonCmpApply => exact fun n frame hAonFront => State.row hon (by simp [hAonFront])

end Sys2Proof.Machine
end

section
/-! The host mailbox and the two-wire bus. -/

namespace Sys2Proof.Machine

/-- Half of a valid entry of the log. -/
theorem opLogEntry_found {m : MbxMsg} {s : State} {e : LogEntry}
    (he : (s.fw.log.find? fun (x : LogEntry) => x.lseq = (m.pay.getD 0 0).toNat) = some e)
    (hhalf : (m.pay.getD 1 0).toNat ≤ 1) :
    opLogEntry m s = (0x00, some (bytesWords e.bytes (32 * (m.pay.getD 1 0).toNat) 8), s) := by
  simp only [opLogEntry, he, hhalf, if_true]

/-- The two chunks of DBG_UNLOCK. -/
theorem opDbgUnlock_eq (verifies : Bool) {m : MbxMsg} (hk : (m.pay.getD 0 0).toNat ≤ 1) (s : State) :
    opDbgUnlock verifies m s =
      if (m.pay.getD 0 0).toNat = 0 then (0x00, none, { s with fw := { s.fw with unlock0 := true } })
      else
        let u := { s with fw := { s.fw with unlock0 := false } }.newNonce
        if s.fw.unlock0 && verifies && !s.fw.dbgFuse then
          (0x00, none, (u.set R.SEC_DBG_CTRL.DBG_EN 1).raiseFw 0x08 u.fw.record.bank (u.bank u.fw.record.bank).svn)
        else (0x50, none, u) :=
  if_neg (Nat.not_lt_of_le hk)

theorem opRecoverWrite_stored {m : MbxMsg} {s : State} (hrec : s.fw.recovery = true)
    (hchunk : (m.pay.getD 0 0).toNat % 56 = 0) (hsize : (m.pay.getD 0 0).toNat < 786432) :
    opRecoverWrite m s = (0x00, none, s.setBank 0 {}) := by
  simp only [opRecoverWrite, hrec, hchunk, Nat.not_le_of_lt hsize, Bool.not_true, bne_self_eq_false, Bool.false_or, decide_false,
    Bool.false_eq_true, if_false]

theorem opRecoverBoot_eq (img : ImageCheck) (m : MbxMsg) {s : State} (hrec : s.fw.recovery = true) :
    opRecoverBoot img m s =
      if ((s.setBank 0 (s.bankOf img)).bank 0).valid then (0x00, none, (s.setBank 0 (s.bankOf img)).leaveRecovery)
      else (0x50, none, s.setBank 0 (s.bankOf img)) :=
  if_neg (by simp [hrec])

/-- Settles O45. `State.serve_row` takes the message; log entries 344 and 347 to 350 stand behind what the services do. -/
theorem mailboxServices : Obligations.MailboxServices := by
  intro s hon
  refine ⟨?mbxMessageServe, ?echo, ?fwInfo, ?logEntry, ?dbgUnlock, ?dbgLock, ?recoverWrite, ?recoverBoot⟩
  case mbxMessageServe => exact fun hFwRuns => State.row hon hFwRuns
  case echo =>
    exact fun m hMessage hMayTake hOffered hSvc hLen =>
      State.serve_row hon hMessage hMayTake hOffered hSvc hLen (by simpa using Nat.lt_succ_of_le hLen)
  case fwInfo =>
    exact fun m hMessage hMayTake hOffered hSvc hLen =>
      State.serve_row hon hMessage hMayTake hOffered hSvc (by simp [hLen]) (by simp [hLen])
  case logEntry =>
    exact fun m e hMessage hMayTake hOffered hSvc hLen hLog hPay =>
      State.serve_row_eq hon hMessage hMayTake hOffered hSvc (by simp [hLen]) (by simp [hLen]) (opLogEntry_found hLog hPay)
  case dbgUnlock =>
    intro verifies m hMessage hMayTake hOffered hSvc hLen hPay
    have hrow {st : Nat} {t : State}
        (hop : opDbgUnlock verifies m (s.setH2u (s.mbx.h2u.drop (1 + m.len))) = (st, none, t)) :
        exec (.dbgUnlock verifies) s = .next (t.answer { tag := m.tag, status := st, words := [] }) :=
      State.serve_row_eq hon hMessage hMayTake hOffered hSvc (by simp [hLen]) (by simp [hLen]) hop
    have hop := opDbgUnlock_eq verifies hPay (s.setH2u (s.mbx.h2u.drop (1 + m.len)))
    dsimp only
    split_ifs with hchunk hgood
    · exact hrow (hop.trans (if_pos hchunk))
    · exact hrow (hop.trans ((if_neg hchunk).trans (if_pos hgood)))
    · exact hrow (hop.trans ((if_neg hchunk).trans (if_neg hgood)))
  case dbgLock =>
    exact fun m hMessage hMayTake hOffered hSvc hLen =>
      State.serve_row hon hMessage hMayTake hOffered hSvc (by simp [hLen]) (by simp [hLen])
  case recoverWrite =>
    exact fun m hMessage hMayTake hOffered hSvc hLen hRecovery hPay hPay2 =>
      State.serve_row_eq hon hMessage hMayTake hOffered hSvc (by simp [hLen]) (by simp [hLen]) (opRecoverWrite_stored hRecovery hPay hPay2)
  case recoverBoot =>
    intro img m hMessage hMayTake hOffered hSvc hLen hRecovery
    have hrow {st : Nat} {t : State}
        (hop : opRecoverBoot img m (s.setH2u (s.mbx.h2u.drop (1 + m.len))) = (st, none, t)) :
        exec (.recoverBoot img) s = .next (t.answer { tag := m.tag, status := st, words := [] }) :=
      State.serve_row_eq hon hMessage hMayTake hOffered hSvc (by simp [hLen]) (by simp [hLen]) hop
    have hop := opRecoverBoot_eq img m (s := s.setH2u (s.mbx.h2u.drop (1 + m.len))) hRecovery
    dsimp only
    split_ifs with hvalid
    · exact hrow (hop.trans (if_pos hvalid))
    · exact hrow (hop.trans (if_neg hvalid))

/-- Settles O46. Log entries 363 to 365, 373 and 374 stand behind ARP and the stuck bus. -/
theorem twoWireArp : Obligations.TwoWireArp := by
  intro s hon
  refine ⟨?arpPrepare, ?arpResetDevice, ?arpGetUdid, ?arpGetUdidDirected, ?arpAssignAddress, ?masterAssignStart,
    ?assignRetry, ?selfAssign, ?twbKaAddressMatch, ?twbWriteApplied, ?alertResponse, ?hostNotify, ?hostNotifyRetry,
    ?sclTimeout, ?sdaTimeout, ?sdaStuck⟩
  case arpPrepare => exact fun pec hSysRuns => State.row hon hSysRuns
  case arpResetDevice => exact fun directed pec hSysRuns => State.row hon hSysRuns
  case arpGetUdid => exact fun won hSysRuns => State.row hon hSysRuns
  case arpGetUdidDirected => exact fun addr hSysRuns => State.row hon hSysRuns
  case arpAssignAddress => exact fun udid addr pec otherCompat hSysRuns => State.row hon hSysRuns
  case masterAssignStart =>
    exact fun hBoot hAssigns hEcarp hArpauto hSysRuns =>
      State.row hon (by simp [hBoot, hAssigns, hEcarp, hArpauto, hSysRuns])
  case assignRetry => exact fun u hMayAssign hTwb => State.row hon (by simp [hMayAssign, hTwb])
  case selfAssign =>
    exact fun hIsFollower hBoot hAv hState hEcarp => State.row hon (by simp [hIsFollower, hBoot, hAv, hState, hEcarp])
  case twbKaAddressMatch => exact fun addr hInKa hRecognises => State.row hon (by simp [hInKa, hRecognises])
  case twbWriteApplied => exact State.row hon rfl
  case alertResponse => exact fun won hAlert hAv hSysRuns hWon => State.row hon (by simp [hAlert, hAv, hSysRuns, hWon])
  case hostNotify => exact fun r hMayNotify hTwb => State.row hon (by simp [hMayNotify, hTwb])
  case hostNotifyRetry => exact fun r hMayNotify hTwb => State.row hon (by simp [hMayNotify, hTwb])
  case sclTimeout => exact fun inNotify hSysRuns => State.row hon hSysRuns
  case sdaTimeout => exact fun hSysRuns => State.row hon hSysRuns
  case sdaStuck => exact fun hSysRuns => State.row hon hSysRuns

/-- Settles O47. Each code is its transaction, served; log entries 360, 362, 369 and 371 stand behind the replies and the
compatibility file. -/
theorem twoWireCodes : Obligations.TwoWireCodes := by
  intro s hon
  refine ⟨?twbStatus, ?eventSummary, ?eventAck, ?lastResult, ?lastEvent, ?regRead, ?regWrite, ?cmdSubmit, ?cplRead,
    ?cplPop, ?resultLo, ?resultHi, ?mbxRead, ?mbxWrite, ?mbxAckWrite, ?mbxAckRead, ?compatWrite, ?compatRead⟩
  case twbStatus => exact fun hAv hSysRuns hBusyNack => State.nativeRead_row hon hAv hSysRuns hBusyNack _
  case eventSummary => exact fun hAv hSysRuns hBusyNack => State.nativeRead_row hon hAv hSysRuns hBusyNack _
  case eventAck =>
    exact fun w hAv hSysRuns hBusyNack hWriteFlaw => State.nativeWrite_row hon hAv hSysRuns hBusyNack hWriteFlaw _
  case lastResult => exact fun hAv hSysRuns hBusyNack => State.nativeRead_row hon hAv hSysRuns hBusyNack _
  case lastEvent => exact fun typ hAv hSysRuns hBusyNack => State.processCall_row hon hAv hSysRuns hBusyNack _ _
  case regRead => exact fun addr hAv hSysRuns hBusyNack => State.processCall_row hon hAv hSysRuns hBusyNack _ _
  case regWrite =>
    exact fun w hAv hSysRuns hBusyNack hWriteFlaw => State.nativeWrite_row hon hAv hSysRuns hBusyNack hWriteFlaw _
  case cmdSubmit =>
    exact fun w hAv hSysRuns hBusyNack hWriteFlaw => State.nativeWrite_row hon hAv hSysRuns hBusyNack hWriteFlaw _
  case cplRead => exact fun hAv hSysRuns hBusyNack => State.nativeRead_row hon hAv hSysRuns hBusyNack _
  case cplPop =>
    exact fun w hAv hSysRuns hBusyNack hWriteFlaw => State.nativeWrite_row hon hAv hSysRuns hBusyNack hWriteFlaw _
  case resultLo => exact fun hAv hSysRuns hBusyNack => State.nativeRead_row hon hAv hSysRuns hBusyNack _
  case resultHi => exact fun hAv hSysRuns hBusyNack => State.nativeRead_row hon hAv hSysRuns hBusyNack _
  case mbxRead => exact fun hAv hSysRuns hBusyNack => State.nativeRead_row hon hAv hSysRuns hBusyNack _
  case mbxWrite =>
    exact fun w hAv hSysRuns hBusyNack hWriteFlaw => State.nativeWrite_row hon hAv hSysRuns hBusyNack hWriteFlaw _
  case mbxAckWrite =>
    exact fun w hAv hSysRuns hBusyNack hWriteFlaw => State.nativeWrite_row hon hAv hSysRuns hBusyNack hWriteFlaw _
  case mbxAckRead => exact fun hAv hSysRuns hBusyNack => State.nativeRead_row hon hAv hSysRuns hBusyNack _
  case compatWrite => exact fun data lost hCompat hSysRuns hBusyNack => State.compat_row hon hCompat hSysRuns hBusyNack _
  case compatRead => exact fun n hCompat hSysRuns hBusyNack => State.compat_row hon hCompat hSysRuns (.inl hBusyNack) _

end Sys2Proof.Machine
end

section
/-! Cascade, clocks and boot, modes, SHIP and the buttons. -/

namespace Sys2Proof.Machine

/-- Settles O48. Log entries 128, 367, 380, 384, 385, 387, 389 and 391 stand behind the cascade. -/
theorem cascadeMoves : Obligations.CascadeMoves := by
  intro s hon
  refine ⟨?followerRemove, ?followerReadmit, ?localFallbackEnter, ?localFallbackLeave, ?cscFrameStart, ?cscDiscoveryEnd,
    ?cscSlotRx, ?twoMasters, ?indexClash, ?syncLock, ?syncLost, ?parCfgApply, ?cscSleepEnter, ?cscWakeBurst,
    ?cscWakeNoMaster, ?tunnelTimeout⟩
  case followerRemove => exact fun u hMember hPeer hQuietOk => State.row hon (by simp [hMember, hPeer, hQuietOk])
  case followerReadmit =>
    exact fun u addressed hState hU hMember hPeer hExpect hExcluded =>
      State.row hon (by simp [hState, hU, hMember, hPeer, hExpect, hExcluded])
  case localFallbackEnter =>
    exact fun hIsFollower hLinken hSysRuns hBoot hQuietOk hState =>
      State.row hon (by simp [hIsFollower, hLinken, hSysRuns, hBoot, hQuietOk, hState])
  case localFallbackLeave => exact fun hState hCsc hPeer => State.row hon (by simp [hState, hCsc, hPeer])
  case cscFrameStart =>
    exact fun own hIsMaster hBoot hSysRuns hCsc => State.row hon (by simp [hIsMaster, hBoot, hSysRuns, hCsc])
  case cscDiscoveryEnd => exact fun hDiscovery => State.row hon hDiscovery
  case cscSlotRx => exact fun u x own hCscRuns hIdx hState => State.row hon (by simp [hCscRuns, hIdx, hState])
  case twoMasters => exact fun hIsMaster hState => State.row hon (by simp [hIsMaster, hState])
  case indexClash => exact fun u hState hU hPeer hExcluded => State.row hon (by simp [hState, hU, hPeer, hExcluded])
  case syncLock => exact fun half hLocks hSynclock hSysRuns => State.row hon (by simp [hLocks, hSynclock, hSysRuns])
  case syncLost => exact fun hLocks hSynclock => State.row hon (by simp [hLocks, hSynclock])
  case parCfgApply => exact fun w hCsc => State.row_eq hon rfl (by simp only [hCsc])
  case cscSleepEnter => exact fun n hCsc hN => State.row hon (by simp [hCsc, hN])
  case cscWakeBurst => exact fun hInKa hMulti => State.row hon (by simp [hInKa, hMulti])
  case cscWakeNoMaster => exact fun hFollows hInKa hCsc => State.row hon (by simp [hFollows, hInKa, hCsc])
  case tunnelTimeout => exact fun q hCsc => State.row_eq hon rfl (by simp only [hCsc])

/-- Settles O49. Log entries 100 to 102, 106, 108 to 111 and 122 stand behind the clocks and the boot sequence. -/
theorem clocksAndBoot : Obligations.ClocksAndBoot := by
  intro s hon
  refine ⟨?xtalSwitchOver, ?xtalFail, ?fllLock, ?pllLock, ?pllUnlock, ?pllLockRetry, ?refclkLoss, ?strapLatch,
    ?configImageApply, ?powerStageEnable, ?bar0Ready, ?dbAttach, ?vsysMinReached⟩
  case xtalSwitchOver => exact fun hXtalBad => State.row hon (by simp [hXtalBad])
  case xtalFail => exact fun hXtalactive => State.row hon hXtalactive
  case fllLock => exact fun hRun => State.row hon hRun
  case pllLock => exact fun hBoot => State.row hon (by simp [hBoot])
  case pllUnlock => exact fun hPlllock => State.row hon hPlllock
  case pllLockRetry => exact fun locked hPllholdover hLocked => State.row hon (by simp [hPllholdover, hLocked])
  case refclkLoss => exact fun hHif hL0 => State.row hon (by simp [hHif, hL0])
  case strapLatch => exact fun r hBoot => State.row hon (by simp [hBoot])
  case configImageApply => exact fun hBoot => State.row hon (by simp [hBoot])
  case powerStageEnable => exact fun hBoot => State.row hon (by simp [hBoot])
  case bar0Ready => exact fun hBoot => State.row hon (by simp [hBoot])
  case dbAttach =>
    exact fun p cc2 level hDbstart hDbPort hPdRuns hDb hVbus hTcState =>
      State.row hon (by simp [hDbstart, hDbPort, hPdRuns, hDb, hVbus, hTcState])
  case vsysMinReached => exact fun vsys hDbHold hAnySink hVsysmin => State.row hon (by simp [hDbHold, hAnySink, hVsysmin])

/-- Settles O50. Log entries 112, 117, 119, 125 and 126 stand behind the modes and SAFE. -/
theorem modesAndSafe : Obligations.ModesAndSafe := by
  intro s hon
  refine ⟨?modeEvaluate, ?hybDwellExpiry, ?kaEntryDelayExpiry, ?kaWake, ?kaIdleExpiry, ?kaScan, ?kaVbatCheck,
    ?vsysOvpTrip, ?pairStuckOn, ?batfetStuckOn⟩
  case modeEvaluate => exact fun ibat hPowered hStageen => State.row hon (by simp [hPowered, hStageen])
  case hybDwellExpiry => exact fun hMode hDwell => State.row hon (by simp [hMode, hDwell])
  case kaEntryDelayExpiry => exact fun hEntry hCsc => State.row hon (by simp [hEntry, hCsc])
  case kaWake => exact fun src => State.row hon rfl
  case kaIdleExpiry =>
    exact fun hKaReturn hIsFollower hEntry hKaOk => State.row hon (by simp [hKaReturn, hIsFollower, hEntry, hKaOk])
  case kaScan => exact fun p found hInKa hFound hRole hDisable => State.row hon (by simp [hInKa, hFound, hRole, hDisable])
  case kaVbatCheck => exact fun vbat hInKa => State.row hon hInKa
  case vsysOvpTrip => exact fun vsys hPowered hVsysovp hSafeHas => State.row hon (by simp [hPowered, hVsysovp, hSafeHas])
  case pairStuckOn => exact fun hPowered hPairsOpen hSafeHas => State.row hon (by simp [hPowered, hPairsOpen, hSafeHas])
  case batfetStuckOn =>
    exact fun ibat hPowered hBat hNatAbs hSafeHas => State.row hon (by simp [hPowered, hBat, hNatAbs, hSafeHas])

/-- Settles O51. Log entries 104, 115, 116, 118, 120, 121 and 258 stand behind SHIP and the presses. -/
theorem shipAndButtons : Obligations.ShipAndButtons := by
  intro s hon
  refine ⟨?shipDelayExpiry, ?shipRailsOff, ?shipEnter, ?shipAbandon, ?packLow, ?packCutoffExpiry, ?pwrbtnShortPress,
    ?pwrbtnArm, ?longPress, ?longPressStageOff, ?longPressPor⟩
  case shipDelayExpiry => exact fun hEntry => State.row hon (by simp [hEntry])
  case shipRailsOff => exact fun hEntry hDownRuns => State.row hon (by simp [hEntry, hDownRuns])
  case shipEnter => exact fun hEntry => State.row hon (by simp [hEntry])
  case shipAbandon => exact fun p hEntry => State.row hon (by simp [hEntry])
  case packLow => exact fun vbat hMode hBoot => State.row hon (by simp [hMode, hBoot])
  case packCutoffExpiry =>
    exact fun vbat hMode hPackLow hAnyAttached hLongPress hEntry =>
      State.row hon (by simp [hMode, hPackLow, hAnyAttached, hLongPress, hEntry])
  case pwrbtnShortPress => exact fun hBtnArmed hLongPress => State.row hon (by simp [hBtnArmed, hLongPress])
  case pwrbtnArm => exact State.row hon rfl
  case longPress => exact fun hBtnArmed => State.row hon hBtnArmed
  case longPressStageOff => exact fun hLongPress => State.row hon (by simp [hLongPress])
  case longPressPor => exact fun hLongPress => State.row hon (by simp [hLongPress])

end Sys2Proof.Machine
end

section
/-! The command rows: a row acts on the command that starts next where that is one of its opcode, and the command completes with
its operation's reply or stays outstanding. -/

namespace Sys2Proof.Machine

/-- A command that stays outstanding: the operation's effect, and no completion. -/
theorem State.row_wait {s t : State} {c : Cmd} {is : Cmd → Bool} {op : Cmd → State → CmdRes × State}
    (hon : s.power = .on) (hc : s.nextCmd = some c) (hi : is c = true) (ho : op c (s.markStarted c.handle) = (.wait, t)) :
    (Host.Outcome.next (s.when true fun s => s.runCmd is op) : Res) = .next (t.settle t.cmds.length) :=
  congrArg Host.Outcome.next ((State.when_true _ hon rfl).trans (State.runCmd_wait hc hi ho))

/-- The row of one opcode, for a command that completes. -/
theorem State.op_done {s t : State} {c : Cmd} {r : Reply} {n : Nat} {op : Cmd → State → CmdRes × State}
    (hon : s.power = .on) (hc : s.nextCmd = some c) (hop : c.opcode = n)
    (ho : op c (s.markStarted c.handle) = (.done r, t)) :
    (Host.Outcome.next (s.when true fun s => s.runCmd (isOp n) op) : Res) = .next (t.complete c.handle r) :=
  State.row_done hon hc (decide_eq_true hop) ho

/-- The row of one opcode, for a command that stays outstanding. -/
theorem State.op_wait {s t : State} {c : Cmd} {n : Nat} {op : Cmd → State → CmdRes × State}
    (hon : s.power = .on) (hc : s.nextCmd = some c) (hop : c.opcode = n)
    (ho : op c (s.markStarted c.handle) = (.wait, t)) :
    (Host.Outcome.next (s.when true fun s => s.runCmd (isOp n) op) : Res) = .next (t.settle t.cmds.length) :=
  State.row_wait hon hc (decide_eq_true hop) ho

theorem or_not_true {a b : Bool} (ha : ¬ a = true) (hb : ¬ b = true) : ¬ (a || b) = true := by
  rw [Bool.or_eq_true]
  exact not_or.2 ⟨ha, hb⟩

theorem and_not_true {a b : Bool} (h : ¬ a = true ∨ ¬ b = true) : ¬ (a && b) = true := by
  rw [Bool.and_eq_true]
  exact not_and_or.2 h

theorem bnot_not_true {a : Bool} (h : a = true) : ¬ (!a) = true := by
  rw [h]
  decide

theorem bne_not_true {α : Type} [BEq α] [LawfulBEq α] {a b : α} (h : a = b) : ¬ (a != b) = true :=
  mt bne_iff_ne.1 (not_not.2 h)

/-- What a row of the opcode table does that runs the operation `op` for the commands that `is` names. -/
theorem exec_commandRow {s : State} {i : Instr} {is : Cmd → Bool} {op : Cmd → State → CmdRes × State} (hon : s.power = .on)
    (hrow : exec i s = .next (s.when true fun s => s.runCmd is op)) :
    (s.nextCmd = none → exec i s = .next s) ∧
      (∀ c, s.nextCmd = some c → is c = false → exec i s = .next s) ∧
      (∀ c r t, s.nextCmd = some c → is c = true → op c (s.markStarted c.handle) = (.done r, t) →
        exec i s = .next (t.complete c.handle r)) ∧
      (∀ c t, s.nextCmd = some c → is c = true → op c (s.markStarted c.handle) = (.wait, t) →
        exec i s = .next (t.settle t.cmds.length)) := by
  rw [hrow, State.when_true _ hon rfl]
  refine ⟨?none, ?other, ?done, ?wait⟩
  case none => exact fun hc => congrArg Host.Outcome.next (State.runCmd_none hc)
  case other => exact fun c hc hi => congrArg Host.Outcome.next (State.runCmd_other hc hi)
  case done => exact fun c r t hc hi ho => congrArg Host.Outcome.next (State.runCmd_done hc hi ho)
  case wait => exact fun c t hc hi ho => congrArg Host.Outcome.next (State.runCmd_wait hc hi ho)

/-- Settles O28: each of the 37 rows is `runCmd` of its operation (log entry 274; log entry 5 for no command or another one). -/
theorem commandRowsRunTheirOperation : Obligations.CommandRowsRunTheirOperation := by
  intro s hon x hx
  have hrow : exec x.1 s = .next (s.when true fun s => s.runCmd x.2.1 x.2.2) := by
    fin_cases hx <;> rfl
  exact exec_commandRow hon hrow

end Sys2Proof.Machine
end

section
/-! The budget and charger commands. -/

namespace Sys2Proof.Machine

/-- Settles O52: BUDGET_INTENT accepted, with the follower's own handle and the forwarded intent (log entry 197);
BUDGET_SET_POLICY waits for the next computation (log entry 196). -/
theorem budgetCommands : Obligations.BudgetCommands := by
  intro s hon
  refine ⟨?budgetIntent, ?budgetSetPolicy⟩
  case budgetIntent =>
    intro c k hc hop hstart hstop hmaster hslot
    have hslot' : (s.markStarted c.handle).freeSlot = some k := hslot
    exact State.op_done hon hc hop ((if_neg (Nat.not_lt_of_le hstart)).trans ((if_neg (Nat.not_le_of_lt hstop)).trans
      ((if_neg hmaster).trans (by simp only [hslot']; rfl))))
  case budgetSetPolicy => exact fun c hc hop => State.op_wait hon hc hop rfl

/-- PHASE_MAP_SET accepted outside SAFE: the change waits for its periods, unless the unit is in SAFE after it (R68). -/
theorem opPhaseMapSet_accepted {c : Cmd} {s : State} (hidle : s.stage.mapChange = none) (hbad : s.mapBad c = none)
    (hreinst : (allPhases.all fun ph => !(s.reinstates c ph && s.reinst ph ≥ 3)) = true) (hleave0 : s.mapLeaves c 0 = true)
    (hleave1 : s.mapLeaves c 1 = true) (hsafe : ¬ s.inSafe = true) :
    opPhaseMapSet c s =
      let v := { s with stage := { s.stage with mapChange := some { handle := some c.handle, target := mapOfCmd c } } }
      let t := ((v.eachPhase allPhases fun s ph => s.mapPhase c ph).writePmax 0).writePmax 1
      if t.inSafe then (.done { status := 0x00, result := t.mapResult }, t) else (.wait, t) := by
  have hany : ¬ (allPhases.any fun ph => s.reinstates c ph && s.reinst ph ≥ 3) = true := by
    rw [List.any_eq_not_all_not, hreinst]
    exact Bool.false_ne_true
  simp only [opPhaseMapSet, hidle, hbad, hleave0, hleave1, hsafe, hany, Option.isSome_none, Bool.false_eq_true, Bool.and_self,
    Bool.not_true, if_false]

/-- Settles O53: the buffers of CHARGE_PROFILE_LOAD (log entry 176), CHARGE_RESTART (184), PHASE_MAP_SET (139, 140), INPUT_SELECT
(20, 145) and SELF_TEST (324). -/
theorem chargerCommands : Obligations.ChargerCommands := by
  intro s hon
  refine ⟨?chargeProfileLoad, ?chargeStart, ?chargeStop, ?chargeRestartAfterFault, ?estimatorRead, ?estimatorReset, ?inputSelect,
    ?phaseMapSet, ?sensorReinstate, ?selfTest⟩
  case chargeProfileLoad => exact fun c hc hop hload => State.op_done hon hc hop (if_pos (by simp [hload]))
  case chargeStart =>
    intro c hc hop hfault hoff habsent
    exact State.op_done hon hc hop (if_neg (by simp [State.markStarted_get, hfault, hoff, habsent]))
  case chargeStop =>
    exact fun c hc hop => State.op_done hon hc hop (by simp [opChargeStop, ok, or_assoc])
  case chargeRestartAfterFault =>
    intro c hc hop hphase hlatch hfault
    exact State.op_done hon hc hop
      (by simp [opChargeRestart, ok, State.markStarted_get, State.markStarted_on, hphase, hlatch, hfault])
  case estimatorRead => exact fun c hc hop => State.op_done hon hc hop rfl
  case estimatorReset => exact fun c hc hop hpm => State.op_done hon hc hop (if_pos hpm)
  case inputSelect =>
    intro c hc hop hidle hfit0 hfit1 htwice hport0 hport1 hphase0 hphase1 hbat
    exact State.op_wait hon hc hop ((if_neg (by simp [State.markStarted, hidle])).trans ((if_neg hfit0).trans ((if_neg hfit1).trans
      ((if_neg (by simpa using htwice)).trans ((if_neg hport0).trans ((if_neg hport1).trans ((if_neg hphase0).trans
      ((if_neg hphase1).trans (if_neg (by simp [show (s.markStarted c.handle).bat ≠ batOff from hbat]))))))))))
  case phaseMapSet =>
    intro c hc hop hidle hbad hreinst hleave0 hleave1 hsafe
    have hrun := opPhaseMapSet_accepted (s := s.markStarted c.handle) hidle hbad hreinst hleave0 hleave1 hsafe
    dsimp only at hrun ⊢
    split_ifs with hafter
    · exact State.op_done hon hc hop (hrun.trans (if_pos hafter))
    · exact State.op_wait hon hc hop (hrun.trans (if_neg hafter))
  case sensorReinstate =>
    intro c hc hop hntc
    exact State.op_done hon hc hop (if_neg (by simpa [State.markStarted_on, imp_iff_not_or] using hntc))
  case selfTest =>
    intro r c hc hop hmask hfree
    exact State.op_done hon hc hop ((if_neg hmask).trans (if_neg (by simpa [imp_iff_not_or] using hfree)))

end Sys2Proof.Machine
end

section
/-! The Type-C, PD and rail commands. -/

namespace Sys2Proof.Machine

/-- A request needs an idle port with a contract, and EPR mode for an EPR object (R219). -/
theorem requestMode_fits {st pos : Nat} {epr : Bool} (hstate : st = 4 ∨ st = 5) (hepr : pos ≤ 7 ∨ epr = true) :
    ¬ ((st != 0x04 && st != 0x05) || (decide (pos > 7) && !epr)) = true := by
  rcases hstate with rfl | rfl <;> simpa [or_iff_not_imp_left] using hepr

theorem hardReset_attached {st : Nat} (hst : st = 4 ∨ st = 7) : ¬ (st != 4 && st != 7) = true := by
  rcases hst with rfl | rfl <;> decide

/-- A swap that is not forbidden starts on a free port (R221). -/
theorem State.swapCmd_starts {s : State} {c : Cmd} {forbid : Bool} (hfree : ¬ s.portBusy c.port = true)
    (hallowed : ¬ forbid = true) (hmay : s.maySwap c.port = true) (q : PeSeq) :
    s.swapCmd c forbid q = (.wait, s.cmdSeq c.port c.handle q) :=
  (if_neg hfree).trans (if_neg (by simp [hallowed, hmay]))

/-- The row of one kind of PD_SWAP, for a swap that starts. -/
theorem State.swap_row {s : State} {c : Cmd} {kind : Nat} {op : Cmd → State → CmdRes × State} {forbid : Bool} {q : PeSeq}
    (hon : s.power = .on) (hc : s.nextCmd = some c) (hop : c.opcode = 0x35) (hkind : c.byte 1 = kind)
    (hfree : ¬ s.portBusy c.port = true) (hallowed : ¬ forbid = true) (hmay : s.maySwap c.port = true)
    (hswap : op c (s.markStarted c.handle) = (s.markStarted c.handle).swapCmd c forbid q) :
    (Host.Outcome.next (s.when true fun s => s.runCmd (isSwap kind) op) : Res) =
      let w := (s.markStarted c.handle).cmdSeq c.port c.handle q
      .next (w.settle w.cmds.length) :=
  State.row_wait hon hc (by simp [isSwap, hop, hkind])
    (hswap.trans (State.swapCmd_starts (s := s.markStarted c.handle) hfree hallowed hmay q))

/-- Settles O54: PR_Swap is refused during a bus move (log entry 216) and DR_Swap without HOST_DRS (217); the lengths and counts of
PD_SEND_MSG are clamped (218, 238); the request's fields follow the layouts of log entry 8. -/
theorem portCommands : Obligations.PortCommands := by
  intro s hon
  refine ⟨?pdSetPortPolicy, ?pdSetSourceCaps, ?pdSetSinkCaps, ?pdRequestRelease, ?pdRequest, ?pdSendMsg, ?pdSwapPr, ?pdSwapVconn,
    ?pdSwapDr, ?pdHardReset, ?pdPortDisable⟩
  case pdSetPortPolicy =>
    exact fun c hc hop hfree => State.op_done hon hc hop (if_neg (and_not_true hfree))
  case pdSetSourceCaps =>
    intro c hc hop hrest hfirst horder
    exact State.op_done hon hc hop
      (by simp only [opPdSetSourceCaps, hrest, hfirst, horder, Bool.not_true, Bool.false_eq_true, if_false])
  case pdSetSinkCaps =>
    intro c hc hop hsome hrest hspr hepr
    refine State.op_done hon hc hop ?_
    by_cases htable : c.byte 1 = 0
    · obtain ⟨hfirst, hall⟩ := hspr htable
      have hcount : c.byte 2 ≠ 0 := fun h => hsome ⟨htable, h⟩
      simp only [htable, if_true] at hrest
      simp [opPdSetSinkCaps, htable, hcount, hrest, hfirst, hall, -List.getD_eq_getElem?_getD]
    · have hall := hepr htable
      simp only [htable, if_false] at hrest
      simp [opPdSetSinkCaps, htable, hrest, hall]
  case pdRequestRelease => exact fun c hc hop hpos => State.op_done hon hc hop (if_pos hpos)
  case pdRequest =>
    intro c hc hop hpos hfree hstate hepr hmax hpdo hvolt
    exact State.op_wait hon hc hop ((if_neg hpos).trans ((if_neg hfree).trans ((if_neg (requestMode_fits hstate hepr)).trans
      ((if_neg (or_not_true (mt of_decide_eq_true (Nat.not_lt.2 hmax)) (mt of_decide_eq_true hpdo))).trans
        (if_neg (bnot_not_true hvolt))))))
  case pdSendMsg =>
    intro data c k hc hop hext hkind hsend
    have hsend' : (s.markStarted c.handle).sendRefusal c.port (bitAt (c.byte 2) 0) = none := hsend
    refine State.op_wait hon hc hop ((if_neg (by simpa using hext)).trans ?_)
    simp only [hkind, hsend']
    split_ifs <;> rfl
  case pdSwapPr =>
    intro c hc hop hkind hfree hrefused hmove hmay
    exact State.swap_row hon hc hop hkind hfree (or_not_true hrefused hmove) hmay rfl
  case pdSwapVconn =>
    intro c hc hop hkind hfree hrefused hdiscover hmay
    exact State.swap_row hon hc hop hkind hfree (or_not_true hrefused (and_not_true (not_and_or.1 hdiscover))) hmay rfl
  case pdSwapDr =>
    intro c hc hop hkind hfree hhost halone hmay
    exact State.swap_row hon hc hop hkind hfree (or_not_true (bnot_not_true hhost) halone) hmay rfl
  case pdHardReset =>
    intro c hc hop hattached htalks hsupply
    exact State.op_done hon hc hop
      (if_neg (or_not_true (or_not_true (hardReset_attached hattached) (bnot_not_true htalks)) hsupply))
  case pdPortDisable => exact fun c hc hop happlies => State.op_done hon hc hop (if_neg happlies)

/-- Settles O55: the rail commands past their checks (log entries 250, 253 and 260 to 263). -/
theorem railCommands : Obligations.RailCommands := by
  intro s hon
  refine ⟨?railConfig, ?railOn, ?railOffCmd, ?seqPlatformOn, ?seqPlatformOff⟩
  case railConfig =>
    intro c hc hop hruns hstate hvout hcycle
    have hcycle' : ¬ (s.markStarted c.handle).depsCycle c.railNo (c.num 2 2) = true := by
      rwa [State.markStarted_depsCycle]
    have hnone : ¬ (s.seq.runs.any fun r => bitAt r.rails c.railNo) = true := by simpa using hruns
    have hidle : (s.rail c.railNo = railOff || s.rail c.railNo = railFault || s.rail c.railNo = railUnused) = true := by
      simpa [or_assoc] using hstate
    exact State.op_done hon hc hop ((if_neg (by simpa [or_iff_not_imp_left] using hvout)).trans ((if_neg hnone).trans
      ((if_neg (bnot_not_true hidle)).trans (if_neg hcycle'))))
  case railOn =>
    intro c hc hop hbarred hused hdep
    exact State.op_wait hon hc hop ((if_neg hbarred).trans (if_neg (or_not_true (mt of_decide_eq_true hused) hdep)))
  case railOffCmd => exact fun c hc hop hbarred => State.op_wait hon hc hop (if_neg hbarred)
  case seqPlatformOn => exact fun c hc hop hbarred => State.op_wait hon hc hop (if_neg hbarred)
  case seqPlatformOff => exact fun c hc hop hbarred => State.op_wait hon hc hop (if_neg hbarred)

end Sys2Proof.Machine
end

section
/-! The capture, host, register, mode, cascade and firmware commands. -/

namespace Sys2Proof.Machine

/-- Settles O56: CAPTURE_ARM arms all of its rings or none (log entry 290), CAPTURE_STOP answers when the last block is out (298),
and a ring's state at write-out is that of log entry 293. -/
theorem captureCommands : Obligations.CaptureCommands := by
  intro s hon
  refine ⟨?captureConfig, ?captureArm, ?captureStop, ?captureRingAttach, ?captureRingDetach⟩
  case captureConfig =>
    intro c hc hop hmask hring hbad hpre hrate
    refine State.op_done hon hc hop ((if_neg (by simpa [or_iff_not_imp_left] using hmask)).trans ((if_neg hring).trans ?_))
    simp only [hbad]
    exact (if_neg (Nat.not_lt_of_le hpre)).trans (if_neg (Nat.not_lt_of_le hrate))
  case captureArm =>
    intro frame c hc hop hready hroom hoff
    have hdetached : ¬ ((maskRings (c.byte 0)).any fun r =>
        s.ring r = capDetached || s.ring r = capError || !(s.stream r).conf) = true := by
      simpa [and_assoc] using hready
    have hfull : ¬ ((maskRings (c.byte 0)).any fun r => !s.ringOn r && (s.stream r).mode = 0 &&
        s.capFree r < (s.stream r).pre + (s.stream r).len) = true := by
      simpa [or_assoc, imp_iff_not_or] using hroom
    have hrunning : ¬ (!bitAt (c.byte 1) 0 && (maskRings (c.byte 0)).any fun r => s.ringOn r) = true := by
      simpa [or_iff_not_imp_left] using hoff
    exact State.op_done hon hc hop ((if_neg hdetached).trans ((if_neg hfull).trans (if_neg hrunning)))
  case captureStop =>
    intro cur c hc hop
    dsimp only
    split_ifs with hactive
    · exact State.op_wait hon hc hop (if_pos hactive)
    · exact State.op_done hon hc hop (if_neg hactive)
  case captureRingAttach =>
    intro c hc hop hkind hring henable haddr halign hsize hmax htotal
    exact State.row_done hon hc (by simp [hop, hkind]) ((if_neg hring).trans ((if_neg (bnot_not_true henable)).trans
      ((if_neg (or_not_true (mt of_decide_eq_true haddr) (bne_not_true halign))).trans
        (if_neg (or_not_true (or_not_true (mt of_decide_eq_true hsize) (mt of_decide_eq_true (Nat.not_lt_of_le hmax)))
          (mt of_decide_eq_true (Nat.not_lt_of_le htotal)))))))
  case captureRingDetach =>
    intro c hc hop hkind hring henable haddr hsize
    exact State.row_done hon hc (by simp [hop, hkind]) ((if_neg hring).trans ((if_neg (bnot_not_true henable)).trans
      ((if_neg (bne_not_true haddr)).trans (if_neg (bne_not_true hsize)))))

theorem isTarget_of {c : Cmd} {t : Nat} (hop : c.opcode = 0x60) (htarget : c.byte 0 = t) : isTarget t c = true := by
  simp [isTarget, hop, htarget]

/-- A remote access that its checks let through joins the queue to the other unit (R338). -/
theorem opRemote_queued {c : Cmd} {s : State} (hbad : remoteBad c = none) (hother : Fin.ofNat 4 (c.byte 0) ≠ s.idx)
    (hreach : s.reachable (Fin.ofNat 4 (c.byte 0)) = true) (hroom : s.csc.queue.length < 8) :
    opRemote c s = (.wait, s.modQueue fun qs => qs ++
      [{ handle := c.handle, target := Fin.ofNat 4 (c.byte 0), isWrite := c.byte 1 = 1, addr := c.num 2 2,
         value := BitVec.ofNat 32 (c.num 4 4), mask := BitVec.ofNat 32 (c.num 8 4), sent := none }]) := by
  simp only [opRemote, hbad]
  exact (if_neg hother).trans ((if_neg (bnot_not_true hreach)).trans (if_neg (Nat.not_le_of_lt hroom)))

/-- Settles O57: the order of the MODE_REQUEST checks (log entries 113 to 115), a requested entry's cause (126), SET_PARAM and
GET_PARAM on every register (278, 279, 280, 283) and the remote accesses of log entry 392. -/
theorem hostCommands : Obligations.HostCommands := by
  intro s hon
  refine ⟨?nop, ?getStatusBlock, ?setEventMask, ?setParam, ?getParam, ?modeRequestKeepAlive, ?modeRequestShip,
    ?modeRequestClearSafe, ?cascadeStatus, ?cascadeRemoteRead, ?cascadeRemoteWrite⟩
  case nop => exact fun c hc hop => State.op_done hon hc hop rfl
  case getStatusBlock => exact fun c hc hop => State.op_done hon hc hop rfl
  case setEventMask => exact fun c hc hop => State.op_done hon hc hop rfl
  case setParam =>
    exact fun c hc hop hmap hal hmask => State.op_done hon hc hop (opSetParam_mapped rfl hmap hal hmask _)
  case getParam =>
    intro c hc hop hallowed
    have hallowed' : (s.markStarted c.handle).refusal .application (c.num 0 2) false true = none := hallowed
    refine State.op_done hon hc hop ?_
    simp only [opGetParam, hallowed']
    rfl
  case modeRequestKeepAlive =>
    intro c hc hop htarget hpress hentry hrole hmode hok
    exact State.row_done hon hc (isTarget_of hop htarget) ((if_neg (bne_not_true hpress)).trans
      ((if_neg (by simp [State.markStarted, hentry])).trans (if_neg (or_not_true hrole (bnot_not_true hok)))))
  case modeRequestShip =>
    intro c hc hop htarget hpress hentry hmode hattached
    have hawake : s.inKa = false := by simp [State.inKa, hmode]
    have hrun : (s.ifDo s.inKa fun s => s.wakeUp false false) = s := by rw [hawake]; rfl
    refine State.row_eq hon rfl ?_
    rw [hrun]
    exact State.runCmd_done hc (isTarget_of hop htarget) ((if_neg (bne_not_true hpress)).trans
      ((if_neg (by simp [State.markStarted, hentry])).trans (if_neg (or_not_true (bne_not_true hmode) hattached))))
  case modeRequestClearSafe =>
    intro vsys pairsOff batOff c hc hop htarget hpress hsafe hclear
    exact State.row_done hon hc (isTarget_of hop htarget) ((if_neg (bne_not_true hpress)).trans
      (if_neg (or_not_true (bnot_not_true hsafe) hclear)))
  case cascadeStatus => exact fun c hc hop => State.op_done hon hc hop rfl
  case cascadeRemoteRead =>
    intro c hc hop hwrite hbad hother hreach hroom
    exact State.row_wait hon hc (by simp [isOp, hop, hwrite])
      ((opRemote_queued (s := s.markStarted c.handle) hbad hother hreach hroom).trans (by simp [hwrite]))
  case cascadeRemoteWrite =>
    intro c hc hop hwrite hbad hother hreach hroom
    exact State.row_wait hon hc (by simp [isOp, hop, hwrite])
      ((opRemote_queued (s := s.markStarted c.handle) hbad hother hreach hroom).trans (by simp [hwrite]))

/-- Settles O58: FW_STAGE's clamp and alignment (log entry 340), FW_ACTIVATE and FW_ABORT (342), the order of CONFIG_COMMIT (343) and
images without bytes (344). -/
theorem firmwareCommands : Obligations.FirmwareCommands := by
  intro s hon
  refine ⟨?logRead, ?logClear, ?fwStage, ?fwActivate, ?fwAbort, ?configCommitImage, ?configCommitSwap⟩
  case logRead => exact fun c hc hop => State.op_done hon hc hop rfl
  case logClear => exact fun c hc hop hkey => State.op_done hon hc hop (if_neg (bne_not_true hkey))
  case fwStage =>
    intro readOk storeOk img c hc hop hlen hsource hactive htrial hofs hfit hread hstore hlast
    have hstaged : (if bitAt (c.byte 0) 0 then
        { (s.markStarted c.handle).dropStaging with fw := { (s.markStarted c.handle).dropStaging.fw with staged := some 0 } }
        else s.markStarted c.handle).fw.staged = some (c.num 4 4) := by
      by_cases hfirst : bitAt (c.byte 0) 0 = true
      · simp only [hfirst, if_true] at hofs ⊢
        rw [hofs]
      · simp only [hfirst] at hofs ⊢
        exact hofs
    exact State.op_done hon hc hop ((if_neg (bne_not_true hlen)).trans ((if_neg (bne_not_true hsource)).trans
      ((if_neg (or_not_true hactive htrial)).trans ((if_neg (bne_not_true hstaged)).trans ((if_neg (Nat.not_lt_of_le hfit)).trans
        ((if_neg (bnot_not_true hread)).trans ((if_neg (bnot_not_true hstore)).trans (if_neg hlast))))))))
  case fwActivate =>
    intro c hc hop hstaged hactive
    exact State.row_eq hon rfl (congrArg State.tryGap (State.runCmd_wait hc (decide_eq_true hop)
      ((if_neg (bnot_not_true hstaged)).trans (if_neg hactive))))
  case fwAbort =>
    intro c hc hop htrial hstaged hwait
    have hwait' : (s.markStarted c.handle).fw.actWait = none := hwait
    exact State.row_eq hon rfl (congrArg State.tryGap (State.runCmd_done hc (decide_eq_true hop)
      ((if_neg (Bool.eq_false_iff.1 htrial)).trans ((if_pos (Bool.or_eq_true_iff.2 (.inl hstaged))).trans
        (by simp only [hwait']; rfl)))))
  case configCommitImage =>
    intro readOk storeOk image c rs hc hop hsource hsrc hactive hread hstore hparse
    refine State.row_done hon hc (by simp [hop, hsource]) ((if_neg hsrc).trans ((if_neg hactive).trans
      ((if_neg (bnot_not_true hread)).trans ?_)))
    simp only [hparse]
    exact if_pos hstore
  case configCommitSwap =>
    intro storeOk c hc hop hsource haddr hlen hactive hvalid hstore
    exact State.row_done hon hc (by simp [hop, hsource]) ((if_neg (bne_not_true haddr)).trans ((if_neg (bne_not_true hlen)).trans
      ((if_neg hactive).trans ((if_neg (bnot_not_true hvalid)).trans (if_pos hstore)))))

end Sys2Proof.Machine
end
